-- ==== Sys2Proof/Word.lean ====
section
/-! DEFINITION. The word types of the WV2048 model and their plainest arithmetic. -/

namespace Sys2Proof

/-- A 32-bit word: registers, arguments, binary32 patterns, lane memory. -/
abbrev W32 := BitVec 32

/-- A 64-bit word, used where the spec gives a 64-bit item. -/
abbrev W64 := BitVec 64

/-- The word with the value `n` modulo 2^32. -/
abbrev w32 (n : Nat) : W32 := BitVec.ofNat 32 n

end Sys2Proof
end

