-- ==== Sys2Proof/Syntax.lean ====
section
/-! DEFINITION. The commands of the WV2048: one constructor for each row of spec/opcode_table.json, in its order.
Operands hold what the spec gives the row: argument words where it lays them out, typed values elsewhere (log 5). -/

namespace Sys2Proof

/-- Mailbox and TAG of a request (Table 16-4). -/
structure Hdr where
  mbx : Fin 8
  tag : BitVec 16
  deriving DecidableEq, Repr

/-- Operands of a format R Carve instruction (Table 6-5). -/
structure FmtR where
  pred : Fin 8
  pinv : Bool
  d : Fin 32
  a : Fin 32
  b : Fin 32
  x : Fin 128
  deriving DecidableEq, Repr

/-- Operands of a format M Carve instruction (Table 6-5). -/
structure FmtM where
  pred : Fin 8
  pinv : Bool
  d : Fin 32
  imm : Fin 1024
  x : Fin 128
  deriving DecidableEq, Repr

/-- The weights that the host sets, each less 1 (R32, Table 1-9). No structure of Table 16-10 holds them: they arrive with
a fabric cycle (DESIGN CHOICE, log 30). -/
structure Weights where
  coach : Fin 15
  ledger : Fin 15
  snapshot : Fin 15
  carve : Fin 15
  ddrLedger : Fin 15
  ddrSnapshot : Fin 15
  ddrDma : Fin 15
  ddrCoach : Fin 15
  deriving DecidableEq, Repr

/-- A link port: a unit's Piste port, a pair lane, or a cell's H or T port (R148). -/
inductive PortId where
  | unit (p : Fin 32)
  | lane (k : Fin 4)
  | cellH (n : Fin 2048)
  | cellT (n : Fin 2048)
  deriving DecidableEq, Repr

/-- A PTP message (R464). Times in ps; a Sync carries its arrival, and its origin when it is one-step; `dataset`: priority 1,
clock class, accuracy, variance, priority 2, identity, steps removed; `inaccuracy`: of the C37.238 TLV, in ns. -/
inductive PtpMsg where
  | announce (domain : BitVec 8) (id : BitVec 64) (dataset : List Nat) (inaccuracy : Nat) (utc : Option Int) (leap : Fin 3)
  | sync (domain : BitVec 8) (id : BitVec 64) (arrival : Int) (origin : Option Int)
  | followUp (domain : BitVec 8) (id : BitVec 64) (origin : Int)
  | pdelayReq
  | pdelayDone (delay : Int)
  | other
  deriving DecidableEq, Repr

/-- An IRIG-B frame as decoded (R468): seconds in the year, year if the format carries one, and of the control-function bits
the leap second (0 none, 1 insertion, 2 deletion), the local offset in s, the time-quality code. -/
structure IrigLabel where
  second : Nat
  year : Option Nat
  leap : Fin 3
  localOffset : Int
  quality : Fin 16
  deriving DecidableEq, Repr

/-- What a flash write carries: a committed safety configuration, an image, a life checkpoint. -/
inductive FlashJob where
  | config | image | checkpoint
  deriving DecidableEq, Repr

/-- What a SYNC frame of a join carries (R419): a ledger slot with its entries of R250 (64 words, h of the lists of S−1, S−2
and S−3, the level at the end), or the derating state of a limb. -/
inductive SyncData where
  | slot (cell : Fin 2048) (words : List W32)
  | limb (l : Fin 48) (k since below : Nat) (hot : W32)
  deriving DecidableEq, Repr

/-- A GOOSE frame as decoded (R356): destination MAC, APPID, gocbRef as bytes, confRev, flags, numbers, allData (none: a member
that is no BOOLEAN), and the source and sequence number of a PRP trailer. -/
structure GooseMsg where
  dest : BitVec 48
  appid : BitVec 16
  gocbRef : List (BitVec 8)
  confRev : W32
  ndsCom : Bool
  sim : Bool
  stNum : W32
  sqNum : W32
  members : List (Option Bool)
  ttl : W32
  prp : Option (BitVec 48 × BitVec 16)
  deriving DecidableEq, Repr


/-- The commands. -/
inductive Instr where
  /-- HOST_BLOCK_SET (R532). A write to HOST_BLOCK with KEY 0xB10C and REQ = 1 sets REQ, which makes trip-matrix input 64 active. -/
  | hostBlockSet (key : BitVec 16)
  /-- HOST_BLOCK_CLEAR (R532). A write to HOST_BLOCK with KEY 0xB10C and REQ = 0 clears REQ, WDOG_TRIP and LINK_TRIP and releases input 64 only. -/
  | hostBlockClear (key : BitVec 16)
  /-- HOST_WDOG_WRITE (R533). A write to HOST_WDOG sets PERIOD and LINK_ARM and restarts the watchdog. -/
  | hostWdogWrite (v : W32)
  /-- HOST_KICK (R533). Any write to HOST_KICK restarts the host watchdog. -/
  | hostKick
  /-- HOST_WDOG_EXPIRY (R533). PERIOD ms pass without a kick, and the device sets REQ and WDOG_TRIP. -/
  | hostWdogExpiry
  /-- PCIE_LINK_DOWN (R546). A PCIe hot reset or link-down ends the session, clears EVRING_CTL.EN, ends bulk commands with ST_DMA_FAULT and, with LINK_ARM = 1, sets REQ and LINK_TRIP. -/
  | pcieLinkDown
  /-- MBX_DOORBELL (R534). A write to MBX_DOORBELL hands the request in each named mailbox to the Coach, or is ignored and counted in DB_ERR when BUSY or DONE is set. -/
  | mbxDoorbell (ring : BitVec 8) (requests : List (List W32))
  /-- MBX_DONE_CLEAR (R534). A host write of 1 to a bit of MBX_DONE frees that mailbox for the next request. -/
  | mbxDoneClear (mask : BitVec 8)
  /-- EVRING_ENABLE (R540). A write of 1 to EVRING_CTL.EN enables the event ring and sets HEAD and TAIL to 0. -/
  | evringEnable
  /-- EVRING_TAIL_WRITE (R540). The host advances EVRING_TAIL as it consumes records, returning room to the ring. -/
  | evringTailWrite (tail : W32)
  /-- REGISTER_WRITE (R9). A write to a direct register without a row of its own stores or ignores the value by its access code. -/
  | registerWrite (offset : BitVec 12) (v : W32)
  /-- EVENT_RING_WRITE (R540). When the ring has room, the device drains the on-die queues in class priority and writes one 64-byte record at HEAD. -/
  | eventRingWrite
  /-- EVENT_COALESCE_TIMEOUT (R540). COAL_T × 10 µs after the first unsignalled record, the device raises MSI-X vector 0. -/
  | eventCoalesceTimeout
  /-- BULK_TRANSFER_DONE (R544). A bulk DMA transfer completes and the command responds with the byte count and CRC-32, or ST_DMA_FAULT on a PCIe error. -/
  | bulkTransferDone (channel : Fin 4) (error : Bool) (list : List (W64 × W32 × W32))
  /-- INDIRECT_ARGS_FETCHED (R536). The device finishes reading the indirect arguments by DMA and executes the command. -/
  | indirectArgsFetched (mbx : Fin 8) (args : List W32)
  /-- SESSION_OPEN (R546). The command opens a host session, or forces out the old one, and returns the offered features. -/
  | sessionOpen (h : Hdr) (args : List W32)
  /-- SESSION_ACCEPT (R546). The command locks the accepted feature set or refuses it with ST_FEATURE. -/
  | sessionAccept (h : Hdr) (args : List W32)
  /-- SESSION_CLOSE (R546). The command ends the host session. -/
  | sessionClose (h : Hdr)
  /-- CFG_WRITE (R549). The command writes one configuration structure entry, effective at once or at a named boundary. -/
  | cfgWrite (h : Hdr) (args : List W32)
  /-- CFG_READ (R549). The command returns the running entry, or the staged or pending entry. -/
  | cfgRead (h : Hdr) (args : List W32)
  /-- HOST_VAR_WRITE (R226). The command writes host exchange variables that become visible together at one freeze. -/
  | hostVarWrite (h : Hdr) (vars : List (W32 × W32))
  /-- ENDPOINT_WRITE (R110). The command queues a setpoint write to a cell's endpoint slot. -/
  | endpointWrite (h : Hdr) (address value : W32)
  /-- LEDGER_COOLANT (R265). The command reports a coolant loop's temperature and R_SCALE to the ledger unit. -/
  | ledgerCoolant (h : Hdr) (loop temp scale : W32)
  /-- POWER_CAP (R515). The command grants a device power cap, shedding as needed, or refuses it with ST_POWER_CAP. -/
  | powerCap (h : Hdr) (cap : W32)
  /-- PMU_NAMES (R484). The command sets the station and channel names of the phasor streams. -/
  | pmuNames (h : Hdr) (stream : Fin 2) (names : List W32)
  /-- MODE_REQUEST (R287). The command checks a mode request against Table 8-3 and makes it pending for its boundary. -/
  | modeRequest (h : Hdr) (args : List W32)
  /-- SYNCHECK_START (R321). The command starts a synchronism check of the LV side. -/
  | syncheckStart (h : Hdr)
  /-- CHAIN_ENUMERATE (R88). The command re-enumerates a HELD chain. -/
  | chainEnumerate (h : Hdr) (port : Fin 32)
  /-- PORT_RETRAIN (R145). The command restarts the training of a port. -/
  | portRetrain (h : Hdr) (port : Fin 32)
  /-- CELL_INTEGRATE (R116). The command integrates a BLOCKED cell by sending its next list with INTEGRATE set, or refuses it. -/
  | cellIntegrate (h : Hdr) (cell : Fin 2048)
  /-- CELL_BYPASS (R115). The command sends NOLIST to a cell and writes BYPASS_CMD = 1. -/
  | cellBypass (h : Hdr) (cell : Fin 2048)
  /-- CELL_UNBYPASS (R115). The command writes BYPASS_CMD = 0 to a bypassed cell that meets the conditions, or ends with ST_NOT_READY. -/
  | cellUnbypass (h : Hdr) (cell : Fin 2048)
  /-- PROT_CLEAR_COMP (R349). PROT_CLEAR with TARGET 0 clears the named comparator latches whose cause is gone. -/
  | protClearComp (h : Hdr) (rsv : BitVec 29) (lo hi : W32)
  /-- PROT_CLEAR_LEG (R349). PROT_CLEAR with TARGET 1 clears the named leg short-circuit latches whose detectors read safe. -/
  | protClearLeg (h : Hdr) (rsv : BitVec 29) (lo hi : W32)
  /-- PROT_CLEAR_MATRIX (R350). PROT_CLEAR with TARGET 2 clears both trip-matrix copies in SAFE or SERVICE when no mapped input is active. -/
  | protClearMatrix (h : Hdr) (rsv : BitVec 29) (lo hi : W32)
  /-- PROT_CLEAR_CELL (R351). PROT_CLEAR with TARGET 3 writes FAULT_CLEAR to a cell and waits for its record. -/
  | protClearCell (h : Hdr) (rsv : BitVec 29) (lo hi : W32)
  /-- PROT_CLEAR_CELL_RESULT (R351). The first record 2 to 8 strides after the FAULT_CLEAR write, or the lack of one, ends the command. -/
  | protClearCellResult (cell : Fin 2048)
  /-- SPB_RESET (R429). The command clears a standing safe-block demand when both channels read high. -/
  | spbReset (h : Hdr)
  /-- SAFETY_ARM (R432). The command arms each safety output in use by the sequence of Table 12-2. -/
  | safetyArm (h : Hdr)
  /-- SAFETY_ARM_STEP (R432). One timed step of the arming sequence ends and its current check passes or fails. -/
  | safetyArmStep (current : Nat)
  /-- SAFETY_DISARM (R432). The command opens and disarms the safety outputs. -/
  | safetyDisarm (h : Hdr)
  /-- SAFETY_DEGR_CLEAR (R441). The command clears each named degradation bit whose cause has gone. -/
  | safetyDegrClear (h : Hdr) (mask : W32)
  /-- DRIVE_RESET (R383). The command returns a drive from FAULT to OFF and clears its recovery count. -/
  | driveReset (h : Hdr) (drive : Fin 4)
  /-- TELEM_READ (R550). The command returns status items as they stood at one boundary. -/
  | telemRead (h : Hdr) (args : List W32)
  /-- ENDPOINT_READ (R25). The command returns endpoint values from the chain manager's endpoint image. -/
  | endpointRead (h : Hdr) (addresses : List W32)
  /-- RING_READ (R545). The command returns telemetry records from the full-rate ring by bulk transfer. -/
  | ringRead (h : Hdr) (first count : Nat) (cell cells : Nat)
  /-- LOG_READ (R543). The command returns event-log records of a SEQ range. -/
  | logRead (h : Hdr) (first : W32) (count : Nat)
  /-- PROT_AV_READ (R360). The command returns the reporter bitmap of an avalanche. -/
  | protAvRead (h : Hdr) (id : W32)
  /-- SNAPSHOT_REQUEST (R553). The command schedules a snapshot of named chains and parts at a boundary. -/
  | snapshotRequest (h : Hdr) (args : List W32)
  /-- SNAPSHOT_CANCEL (R553). The command ends a pending or assembling snapshot with RESULT 2. -/
  | snapshotCancel (h : Hdr) (snapId : W32)
  /-- SNAPSHOT_LIST (R555). The command returns the header words of each snapshot slot. -/
  | snapshotList (h : Hdr)
  /-- SNAPSHOT_READ (R555). The command returns a snapshot record by bulk transfer. -/
  | snapshotRead (h : Hdr) (snapId : W32) (offset length : Nat)
  /-- REC_TRIGGER (R497). The command triggers a recording of kind 6. -/
  | recTrigger (h : Hdr)
  /-- REC_LIST (R498). The command returns the record headers held in the store. -/
  | recList (h : Hdr)
  /-- REC_READ (R498). The command returns a stored record or its high-speed window by bulk transfer. -/
  | recRead (h : Hdr) (recId part : W32)
  /-- TW_EVENT_READ (R494). The command returns a traveling-wave event with its arrivals and samples. -/
  | twEventRead (h : Hdr) (twId : W32)
  /-- TW_REMOTE (R493). The command delivers a remote terminal's tag for double-ended location. -/
  | twRemote (h : Hdr) (args : List W32)
  /-- TIME_STEP (R458). The command schedules a step of the TAI counter at a boundary in SAFE. -/
  | timeStep (h : Hdr) (boundary : Nat) (delta : Option Int)
  /-- PAIR_FEED (R392). The command sets FEED_AUTO and FEED_MASK. -/
  | pairFeed (h : Hdr) (auto : Bool) (mask : W32)
  /-- PAIR_TAKE_LEAD (R416). The command makes a NONE unit lead unless another lead or running cells are seen. -/
  | pairTakeLead (h : Hdr)
  /-- PAIR_JOIN (R417). The command starts a relay's join into step at a boundary. -/
  | pairJoin (h : Hdr) (boundary : Nat) (peerAlign : Bool) (peerMeas : List W32)
  /-- PAIR_LEAVE (R420). The command sets a partner or relay to NONE, or on a lead in SAFE or SERVICE leaves the pair. -/
  | pairLeave (h : Hdr)
  /-- PAIR_HANDOVER (R420). The command makes a covered lead relinquish at a named boundary. -/
  | pairHandover (h : Hdr) (boundary : Nat)
  /-- PAIR_EPOCH_RESET (R394). The command sets the stored epoch to 0 when both units are NONE and silent. -/
  | pairEpochReset (h : Hdr)
  /-- CARVE_LOAD (R234). The command verifies and writes an admitted Carve image into the standby banks of named engines. -/
  | carveLoad (h : Hdr) (slot : Fin 32) (engines : List (Fin 272))
  /-- CARVE_SWAP (R235). The command schedules a bank swap of named engines at a boundary. -/
  | carveSwap (h : Hdr) (boundary : Nat) (engines : List (Fin 272)) (keepState : Bool)
  /-- IMAGE_WRITE (R564). The command verifies a signed image and writes it to flash. -/
  | imageWrite (h : Hdr) (kind slot : BitVec 8) (image : List W32)
  /-- IMAGE_ACTIVATE (R567). The command activates a stored image of a kind by Table 17-9. -/
  | imageActivate (h : Hdr) (kind : BitVec 8) (bank : Bool) (rsv : BitVec 14) (boundary : Nat)
  /-- IMAGE_CONFIRM (R568). IMAGE_ACTIVATE with CONFIRM = 1 ends the trial of the running image. -/
  | imageConfirm (h : Hdr) (kind : BitVec 8) (rsv : BitVec 14)
  /-- SVN_COMMIT (R571). IMAGE_ACTIVATE with COMMIT_SVN = 1 blows anti-rollback fuses up to SVN. -/
  | svnCommit (h : Hdr) (svn : BitVec 7) (rsv : BitVec 14) (readBack : Fin 65)
  /-- IMAGE_STATUS (R566). The command returns the stored images of a kind. -/
  | imageStatus (h : Hdr) (kind : BitVec 8)
  /-- ATTEST_REPORT (R573). The command returns a signed attestation report over a nonce. -/
  | attestReport (h : Hdr) (nonce : List W32)
  /-- CERT_READ (R572). The command returns one of the device's certificates. -/
  | certRead (h : Hdr) (index : W32)
  /-- DEBUG_CHALLENGE (R578). DEBUG_AUTHORIZE with OP = 0 returns a fresh 32-byte challenge. -/
  | debugChallenge (h : Hdr)
  /-- DEBUG_AUTHORIZE (R578). DEBUG_AUTHORIZE with OP = 1 verifies a debug token and opens its scope. -/
  | debugAuthorize (h : Hdr) (image : List W32)
  /-- DEBUG_REVOKE (R579). The command ends an active debug authorization. -/
  | debugRevoke (h : Hdr)
  /-- DEBUG_EXPIRY (R579). A debug authorization reaches its DURATION and ends. -/
  | debugExpiry
  /-- SAFE_CFG_SETPW (R444). The command sets the first safety-configuration password. -/
  | safeCfgSetpw (h : Hdr) (password : List (BitVec 8))
  /-- SAFE_CFG_OPEN (R444). The command opens a safety-configuration session on a staged copy, or counts a failure. -/
  | safeCfgOpen (h : Hdr) (password : List (BitVec 8)) (label : List W32)
  /-- SAFE_CFG_WRITE (R444). The command writes entries into the staged safety configuration. -/
  | safeCfgWrite (h : Hdr) (args : List W32)
  /-- SAFE_CFG_PW (R444). The command replaces the password within a session. -/
  | safeCfgPw (h : Hdr) (password : List (BitVec 8))
  /-- SAFE_CFG_COMMIT (R446). The command writes the staged section to both banks and appends a change-log entry. -/
  | safeCfgCommit (h : Hdr)
  /-- SAFE_CFG_ABORT (R444). The command discards the staged copy and closes the session. -/
  | safeCfgAbort (h : Hdr)
  /-- SAFE_LOG_READ (R448). The command returns change-log entries by SEQ. -/
  | safeLogRead (h : Hdr) (first : W64) (count : Nat)
  /-- SAFE_CFG_SESSION_TIMEOUT (R444). A session closes after 600 s without a command. -/
  | safeCfgSessionTimeout
  /-- SAFE_CFG_LOCKOUT_END (R447). The SAFE_CFG_OPEN lockout period expires. -/
  | safeCfgLockoutEnd
  /-- COMP_SELFTEST (R361). The command starts threshold sweeps of named comparators in SERVICE. -/
  | compSelftest (h : Hdr) (channels : List (Fin 48 × Option (Fin 1024 × Fin 1024)))
  /-- COMP_SELFTEST_CHANNEL_DONE (R361). The sweep of one channel finishes, the channel is judged and re-armed, and the next starts. -/
  | compSelftestChannelDone (cha chr cla clr : Option (Fin 1024))
  /-- DRIVE_KE_CHECK (R387). The command starts one catch window on a running drive to measure KE. -/
  | driveKeCheck (h : Hdr) (drive : Fin 4)
  /-- RESOLVER_OFFSET (R381). The command finds the commissioning offset of a pump's resolver. -/
  | resolverOffset (h : Hdr) (drive : Fin 4) (found : W32)
  /-- LEDGER_CHECKPOINT (R279). The command writes a life checkpoint to flash. -/
  | ledgerCheckpoint (h : Hdr)
  /-- LEDGER_RESTORE (R282). The command sets the LIFE values of one POS to host values. -/
  | ledgerRestore (h : Hdr) (cell : Fin 2048) (serial : BitVec 64) (life : List (BitVec 64))
  /-- SUPPLY_LOG_READ (R513). The command returns the dip records. -/
  | supplyLogRead (h : Hdr)
  /-- UNKNOWN_OPCODE (R548). A request with an opcode not in Table 16-8 ends with ST_UNKNOWN_OP. -/
  | unknownOpcode (h : Hdr) (opcode : BitVec 16)
  /-- NOP (R213). Carve instruction that does nothing for one cycle. -/
  | cvNop (e : Fin 272) (f : FmtR)
  /-- FADD (R213). Carve instruction adding two binary32 registers. -/
  | cvFadd (e : Fin 272) (f : FmtR)
  /-- FSUB (R213). Carve instruction subtracting binary32 registers. -/
  | cvFsub (e : Fin 272) (f : FmtR)
  /-- FMUL (R213). Carve instruction multiplying binary32 registers. -/
  | cvFmul (e : Fin 272) (f : FmtR)
  /-- FMA (R213). Carve instruction of fused multiply-add. -/
  | cvFma (e : Fin 272) (f : FmtR)
  /-- FMIN (R213). Carve instruction taking the binary32 minimum. -/
  | cvFmin (e : Fin 272) (f : FmtR)
  /-- FMAX (R213). Carve instruction taking the binary32 maximum. -/
  | cvFmax (e : Fin 272) (f : FmtR)
  /-- FABS (R213). Carve instruction taking the absolute value. -/
  | cvFabs (e : Fin 272) (f : FmtR)
  /-- FNEG (R213). Carve instruction negating a value. -/
  | cvFneg (e : Fin 272) (f : FmtR)
  /-- FRCP (R213). Carve instruction taking the reciprocal. -/
  | cvFrcp (e : Fin 272) (f : FmtR)
  /-- FSQRT (R213). Carve instruction taking the square root. -/
  | cvFsqrt (e : Fin 272) (f : FmtR)
  /-- FCMP (R213). Carve instruction comparing binary32 values into a predicate. -/
  | cvFcmp (e : Fin 272) (f : FmtR)
  /-- IADD (R213). Carve instruction of saturating integer addition. -/
  | cvIadd (e : Fin 272) (f : FmtR)
  /-- ISUB (R213). Carve instruction of saturating integer subtraction. -/
  | cvIsub (e : Fin 272) (f : FmtR)
  /-- IADDW (R213). Carve instruction of wrapping integer addition. -/
  | cvIaddw (e : Fin 272) (f : FmtR)
  /-- ISUBW (R213). Carve instruction of wrapping integer subtraction. -/
  | cvIsubw (e : Fin 272) (f : FmtR)
  /-- IMULQ (R213). Carve instruction of fixed-point multiplication with rounding shift. -/
  | cvImulq (e : Fin 272) (f : FmtR)
  /-- ISHL (R213). Carve instruction of saturating left shift. -/
  | cvIshl (e : Fin 272) (f : FmtR)
  /-- ISHR (R213). Carve instruction of arithmetic right shift. -/
  | cvIshr (e : Fin 272) (f : FmtR)
  /-- AND (R213). Carve instruction of bitwise and. -/
  | cvAnd (e : Fin 272) (f : FmtR)
  /-- OR (R213). Carve instruction of bitwise or. -/
  | cvOr (e : Fin 272) (f : FmtR)
  /-- XOR (R213). Carve instruction of bitwise exclusive or. -/
  | cvXor (e : Fin 272) (f : FmtR)
  /-- ICMP (R213). Carve instruction of signed integer comparison. -/
  | cvIcmp (e : Fin 272) (f : FmtR)
  /-- UCMP (R213). Carve instruction of unsigned integer comparison. -/
  | cvUcmp (e : Fin 272) (f : FmtR)
  /-- FTOI (R213). Carve instruction converting binary32 to fixed point. -/
  | cvFtoi (e : Fin 272) (f : FmtR)
  /-- ITOF (R213). Carve instruction converting fixed point to binary32. -/
  | cvItof (e : Fin 272) (f : FmtR)
  /-- SINCOS (R213). Carve instruction computing sine and cosine of an angle. -/
  | cvSincos (e : Fin 272) (f : FmtR)
  /-- ATAN2 (R213). Carve instruction computing the angle of a point. -/
  | cvAtan2 (e : Fin 272) (f : FmtR)
  /-- SEL (R213). Carve instruction selecting by predicate. -/
  | cvSel (e : Fin 272) (f : FmtR)
  /-- PAND (R213). Carve instruction of predicate and. -/
  | cvPand (e : Fin 272) (f : FmtR)
  /-- POR (R213). Carve instruction of predicate or. -/
  | cvPor (e : Fin 272) (f : FmtR)
  /-- PNOT (R213). Carve instruction of predicate not. -/
  | cvPnot (e : Fin 272) (f : FmtR)
  /-- LSUM (R213). Carve instruction summing a register over enabled lanes. -/
  | cvLsum (e : Fin 272) (f : FmtR)
  /-- LMAX (R213). Carve instruction taking a maximum over enabled lanes. -/
  | cvLmax (e : Fin 272) (f : FmtR)
  /-- LMIN (R213). Carve instruction taking a minimum over enabled lanes. -/
  | cvLmin (e : Fin 272) (f : FmtR)
  /-- LGET (R213). Carve instruction reading a register of one lane. -/
  | cvLget (e : Fin 272) (f : FmtR)
  /-- LD (R213). Carve instruction loading a lane-memory word. -/
  | cvLd (e : Fin 272) (f : FmtM)
  /-- ST (R213). Carve instruction storing a lane-memory word, redirected in a shadow law. -/
  | cvSt (e : Fin 272) (f : FmtM)
  /-- LDC (R213). Carve instruction loading a constant word of the active bank. -/
  | cvLdc (e : Fin 272) (f : FmtM)
  /-- XLD (R213). Carve instruction loading an exchange mirror word. -/
  | cvXld (e : Fin 272) (f : FmtM)
  /-- XOK (R225). Carve instruction testing the freshness of a mirror word. -/
  | cvXok (e : Fin 272) (f : FmtM)
  /-- XLDL (R213). Carve instruction loading a mirror word indexed by lane. -/
  | cvXldl (e : Fin 272) (f : FmtM)
  /-- INTG (R216). Carve instruction stepping an integrator with anti-windup. -/
  | cvIntg (e : Fin 272) (f : FmtR)
  /-- LIM (R217). Carve instruction limiting a supervised output and setting SAT_DIR. -/
  | cvLim (e : Fin 272) (f : FmtR)
  /-- BUMP (R240). Carve instruction tracking or preloading an integrator for hand-over. -/
  | cvBump (e : Fin 272) (f : FmtR)
  /-- BUMPO (R240). Carve instruction preloading an output ramp for hand-over. -/
  | cvBumpo (e : Fin 272) (f : FmtR)
  /-- POST (R213). Carve instruction writing the post buffer of a summit engine. -/
  | cvPost (e : Fin 272) (f : FmtM)
  /-- PUBLISH (R229). Carve instruction releasing the post buffer to the fabric and updating SAT_RUN and ramps. -/
  | cvPublish (e : Fin 272) (f : FmtR)
  /-- COMMIT (R228). Carve instruction handing the CMD words to the commit bus and updating SAT_RUN and ramps. -/
  | cvCommit (e : Fin 272) (f : FmtR)
  /-- STRIDE_BOUNDARY (R47). The TAI counter reaches a boundary and the Summit die starts stride S at cycle 0. -/
  | strideBoundary
  /-- MIRROR_FREEZE (R223). In the first cycle of its window an engine copies subscribed mirror words to the front copy. -/
  | mirrorFreeze (engine : Fin 272)
  /-- SUMMIT_WINDOW_START (R232). At cycle 2,000 each summit engine starts its sections of limb and station laws. -/
  | summitWindowStart
  /-- SQUAD_WINDOW_START (R232). At cycle 2,560 each squad engine starts its sections of cell laws. -/
  | squadWindowStart
  /-- SECTION_START (R209). The sequencer cycle before a section clears registers and writes LANE_INFO. -/
  | sectionStart (engine : Fin 272)
  /-- CLOSING_ROUND_POST (R31). Each squad posts its limb partials in its owned fabric cycles. -/
  | closingRoundPost (squad : Fin 32)
  /-- REFERENCE_SLOTS (R31). The fabric delivers each summit engine's post buffer in its reference slots and then sets its LIMB_REF words to NaN. -/
  | referenceSlots (k : Fin 16)
  /-- FABRIC_BACKGROUND_CYCLE (R32). A background fabric cycle serves one user in weighted round robin. -/
  | fabricBackgroundCycle (coach ledger snapshot : Bool) (carve : Option (Fin 272 × Fin 1024)) (weights : Option Weights)
  /-- COMMIT_TAKE (R55). At cycle 3,200 the Summit die commits the outputs of all squad engines that issued COMMIT. -/
  | commitTake
  /-- DEADLINE_MISS (R68). An engine has not delivered by its last cycle; its outputs are discarded and NOLIST written. -/
  | deadlineMiss (engine : Fin 272)
  /-- SLALOM_BUILD (R163). Between cycles 3,200 and 3,439 Slalom builds every edge list from committed outputs, references and ledgers. -/
  | slalomBuild
  /-- SLALOM_OVERRUN (R198). A limb's buffers are not complete by cycle 3,439, so its cells get NOLIST and its residual is reset. -/
  | slalomOverrun (limb : Fin 48)
  /-- LEDGER_STEP (R251). The ledger unit does the volt-second, loss, thermal, life, identification, stress and derating work of a stride. -/
  | ledgerStep
  /-- E_PRED_UPDATE (R253). The ledger unit computes E_PRED of every cell in the squad-engine window. -/
  | ePredUpdate
  /-- LEDGER_HISTORY_PERIOD (R278). At the end of each history period the ledger unit writes one history set. -/
  | ledgerHistoryPeriod
  /-- LIFE_CHECKPOINT_DUE (R279). Every LIFE_CKPT minutes the Coach writes a life checkpoint. -/
  | lifeCheckpointDue
  /-- COOLANT_TIMEOUT (R265). No LEDGER_COOLANT arrives for a loop within COOL_TIMEOUT and fail values apply. -/
  | coolantTimeout (loop : Fin 4)
  /-- LOCAL_LEG_FRAME_SEND (R57). The Summit die completes the local-leg frame of stride S to Patrol by S+9.0 µs. -/
  | localLegFrameSend (edges setpoints : List W32) (resolvers : List (Option (W32 × W32)))
  /-- LOCAL_LEG_FRAME (R369). Patrol receives a local-leg frame and checks its edges, setpoints, writes and trip requests. -/
  | localLegFrame
  /-- LOCAL_LEG_FRAME_MISSING (R57). A frame is missing or fails CRC by S+9.0 µs and Patrol repeats the previous edges. -/
  | localLegFrameMissing
  /-- SUMMIT_LOST (R42). Patrol declares the Summit die lost and blocks, drops EN, opens outputs and resets the die by role. -/
  | summitLost
  /-- SUMMIT_RESET_RELEASE (R475). Patrol releases the Summit die from reset 1 ms after asserting it when REFCLK is present. -/
  | summitResetRelease
  /-- PATROL_BOUNDARY (R57). At each boundary Patrol loads the local-leg edges of the previous stride and clears stride latches. -/
  | patrolBoundary
  /-- PATROL_STATUS_FRAME (R22). The Summit die receives Patrol's status frame of a stride. -/
  | patrolStatusFrame (crcOk : Bool)
  /-- PATROL_LOST (R44). Two status frames missing: the Summit die blocks every lane and enters SAFE. -/
  | patrolLost
  /-- SENSE_LOST (R45). No samples arrive from the Sense die for 2 strides; the device blocks and enters SAFE. -/
  | senseLost
  /-- SENSE_SAMPLES (R479). Sense samples arrive on the bridge and are corrected and written to exchange words and rings. -/
  | senseSamples (prec : List (List (BitVec 18))) (high : List (List (BitVec 16)))
  /-- COACH_LOCKSTEP_MISMATCH (R45). The Coach comparator detects a mismatch and the Coach restarts. -/
  | coachLockstepMismatch
  /-- COACH_RESTART_DONE (R538). The Coach finishes restarting, accepts held doorbells and raises EV_COACH_RESTART. -/
  | coachRestartDone (failed : BitVec 2)
  /-- DDR_UNCORRECTABLE (R37). The memory controller finds an uncorrectable error and the device reacts by region. -/
  | ddrUncorrectable (address : BitVec 33) (lo hi : Fin 3) (record : W32)
  /-- ENGINE_ECC_UNCORRECTABLE (R245). An uncorrectable engine memory error in the window is handled as a deadline miss. -/
  | engineEccUncorrectable (engine : Fin 272) (cycle : Fin 640)
  /-- ENGINE_SCRUB (R245). The scrubber reads both banks of an engine every 1,000 strides and marks a bad standby bank invalid. -/
  | engineScrub (engine : Fin 272) (corrected : Nat) (bankBad : Option Bool)
  /-- BLOCK_LINE_ASSERT (R19). A block line asserts and each inserter starts BLOCK at the next slot of its lane. -/
  | blockLineAssert (copy : Fin 2)
  /-- BLOCK_LINE_RELEASE (R140). The block lines release and interrupted frames resume. -/
  | blockLineRelease
  /-- UPLINK_RECORD (R33). A link engine receives a cell's telemetry record and writes it to lane slot, image, ring, ledger and partials. -/
  | uplinkRecord (cell : Fin 2048) (payload : BitVec 56) (skip : Nat) (record : List W32) (cycle : Nat)
  /-- RECORD_MISSING (R64). A record is not complete by cycle 2,560 and the lane slot keeps the stale record. -/
  | recordMissing (cell : Fin 2048)
  /-- CELL_SILENT (R64). A cell's records are missing for L strides and EV_CELL_SILENT is raised. -/
  | cellSilent (cell : Fin 2048)
  /-- UPLINK_LATE (R65). A chain has late or missing records for LATE_EVENT strides and EV_UPLINK_LATE is raised. -/
  | uplinkLate (port : Fin 32)
  /-- BYPASS_TIMEOUT (R115). 100 strides pass in BYPASSING without BYPASSED = 1. -/
  | bypassTimeout (cell : Fin 2048)
  /-- UNBYPASS_TIMEOUT (R115). 100 strides pass in UNBYPASSING and the command ends with ST_TIMEOUT. -/
  | unbypassTimeout (cell : Fin 2048)
  /-- DOWNLINK_SEND (R132). From S+8.6 µs the link engine sends STRIDE and the downlink frame of the chain. -/
  | downlinkSend (port : Fin 32) (offset : BitVec 18)
  /-- LAYOUT_SEND (R134). The head unit sends LAYOUT service frames at READY, on change and every 1,000 strides. -/
  | layoutSend (port : Fin 32)
  /-- SETPOINT_SEND (R110). The chain manager sends at most one setpoint write per chain per stride. -/
  | setpointSend (port : Fin 32)
  /-- SNAPSHOT_AT_SEND (R553). The chain manager sends SNAPSHOT-AT with downlinks from B−67 to B−4. -/
  | snapshotAtSend (port : Fin 32) (inTime : Bool)
  /-- MEASURE_SEND (R154). At S+5.0 µs a unit sends one MEASURE of its sweep. -/
  | measureSend (port : Fin 32) (t1 : Nat)
  /-- ECHO_RECEIVED (R156). A unit receives ECHO and computes the round trip and one-way delay. -/
  | echoReceived (port : Fin 32) (payload : BitVec 56) (t4 : Nat)
  /-- ECHO_TIMEOUT (R156). No ECHO returns within 4.0 µs and the measurement is discarded. -/
  | echoTimeout (port : Fin 32)
  /-- ENUM_SEGMENT (R88). The chain manager receives an enumeration segment and checks the chain when complete. -/
  | enumSegment (cell : Fin 2048) (payload : BitVec 56) (skip : Nat) (words : List W32)
  /-- SNAPSHOT_SEGMENT (R114). The chain manager takes the first valid copy of a snapshot segment. -/
  | snapshotSegment (cell : Fin 2048) (payload : BitVec 56) (skip : Nat) (values : List W32)
  /-- ENUM_TIMEOUT (R88). Segments are incomplete 200 strides after link-up and EV_ENUM_TIMEOUT is raised. -/
  | enumTimeout (port : Fin 32)
  /-- ENUM_RETRY (R88). 1,000 strides after a timeout the chain manager re-sends enumeration. -/
  | enumRetry (port : Fin 32)
  /-- SNAPSHOT_UPLOAD_CLOSE (R556). At B + 2n + 1 the chain manager closes the upload and marks missing segments. -/
  | snapshotUploadClose (port : Fin 32) (snapId : W32)
  /-- SNAPSHOT_LATCH (R554). At boundary B the hub latches ledger slots and lane memories by copy-on-write. -/
  | snapshotLatch
  /-- SNAPSHOT_ASSEMBLED (R554). The assembler finishes the record, sets COMPLETE and raises EV_SNAPSHOT. -/
  | snapshotAssembled (snapId : W32)
  /-- CALIBRATION_SWITCH (R51). At boundary B the standby calibration becomes running. -/
  | calibrationSwitch
  /-- CARVE_BANK_SWAP (R235). At boundary B named engines make their standby bank active. -/
  | carveBankSwap
  /-- MODE_CHANGE (R287). At boundary B a pending mode request is checked again and takes effect or is refused. -/
  | modeChange
  /-- CONFIG_AT_BOUNDARY (R549). A configuration entry with a boundary takes effect at B. -/
  | configAtBoundary
  /-- CELL_POWER_UP (R84). A cell terminal gains power, comes up BLOCKED and starts training. -/
  | cellPowerUp (cell : Fin 2048) (serial : BitVec 64) (firmware : W32) (asym : W32) (desc : List W32) (ranges : List (Option (W32 × W32)))
  /-- CELL_BOUNDARY (R71). At each of its boundaries a cell executes an accepted list or moves along the coast ladder. -/
  | cellBoundary (cell : Fin 2048) (samples : List (Fin 128 × W32)) (hot cause : Bool) (fault : Option (Fin 5 × Fin 125000))
  /-- CELL_BLOCK (R105). A cell receives BLOCK and turns all switches off within 50 ns. -/
  | cellBlock (cell : Fin 2048) (octet : BitVec 8)
  /-- CELL_DOWNLINK_FRAME (R70). A cell receives a downlink frame and judges its sub-list for acceptance. -/
  | cellDownlinkFrame (cell : Fin 2048) (fromT : Bool) (payload : BitVec 56) (words : List W32) (early : Bool)
  /-- CELL_STRIDE_BLOCK (R160). A cell receives STRIDE on its timing port and corrects its boundary. -/
  | cellStrideBlock (cell : Fin 2048) (fromT : Bool) (payload : BitVec 56) (arrival : Int)
  /-- CELL_MEASURE (R155). A cell receives MEASURE, answers ECHO if targeted and stores D_PREV. -/
  | cellMeasure (cell : Fin 2048) (fromT : Bool) (payload : BitVec 56) (turn : Nat)
  /-- CELL_ENUM (R86). A cell receives ENUM at its H port, takes POS and L and forwards it. -/
  | cellEnum (cell : Fin 2048) (fromT : Bool) (payload : BitVec 56)
  /-- CELL_SETPOINT_WRITE (R110). A cell receives a setpoint service frame and applies it at the next boundary. -/
  | cellSetpointWrite (cell : Fin 2048) (payload : BitVec 56) (value : W32)
  /-- CELL_LAYOUT (R134). A cell receives a LAYOUT service frame and stores its offset and length. -/
  | cellLayout (cell : Fin 2048) (payload : BitVec 56) (value : W32)
  /-- CELL_SNAPSHOT_AT (R112). A cell receives SNAPSHOT-AT and prepares to latch at B. -/
  | cellSnapshotAt (cell : Fin 2048) (payload : BitVec 56)
  /-- CELL_SNAPSHOT_LATCH (R112). At boundary B a cell latches all mapped slots and sets SNAP_PENDING. -/
  | cellSnapshotLatch (cell : Fin 2048)
  /-- CELL_SEGMENT_SEND (R111). A cell sends one enumeration or snapshot segment per stride. -/
  | cellSegmentSend (cell : Fin 2048)
  /-- CELL_RECORD_SEND (R108). A cell sends its telemetry record in both directions by S+0.15 µs. -/
  | cellRecordSend (cell : Fin 2048)
  /-- CELL_SHORT_CIRCUIT (R106). A cell detects a short circuit, turns off and latches the fault. -/
  | cellShortCircuit (cell : Fin 2048) (switch : Fin 16) (time : Fin 125000)
  /-- CELL_BLOCK_FORWARD (R142). A cell forwards a received block out of its other port at latency F. -/
  | cellBlockForward (cell : Fin 2048) (fromT slip : Bool) (sync : BitVec 2) (field : BitVec 64)
  /-- PORT_RESTART (R145). A port restarts to TRAIN, sends KICK and starts TRAIN_TIMEOUT. -/
  | portRestart (p : PortId)
  /-- BLOCK_LOCK_GAINED (R146). A receiver gains block lock and the port moves from TRAIN to HELLO. -/
  | blockLockGained (p : PortId) (converged : Bool) (headers : List (BitVec 2))
  /-- BLOCK_LOCK_LOST (R148). A receiver loses block lock or signal and the port restarts or searches. -/
  | blockLockLost (p : PortId) (signal : Bool) (headers : List (BitVec 2))
  /-- HELLO_RECEIVED (R147). A port receives HELLO and counts it toward UP. -/
  | helloReceived (p : PortId) (payload : BitVec 56) (sent : Nat)
  /-- KICK_RECEIVED (R148). A port receives KICK; four in a row restart it. -/
  | kickReceived (p : PortId) (payload : BitVec 56)
  /-- EIDLE_RECEIVED (R153). A receiver sees EIDLE and holds its lock with the link UP. -/
  | eidleReceived (p : PortId) (payload : BitVec 56)
  /-- IDLE_EXIT_TIMEOUT (R153). Block lock is not regained within 48 blocks of signal detect. -/
  | idleExitTimeout (p : PortId)
  /-- SIGNAL_DETECTED (R148). A DARK port detects signal and restarts. -/
  | signalDetected (p : PortId)
  /-- TRAIN_TIMEOUT (R148). TRAIN_TIMEOUT expires and the port goes DARK. -/
  | trainTimeout (p : PortId) (signal : Bool)
  /-- DARK_RETRY (R148). After 100 ms in DARK the port restarts. -/
  | darkRetry (p : PortId)
  /-- HELLO_KEEPALIVE (R144). A port in UP sends a keepalive HELLO within 1,024 slots of the last. -/
  | helloKeepalive (p : PortId)
  /-- CONTROL_BLOCK_DISCARD (R128). A receiver discards a control block that fails its check and counts CTRL_ERR. -/
  | controlBlockDiscard (p : PortId) (octet : BitVec 8) (payload : BitVec 56) (data : BitVec 64)
  /-- COMP_ASSERT (R326). A comparator's filtered state asserts and sets its latch, capture, events and matrix input. -/
  | compAssert (comp : Fin 48) (samples : List (BitVec 14)) (offset : Fin 8192)
  /-- COMP_RELEASE (R326). A comparator's filtered state returns to safe. -/
  | compRelease (comp : Fin 48) (samples : List (BitVec 14)) (offset : Fin 8192)
  /-- TRIP_MATRIX_TRIP (R335). A mapped input becomes active and each copy sets TRIPPED and acts by R336. -/
  | tripMatrixTrip (offset : Fin 8192) (copies : BitVec 2)
  /-- BLOCK_BURST_END (R336). The 64-slot block burst ends and the line falls to boundary bursts. -/
  | blockBurstEnd (offset : Fin 8192)
  /-- MATRIX_DISAGREE (R337). The copies differ for more than 16 samples and Patrol forces both tripped. -/
  | matrixDisagree (offset : Fin 8192)
  /-- MATRIX_CRC_CHECK (R337). Once per stride Patrol checks the CRC of each copy's maps. -/
  | matrixCrcCheck (badA badB : Bool)
  /-- LEG_EN_RISE (R343). A leg's EN rises and blanking starts. -/
  | legEnRise (leg : Fin 16) (offset : Fin 8192)
  /-- BLANKING_END (R343). Blanking ends and the SC_TH state is decided. -/
  | blankingEnd (leg : Fin 16) (offset : Fin 8192)
  /-- LEG_HARD_TH (R344). HARD_TH asserts and the leg trips at once. -/
  | legHardTh (leg : Fin 16) (samples : List Bool) (offset : Fin 8192)
  /-- LEG_SC_TH (R343). SC_TH asserts and trips outside blanking. -/
  | legScTh (leg : Fin 16) (samples : List Bool) (offset : Fin 8192)
  /-- CHOP_PERIOD (R353). A hysteretic chopper period or on-time ends while requested. -/
  | chopPeriod (chop : Fin 2) (offset : Fin 8192)
  /-- CHOP_ENERGY_UPDATE (R354). Patrol updates E_ACC each stride and stops the chopper at E_LIMIT. -/
  | chopEnergyUpdate (chop : Fin 2)
  /-- GOOSE_FRAME (R356). A GOOSE frame is matched against subscriptions and sets or clears an intertrip request. -/
  | gooseFrame (port : Fin 4) (f : GooseMsg)
  /-- GOOSE_STALE (R357). timeAllowedToLive expires and a subscription becomes stale. -/
  | gooseStale (sub : Fin 16)
  /-- AVALANCHE_CLOSE (R359). An avalanche window closes and its reports are sorted into roots. -/
  | avalancheClose
  /-- EV_AVALANCHE (R360). At the boundary after the close one EV_AVALANCHE is raised per root. -/
  | evAvalanche
  /-- LEG_CHANGE (R367). Patrol starts a change of a local leg's state on its filter clock. -/
  | legChange (leg : Fin 16) (dst : Fin 3) (offset : Fin 8192)
  /-- LEG_ON_DEFERRED (R368). A delayed on-change is carried out once LEN has been low for D. -/
  | legOnDeferred (leg : Fin 16) (offset : Fin 8192)
  /-- LEG_FORCE_RELEASE (R371). Every forced-off source clears and the leg starts its commanded state. -/
  | legForceRelease (leg : Fin 16) (offset : Fin 8192)
  /-- BOOT_REFRESH (R372). Continuous high-side time reaches BOOT_MAX and Patrol inserts a refresh. -/
  | bootRefresh (leg : Fin 16) (offset : Fin 8192)
  /-- BOOT_PRECHARGE (R373). A high-side on after BOOT_IDLE off-time is preceded by a precharge. -/
  | bootPrecharge (leg : Fin 16) (offset : Fin 8192)
  /-- BOOT_STARVE (R375). A refresh in each of 100,000 strides raises EV_BOOT_STARVE. -/
  | bootStarve (leg : Fin 16)
  /-- CATCH_WINDOW_END (R384). A drive's catch window ends and the drive moves by Table 10-7. -/
  | catchWindowEnd (drive : Fin 4) (offset : Fin 8192) (crossings : Nat) (interval : W32) (forward : Bool) (sector : Fin 6) (peak vdc : W32)
  /-- BRAKE_INTERVAL_END (R385). A 20 ms braking interval ends and a catch window starts. -/
  | brakeIntervalEnd (drive : Fin 4) (offset : Fin 8192)
  /-- BRAKE_MAX_EXPIRY (R383). Braking reaches BRAKE_MAX and the drive goes to FAULT. -/
  | brakeMaxExpiry (drive : Fin 4) (offset : Fin 8192)
  /-- ALIGN_END (R383). 100 ms of alignment end and forced commutation starts. -/
  | alignEnd (drive : Fin 4)
  /-- RECOVER_END (R383). CATCH_TIME in RECOVER ends and a catch window starts. -/
  | recoverEnd (drive : Fin 4) (offset : Fin 8192)
  /-- BEMF_ZERO_CROSSING (R380). A fan's floating-phase zero crossing schedules the next commutation. -/
  | bemfZeroCrossing (drive : Fin 4) (offset : Fin 8192) (interval : W32)
  /-- SECTOR_COMMUTATE (R380). Half a sector after a crossing the fan commutates to the next sector. -/
  | sectorCommutate (drive : Fin 4) (offset : Fin 8192)
  /-- SPEED_LOOP (R382). Once per PWM period Patrol runs the PI speed loop and current limits. -/
  | speedLoop (drive : Fin 4) (offset : Fin 8192) (current : W32)
  /-- OBSERVER_LOSS (R386). A drive loses lock and goes to RECOVER. -/
  | observerLoss (drive : Fin 4) (offset : Fin 8192)
  /-- DRIVE_FORCED (R383). A forced-off of a drive's leg sends the drive to HALTED. -/
  | driveForced (drive : Fin 4) (offset : Fin 8192)
  /-- DEBUG_FREEZE (R389). A Patrol debug halt freezes every local leg. -/
  | debugFreeze
  /-- DEBUG_FREEZE_END (R389). The halt ends and every leg is released as from a forced off. -/
  | debugFreezeEnd (offset : Fin 8192)
  /-- PAIR_LINK_UP (R397). The pair link comes up and its delay is measured. -/
  | pairLinkUp (delay : Nat)
  /-- PAIR_DELAY_MEASURE (R397). Every 1,000 strides the pair manager measures the link delay. -/
  | pairDelayMeasure (delay : Nat)
  /-- TIME_BLOCK (R400). A non-lead unit receives TIME and steers its boundaries to the lead's. -/
  | timeBlock (payload : BitVec 56) (arrival : Int)
  /-- PAIR_STEP_SEND (R401). At S+8.7 µs each unit sends its STEP frame. -/
  | pairStepSend
  /-- STEP_FRAME (R401). A unit receives a STEP frame and updates cover, relinquish and trip state. -/
  | stepFrame (words : List W32) (crc : W32)
  /-- INPUT_FRAME (R402). A partner receives the lead's INPUT frame of a chain. -/
  | inputFrame (port : Fin 32) (stride : Nat) (data : List W32) (crc : W32)
  /-- MEAS_FRAME (R402). A partner receives the lead's MEAS frame. -/
  | measFrame (stride : Nat) (data : List W32) (crc : W32)
  /-- CMD_FRAME (R403). A partner receives a mirrored command. -/
  | cmdFrame (stride opcode : Nat) (data : List W32) (crc : W32)
  /-- FEED_FRAME (R413). A feeding unit receives the lead's downlink and forwards it on the fed chain. -/
  | feedFrame (port : Fin 32) (offset : BitVec 18) (bib : BitVec 56) (words : List W32) (svc : List (BitVec 56 × W32)) (snap : Option (BitVec 56)) (crc : W32)
  /-- SYNC_FRAME (R419). A joining unit receives a ledger slot and installs it. -/
  | syncFrame (stride : Nat) (d : SyncData) (ok : Bool)
  /-- NAK_FRAME (R399). A sender receives NAK and sends the frame once more. -/
  | nakFrame (kind : Fin 8) (stride key : Nat)
  /-- PARTNER_WORK (R402). When the input of X is complete the partner does the work of X and computes INPUT_DIGEST. -/
  | partnerWork
  /-- DIGEST_COMPARE (R406). At X+1+8.6 µs the partner compares output digests by Table 11-5. -/
  | digestCompare
  /-- STRIKE (R407). At X+1+4.0 µs a partner counts a strike when neither STEP nor downlink arrived. -/
  | strike (heads : BitVec 32)
  /-- PROMOTION (R409). A partner promotes itself to lead with a new epoch. -/
  | promotion
  /-- RELINQUISH (R408). A covered lead sets RELINQUISH and becomes RELAY from the next stride. -/
  | relinquish
  /-- FEED_DECISION (R414). Each stride a partner or relay decides which chains to feed. -/
  | feedDecision (reached : BitVec 32)
  /-- PAIR_COLD_START (R415). Both units NONE with the link up: one takes the lead. -/
  | pairColdStart (peerPref : Bool)
  /-- JOIN_AT_BOUNDARY (R419). At B both units re-initialise engines and the joiner becomes PARTNER, or the join is cancelled. -/
  | joinAtBoundary
  /-- EPOCH_RECORD_WRITE (R394). A new epoch is written to the pair record within 1 s. -/
  | epochRecordWrite
  /-- SPB_FILTER_CHANGE (R425). A safe-block channel's filtered state changes, setting a demand on going low. -/
  | spbFilterChange (a b : Option (Bool × Nat)) (offset : Fin 8192)
  /-- CORE_DISAGREE (R427). The Patrol safety cores disagree, set a demand and restart from ROM. -/
  | coreDisagree (offset : Fin 8192)
  /-- SPT_TEST_PULSE (R426). Patrol pulses SPT low and checks the SPB channel's response. -/
  | sptTestPulse (channel : Fin 2) (own other : Bool)
  /-- SPB_DISCREPANCY (R428). One channel low for DISC_TIME sets SPB_DISC. -/
  | spbDiscrepancy
  /-- SO_TEST_START (R433). Every 2.5 s Patrol opens one switch of a closed output for SO_PULSE. -/
  | soTestStart
  /-- SO_TEST_CHECK (R433). 50 µs after opening and 1 ms after closing, Patrol judges the test by Table 12-3. -/
  | soTestCheck (closed : Bool) (current : Nat)
  /-- SO_COIL_LOW (R433). A closed output's current stays below I_COIL_MIN for 1 ms and it is disarmed. -/
  | soCoilLow (output : Fin 2) (current strides : Nat)
  /-- PLOUGH_EXPIRED (R439). PLOUGH_LEFT reaches 0 and EV_PLOUGH_EXPIRED is raised. -/
  | ploughExpired
  /-- PLOUGH_BACKSTOP (R442). DEGR non-zero for PLOUGH_TIME + 60 s: Patrol opens and disarms both outputs. -/
  | ploughBackstop
  /-- TEST_DUE_CHECK (R437). Once a day Patrol evaluates comparator self-test dates against TEST_DUE. -/
  | testDueCheck
  /-- MODE_STRIDE_EVAL (R294). At every boundary the mode manager evaluates stride rows and forced causes of Table 8-3. -/
  | modeStrideEval
  /-- ORDERLY_STOP_END (R292). STOP_LEFT reaches 0 and the mode manager makes an immediate stop. -/
  | orderlyStopEnd
  /-- CHARGE_TIMEOUT (R294). CH_TIMEOUT after CHARGE entry ends in an immediate stop. -/
  | chargeTimeout
  /-- DISCHARGE_TIMEOUT (R294). DIS_TIMEOUT after DISCHARGE entry blocks and goes passive. -/
  | dischargeTimeout
  /-- COAST_MAX_EXPIRY (R310). COAST_STRIDES reaches COAST_MAX × 100 and an orderly stop starts. -/
  | coastMaxExpiry
  /-- RETURN_CLASSIFY (R312). The return count reaches RETURN_N and each free-running side's return is classified. -/
  | returnClassify
  /-- JUMP_CORRECTION (R314). At each boundary a class 1 correction is reduced by r_u until EV_JUMP_DONE. -/
  | jumpCorrection
  /-- JUMP_BLOCK (R315). A class 3 return blocks the cells and reintegrates them. -/
  | jumpBlock
  /-- JUMP_BLOCK_END (R315). JUMP_BLOCK clears at R+6. -/
  | jumpBlockEnd
  /-- CL_EXPIRY (R313). CL_STRIDES of current limit end and CL clears. -/
  | clExpiry
  /-- GRID_MEASURE (R304). At every boundary VMAG, VNEG, FREQ and ROCOF of each side are computed and LIVE and SRC_STATE moved. -/
  | gridMeasure
  /-- PHASE_A_ZERO_CROSSING (R306). A rising zero crossing of phase A corrects the SRC = 1 loop. -/
  | phaseAZeroCrossing (lv : Bool) (ps : Fin 10000000)
  /-- SYNCHECK_EVAL (R321). At cycle 2,560 of each stride the posted reference is compared with the LV side. -/
  | syncheckEval
  /-- SYNCHECK_TIMEOUT (R321). SC_TIMEOUT passes and the check ends with EV_SYNCHECK_FAIL. -/
  | syncheckTimeout
  /-- TIME_MEASUREMENT (R461). A source measurement updates the servo state and slew. -/
  | timeMeasurement
  /-- LIFT_STEP (R458). At the first qualifying boundary with no running cell the counter is stepped. -/
  | liftStep
  /-- TIME_STEP_ACT (R458). At its boundary a TIME_STEP steps the counter and cancels passed actions. -/
  | timeStepAct
  /-- PAIR_STEP_ACT (R458). A NONE or RELAY unit steps its counter to the lead's. -/
  | pairStepAct
  /-- INCR_UPDATE (R454). At each boundary the servo sets INCR from the period estimate and slew. -/
  | incrUpdate
  /-- PTP_MESSAGE (R464). A PTP Sync, Follow_Up, Pdelay or Announce message is received and processed. -/
  | ptpMessage (port : Fin 4) (m : PtpMsg)
  /-- PPS_IN_EDGE (R466). A PPS_IN rising edge is timestamped. -/
  | ppsInEdge (stamp : Int) (label : Option Int)
  /-- IRIG_FRAME (R468). An IRIG-B frame is decoded. -/
  | irigFrame (stamp : Int) (label : Option IrigLabel)
  /-- TIME_SOURCE_LOST (R462). Three measurements missing or failed make a source lost. -/
  | timeSourceLost (source : Fin 4)
  /-- HOLDOVER_EXPIRY (R461). HOLD_TIME in holdover passes and the servo goes LOST. -/
  | holdoverExpiry
  /-- LEAP_SECOND (R469). At the end of the last UTC second of the day TAI_UTC changes. -/
  | leapSecond
  /-- REFCLK_OUT_OF_BAND (R457). REFCLK fails the frequency check and EV_REFCLK is raised. -/
  | refclkOutOfBand
  /-- SYNCI_EDGE (R202). A SYNCI rising edge is timestamped and judged by mode. -/
  | synciEdge (offset : Int)
  /-- SYNCI_LOST (R202). No SYNCI edge arrives within 2 × 2^SYNCO_DIV strides. -/
  | synciLost
  /-- SYNCO_PULSE (R201). SYNCO rises SYNCO_LEAD before a selected boundary for 160 ns. -/
  | syncoPulse
  /-- PPS_OUT_PULSE (R467). PPS_OUT rises PPS_ADV before each TAI second for PPS_WIDTH. -/
  | ppsOutPulse
  /-- PLL_UNLOCK (R472). A synthesizer loses lock, moves its outputs to the holding clock and raises EV_PLL_UNLOCK. -/
  | pllUnlock (synth : Fin 5)
  /-- PLL_LOCK (R472). A synthesizer declares lock and its outputs return. -/
  | pllLock (synth : Fin 5) (micros : Nat)
  /-- PLL_HOP (R473). A new F_VCO hops the OUT synthesizer. -/
  | pllHop
  /-- PHASOR_REPORT (R482). At each reporting instant the estimator computes phasors and the streamer sends a data frame. -/
  | phasorReport (stream : Fin 2) (soc : W32) (index : Nat)
  /-- PMU_COMMAND (R485). An IEEE C37.118.2 command frame is received and answered. -/
  | pmuCommand (stream : Fin 2) (idcode cmd : BitVec 16) (tcp : Bool)
  /-- TW_ARRIVAL (R489). The detector finds a wave arrival on a line. -/
  | twArrival (line : Fin 4) (stride : Nat) (index : Fin 200) (mode : Fin 3) (lead : Fin 8) (codes : List (BitVec 16 × BitVec 16 × BitVec 16))
  /-- TW_WINDOW_CLOSE (R491). An event window closes, single-ended location runs and a tag is sent. -/
  | twWindowClose (line : Fin 4)
  /-- TW_TAG (R493). A remote tag is received on LOCAL_PORT and accepted or refused. -/
  | twTag (line : Fin 4) (words : List W32)
  /-- TW_TAG_WAIT_END (R494). The 1 s wait for a tag ends and EV_TW is raised. -/
  | twTagWaitEnd (line : Fin 4)
  /-- TW_HOLDOFF_END (R491). HOLDOFF strides after a close end and the line may open a new event. -/
  | twHoldoffEnd (line : Fin 4)
  /-- REC_TRIGGER_EVAL (R496). Once per stride the recording triggers are evaluated. -/
  | recTriggerEval
  /-- RECORD_CLOSE (R497). A record reaches its end and is copied into the fault-record store. -/
  | recordClose
  /-- REC_COPY_DONE (R497). The record copy completes and EV_REC is raised. -/
  | recCopyDone
  /-- SUPPLIES_GOOD (R499). Every rail and RESET_N has been good for 1 ms and Lift begins. -/
  | suppliesGood
  /-- BASE_REACHED (R500). Patrol completes the Base items of Lift. -/
  | baseReached (ms : Nat) (failed : BitVec 2)
  /-- MID_STATION_REACHED (R500). The Coach completes the Mid-station items and applies stored configuration. -/
  | midStationReached (ms : Nat) (failed : BitVec 2)
  /-- LIFT_FAIL (R504). A failure during Lift is handled by Table 15-2a. -/
  | liftFail (fail : Fin 6)
  /-- RESET_N_LOW (R588). A low on RESET_N of 120 ns or more restarts Lift. -/
  | resetNLow (ns : Nat)
  /-- DIP_BEGIN (R508). A rail falls below its warning threshold and a dip begins. -/
  | dipBegin (rail : Fin 12) (us : Fin 10) (mv : BitVec 16)
  /-- DIP_END (R510). A rail returns above warning plus hysteresis and the dip record is written. -/
  | dipEnd (rail : Fin 12) (us : Fin 10) (mv : BitVec 16)
  /-- DIP_2MS (R510). A dip reaches 2 ms and becomes an orderly-stop cause or relinquish. -/
  | dip2ms (rail : Fin 12) (us : Fin 10)
  /-- RAIL_RESET (R506). A rail crosses its reset threshold and the reset of its scope acts. -/
  | railReset (rail : Fin 12) (us : Fin 10) (mv : BitVec 16)
  /-- DIE_RELEASE (R506). A reset die's rails have been good for 1 ms and it is released. -/
  | dieRelease (summit : Bool)
  /-- FLASH_WAIT_TIMEOUT (R512). A flash write waiting on a dip reaches 1 s and ends with ST_SUPPLY_LOW. -/
  | flashWaitTimeout
  /-- THERMAL_READING (R517). Every 100 strides the monitor reads the diode and compares T with thresholds. -/
  | thermalReading (code : BitVec 16)
  /-- THROTTLE_EVAL (R520). Every 1 s the throttle level is evaluated and shedding or restoring applied. -/
  | throttleEval
  /-- TRIAL_TIMEOUT (R568). 600 s pass without a confirm and the processor reverts to the previous bank. -/
  | trialTimeout (patrol : Bool)
  /-- PATROL_RESTART_DONE (R569). The safety cores finish a commanded restart into the new image. -/
  | patrolRestartDone (failed : BitVec 2)
  /-- RECOVERY_IMAGE_WRITE (R576). With FAIL = 4 the boot ROM accepts a Coach image on mailbox 0 and starts it. -/
  | recoveryImageWrite (h : Hdr) (image : List W32)
  /-- CELL_POWER_LOSS (R89). A cell terminal loses power, stops forwarding and its neighbour's T port goes dark. -/
  | cellPowerLoss (cell : Fin 2048)
  /-- FLASH_WRITE_DONE (R564). A flash program of an image, section, checkpoint or record completes and is read back, ending its command or raising its failure event. -/
  | flashWriteDone (job : FlashJob) (ok : Bool) (failed : BitVec 2)
  /-- CARVE_LOAD_DONE (R234). Every named engine holds the image in its standby bank and EV_CARVE_LOADED is raised. -/
  | carveLoadDone (slot : Fin 32)
  /-- FORCED_COMMUTATION (R383). In OPEN_LOOP the drive advances to the next sector at the forced speed and checks whether the forced speed has reached 1.5 × CATCH_MIN. -/
  | forcedCommutation (drive : Fin 4) (offset : Fin 8192)
  /-- REFCLK_RETURN (R475). REFCLK becomes present again, the servo goes to LOST and a Summit die held in reset for its absence can be released. -/
  | refclkReturn
  /-- STATION_PORT_LINK_CHANGE (R500). A station Ethernet port gains or loses its link, changing the ports available to PTP, PRP, GOOSE and streams. -/
  | stationPortLinkChange (port : Fin 4) (up : Bool)
  /-- PAIR_MEAS_SEND (R398). At S+0.5 µs the lead sends the MEAS frame of stride S on the pair link. -/
  | pairMeasSend
  /-- PAIR_INPUT_SEND (R398). At the fold bound of port p the lead sends the INPUT frame of chain p on the pair link. -/
  | pairInputSend (port : Fin 32)
  /-- PAIR_INPUT_DEADLINE (R405). At X+1 +4.8 µs a partner finds the input of stride X incomplete and leaves step unless a strike defers it. -/
  | pairInputDeadline
  deriving DecidableEq, Repr

end Sys2Proof
end

