-- ==== Sys2Proof/Decode.lean ====
section
/-! DEFINITION. The command a word spells by the bits of the opcode table. No row of the table gives bits: commands
arrive as they are, not as words. -/

namespace Sys2Proof

/-- The command that the `nbits` bits of `w` spell: none, for no row has an encoding. -/
def decodeTableWord (_nbits _w : Nat) : Option Instr := none

end Sys2Proof
end

