-- ==== Sys2Proof/Machine/Bits.lean ====
section
/-! DEFINITION. Bit fields of words, signed reading, byte order and the split of 64-bit items into words. -/

namespace Sys2Proof.Machine

/-- The unsigned value of bits `hi` down to `lo` of a word. -/
def bits (w : W32) (hi lo : Nat) : Nat := (w.toNat >>> lo) % 2 ^ (hi - lo + 1)

/-- Whether bit `i` of a word is 1. -/
def bit (w : W32) (i : Nat) : Bool := w.getLsbD i

/-- A field value placed with its low bit at `lo`, for building words out of disjoint fields. -/
def fld (v hi lo : Nat) : W32 := w32 ((v % 2 ^ (hi - lo + 1)) <<< lo)

/-- A flag as a field of one bit at `lo`. -/
def flg (v : Bool) (lo : Nat) : W32 := if v then w32 (1 <<< lo) else 0

/-- A word with bits `hi` to `lo` replaced by `v`. -/
def setBits (w : W32) (hi lo v : Nat) : W32 :=
  (w &&& ~~~ (w32 ((2 ^ (hi - lo + 1) - 1) <<< lo))) ||| fld v hi lo

/-- The disjunction of the fields of a word. -/
def pack (l : List W32) : W32 := l.foldl (· ||| ·) 0

/-- A field of `hi` to `lo` read as two's complement. -/
def sbits (w : W32) (hi lo : Nat) : Int :=
  let v := bits w hi lo
  if v < 2 ^ (hi - lo) then (v : Int) else (v : Int) - 2 ^ (hi - lo + 1)

/-- A whole word read as two's complement. -/
def s32 (w : W32) : Int := w.toInt

/-- The word of an integer modulo 2^32. -/
def ofInt (z : Int) : W32 := BitVec.ofInt 32 z

/-- An integer saturated to 32 bits two's complement (R211). -/
def satI (z : Int) : W32 :=
  if z > 0x7FFFFFFF then 0x7FFFFFFF else if z < -0x80000000 then 0x80000000 else ofInt z

/-- The number modulo 2^64. -/
def m64 (n : Nat) : Nat := n % 2 ^ 64

/-- A 64-bit item as two words, low word first (R541). -/
def w64 (n : Nat) : List W32 := [w32 n, w32 (n / 2 ^ 32)]

/-- The number two words spell, low word first. -/
def join64 (lo hi : W32) : Nat := lo.toNat + hi.toNat * 2 ^ 32

/-- Words of a bitmap of `n` bits held as a number, bit 0 first. -/
def bitmapWords (n m : Nat) : List W32 := (List.range ((n + 31) / 32)).map fun k => w32 (m / 2 ^ (32 * k))

/-- The number whose set bits are the listed positions. -/
def bitmapOf (l : List Nat) : Nat := l.foldl (fun m i => m ||| (1 <<< i)) 0

/-- Positions below `n` whose bit is set. -/
def bitList (n m : Nat) : List Nat := (List.range n).filter fun i => m.testBit i

/-- The k-th word of a list, zero past its end. -/
def word (l : List W32) (k : Nat) : W32 := l.getD k 0

/-- Bytes of words, little-endian (R534). -/
def bytesOf (l : List W32) : List Nat :=
  l.flatMap fun w => [bits w 7 0, bits w 15 8, bits w 23 16, bits w 31 24]

/-- Increment that stays at its maximum. -/
def satInc (m n : Nat) : Nat := if n < m then n + 1 else n

end Sys2Proof.Machine
end

