-- ==== Sys2Proof/Machine/Crc.lean ====
section
/-! DEFINITION. The cyclic redundancy checks of the spec: CRC-32 of IEEE 802.3, the CRC-64 of R405, and the link
checks of R130, each over a list of bytes or bits, evaluated bit by bit. -/

namespace Sys2Proof.Machine

/-- One byte into a reflected CRC register: `n` shift steps with the reflected polynomial. -/
def crcShift (poly : Nat) : Nat → Nat → Nat
  | 0, r => r
  | n + 1, r => crcShift poly n (if r % 2 = 1 then (r / 2) ^^^ poly else r / 2)

/-- CRC-32 of IEEE 802.3 over bytes: reflected, initial and final inversion. -/
def crc32 (l : List Nat) : W32 :=
  w32 ((l.foldl (fun r x => crcShift 0xEDB88320 8 (r ^^^ x)) 0xFFFFFFFF) ^^^ 0xFFFFFFFF)

/-- A CRC computed most significant bit first: width `w`, polynomial without its top bit, over a list of bits. -/
def crcMsb (w poly init : Nat) (l : List Bool) : Nat :=
  l.foldl (fun r x =>
    let top := r.testBit (w - 1) != x
    ((r * 2) % 2 ^ w) ^^^ (if top then poly else 0)) init

/-- The bits of a byte, most significant first. -/
def msbBits (n v : Nat) : List Bool := (List.range n).map fun i => v.testBit (n - 1 - i)

/-- CRC-64 ECMA-182 over the bytes of words (R405). -/
def crc64 (l : List W32) : Nat := crcMsb 64 0x42F0E1EBA9EA3693 0 ((bytesOf l).flatMap (msbBits 8))

/-- CRC-CCITT of a frame of IEEE C37.118.2: initial value all ones, no inversion. -/
def crcCcitt (l : List Nat) : Nat := crcMsb 16 0x1021 0xFFFF (l.flatMap (msbBits 8))

/-- The bits of a number, least significant first. -/
def lsbBits (n v : Nat) : List Bool := (List.range n).map fun i => v.testBit i

/-- Bits `hi` down to `lo` of a control block's payload (Table 4-4). -/
def pf (p : BitVec 56) (hi lo : Nat) : Nat := (p.toNat >>> lo) % 2 ^ (hi - lo + 1)

/-- The check of a control block (R130): width, polynomial, type octet, payload, and the bits of a data block that the
check also covers. -/
def ctlCrc (w poly octet : Nat) (p : BitVec 56) (data : List Bool) : Nat :=
  crcMsb w poly (2 ^ w - 1) (lsbBits 8 octet ++ lsbBits (56 - w) (p.toNat >>> w) ++ data)

/-- Whether a control block with a CRC-8, CRC-5 or CRC-16 checks (Table 4-4). -/
def crc8Ok (octet : Nat) (p : BitVec 56) : Bool := ctlCrc 8 0x07 octet p [] == pf p 7 0
def crc5Ok (octet : Nat) (p : BitVec 56) : Bool := ctlCrc 5 0x05 octet p [] == pf p 4 0
def svcOk (p : BitVec 56) (value : W32) : Bool :=
  ctlCrc 16 0x1021 0x55 p (lsbBits 64 value.toNat) == pf p 15 0

/-- A payload with its CRC-8 or CRC-5 put in place. -/
def withCrc8 (octet : Nat) (v : Nat) : BitVec 56 :=
  let p := BitVec.ofNat 56 (v / 256 * 256)
  p ||| BitVec.ofNat 56 (ctlCrc 8 0x07 octet p [])
def withCrc5 (octet : Nat) (v : Nat) : BitVec 56 :=
  let p := BitVec.ofNat 56 (v / 32 * 32)
  p ||| BitVec.ofNat 56 (ctlCrc 5 0x05 octet p [])

/-- The payload of a service frame (Table 4-4) with its CRC-16 over payload and data block. -/
def svcMake (kind pos index bib : Nat) (value : W32) : BitVec 56 :=
  let p := BitVec.ofNat 56 (kind % 8 * 2 ^ 53 + pos % 64 * 2 ^ 47 + index % 128 * 2 ^ 40 + bib % 2 ^ 24 * 2 ^ 16)
  p ||| BitVec.ofNat 56 (ctlCrc 16 0x1021 0x55 p (lsbBits 64 value.toNat))

/-- LIST_CRC of R133: BIB, stride, header bits 15:0, then the edge and parameter words, octets least significant first. -/
def listCrc (bib stride : Nat) (header : W32) (rest : List W32) : Nat :=
  let octets := [bib % 256, bib / 256 % 256, bib / 65536 % 256] ++ bytesOf [w32 stride]
    ++ [bits header 7 0, bits header 15 8] ++ bytesOf rest
  crcMsb 16 0x1021 0xFFFF (octets.flatMap (lsbBits 8))

end Sys2Proof.Machine
end

