-- ==== Sys2Proof/Config.lean ====
section
/-! DEFINITION. What one part fixes and the spec does not: the free values of the model. Every constant
here has no body, so no proof can see its value (assumption log 2 and 3). -/

namespace Sys2Proof

/-- Free values drawn one after the other: the block's `free` counter is the argument (log 2). -/
opaque Config.freeWord : Nat → W32

/-- FRCP's result before the bound of Table 6-6 is applied (log 3). -/
opaque Config.frcpOut : W32 → W32

/-- FSQRT's result before the bound of Table 6-6 is applied (log 3). -/
opaque Config.fsqrtOut : W32 → W32

/-- SINCOS's sine and cosine before the bound of Table 6-6 is applied (log 3). -/
opaque Config.sinOut : W32 → W32
/-- See `Config.sinOut`. -/
opaque Config.cosOut : W32 → W32

/-- ATAN2's result before the bound of Table 6-6 is applied (log 3). -/
opaque Config.atan2Out : W32 → W32 → W32

/-- The exponential of R263 before it is held to the rounded result or a neighbour of it (log 3). -/
opaque Config.expOut : W32 → W32

/-- What the mode manager's estimator makes of the samples of phases A, B and C of a side (R304, R306, R307, log 49), by the
block's `free` counter for the samples before those of the last stride: magnitude of the positive or negative sequence in V
rms, FREQ, ROCOF, the angle of the network, the class P phasor angle in degrees if it is valid. -/
opaque Config.seqVolts : Nat → Bool → List (List W32) → W32
/-- See `Config.seqVolts`. -/
opaque Config.gridFreq : Nat → List (List W32) → W32
/-- See `Config.seqVolts`. -/
opaque Config.gridRocof : Nat → List (List W32) → W32
/-- See `Config.seqVolts`. -/
opaque Config.gridAngle : Nat → List (List W32) → W32
/-- See `Config.seqVolts`. -/
opaque Config.gridPhi : Nat → List (List W32) → Option W32

/-- What the phasor estimator makes of the samples of one channel or of a three-phase set around a reporting instant (R482), by
the block's `free` counter, for class M or P, polar or rectangular; frequency and its rate of the set that gives them (log 50). -/
opaque Config.phasor : Nat → Bool → Bool → List (List W32) → W32 × W32
/-- See `Config.phasor`. -/
opaque Config.phasorFreq : Nat → Bool → List (List W32) → W32
/-- See `Config.phasor`. -/
opaque Config.phasorRocof : Nat → Bool → List (List W32) → W32

/-- PHUNIT and ANUNIT of a stream's item (24 and 32 bits): the scales of its 16-bit forms, which the spec leaves to the
configuration frame (R485, log 50). -/
opaque Config.phasorUnit : Nat → Nat → Nat
/-- See `Config.phasorUnit`. -/
opaque Config.analogUnit : Nat → Nat → W32

/-- The correction that the loop of R306 of bandwidth PLL_BW makes of a phase error in 2^-32 turn (log 49). -/
opaque Config.pllStep : Nat → W32 → Int → Int

/-- What the spec leaves open in the header block of a pair-link frame, by kind, stride and key: the type octet, and the 24
bits of the payload above the CRC-32 (log 47). -/
opaque Config.pairOctet : Nat → Nat
/-- See `Config.pairOctet`. -/
opaque Config.pairHeader : Nat → Nat → Nat → BitVec 24

/-- The turnaround of the TIME block of a stride, in 10 ps (R397, log 47). -/
opaque Config.pairTurn : Nat → Nat

/-- The device serial number of the part (log 4). -/
opaque Config.deviceSerial : W64

/-- The public firmware key, 57 bytes, and the private key of the device identity, 57 bytes (log 4). -/
opaque Config.firmwareKey : BitVec 456
/-- See `Config.firmwareKey`. -/
opaque Config.identitySecret : BitVec 456

/-- Device certificate number k, as words (log 4). -/
opaque Config.certificate : Nat → List W32

/-- What the debug access port is of a part (R577, log 48): its identification code, the number of bits of its instruction
register and the code of IDCODE, the levels of DBG_TCK, DBG_TMS and DBG_TDI (bits 0 to 2) at each look, and what DBG_TDO
shows for an instruction that an authorization opens. -/
opaque Config.dbgIdcode : W32
/-- See `Config.dbgIdcode`. -/
opaque Config.dbgIrBits : Nat
/-- See `Config.dbgIdcode`. -/
opaque Config.dbgIdcodeInsn : List Bool
/-- See `Config.dbgIdcode`. -/
opaque Config.dbgBalls : Nat → BitVec 3
/-- See `Config.dbgIdcode`. -/
opaque Config.dbgOut : Nat → Bool

end Sys2Proof
end

