-- ==== Sys2Proof/Machine/F32.lean ====
section
/-! DEFINITION. Binary32 arithmetic of R210: exact rational results rounded once to nearest, ties to even,
subnormals flushed to zero of the same sign, one canonical NaN; and the fixed-point conversions of R211. -/

namespace Sys2Proof.Machine

/-- The canonical NaN of R210. -/
def nanW : W32 := 0x7FC00000

def fIsNaN (w : W32) : Bool := bits w 30 23 == 255 && bits w 22 0 != 0
def fIsInf (w : W32) : Bool := bits w 30 23 == 255 && bits w 22 0 == 0
/-- Zero, or a subnormal that R210 flushes to zero. -/
def fIsZero (w : W32) : Bool := bits w 30 23 == 0
def fNeg? (w : W32) : Bool := bit w 31

/-- Sign bit and magnitude put together. -/
def fSigned (neg : Bool) (m : Nat) : W32 := flg neg 31 ||| w32 m
def fZero (neg : Bool) : W32 := fSigned neg 0
def fInf (neg : Bool) : W32 := fSigned neg 0x7F800000

/-- Floor of log2 of `num / den` for positive arguments. -/
def ilog (num den : Nat) : Int :=
  let e : Int := (Nat.log2 num : Int) - (Nat.log2 den : Int)
  let lt : Bool := if e ≥ 0 then num < den <<< e.toNat else num <<< (-e).toNat < den
  if lt then e - 1 else e

/-- Floor of `num / den × 2^k` and whether the remainder is below, at or above one half (0, 1, 2; 3 exact). -/
def divScaled (num den : Nat) (k : Int) : Nat × Nat :=
  let n := if k ≥ 0 then num <<< k.toNat else num
  let d := if k ≥ 0 then den else den <<< (-k).toNat
  let q := n / d
  let r := n % d
  (q, if r = 0 then 3 else if 2 * r < d then 0 else if 2 * r = d then 1 else 2)

/-- Nearest, ties to even, of a quotient from `divScaled`. -/
def roundQ (qr : Nat × Nat) : Nat :=
  if qr.2 = 2 then qr.1 + 1 else if qr.2 = 1 then qr.1 + qr.1 % 2 else qr.1

/-- The binary32 pattern of the magnitude `num / den` with a sign (R210). -/
def roundRat (neg : Bool) (num den : Nat) : W32 :=
  if num = 0 then fZero neg
  else
    let e := ilog num den
    let q := roundQ (divScaled num den (23 - e))
    let e' := if q = 2 ^ 24 then e + 1 else e
    let q' := if q = 2 ^ 24 then 2 ^ 23 else q
    if e' > 127 then fInf neg
    else if e' < -126 then fZero neg
    else fSigned neg (((e' + 127).toNat <<< 23) + (q' - 2 ^ 23))

/-- The exact value of a finite pattern as a signed numerator over a power of two. -/
def fVal (w : W32) : Int × Nat :=
  let ex := bits w 30 23
  let m : Nat := if ex = 0 then 0 else 2 ^ 23 + bits w 22 0
  let n : Nat := if ex ≥ 150 then m <<< (ex - 150) else m
  let d : Nat := if ex ≥ 150 then 1 else 2 ^ (150 - ex)
  (if fNeg? w then -(n : Int) else n, d)

/-- An integer ratio rounded to binary32; an exact zero takes the sign given. -/
def ofRat (num : Int) (den : Nat) (zneg : Bool := false) : W32 :=
  if num = 0 then fZero zneg else roundRat (num < 0) num.natAbs den

def ofNatF (n : Nat) : W32 := ofRat n 1
def ofIntF (z : Int) : W32 := ofRat z 1

def fneg (a : W32) : W32 := if fIsNaN a then nanW else a ^^^ 0x80000000
def fabs (a : W32) : W32 := if fIsNaN a then nanW else if fIsZero a then 0 else a &&& 0x7FFFFFFF

/-- Flush of a subnormal to zero of its sign; NaN made canonical. -/
def fcanon (a : W32) : W32 := if fIsNaN a then nanW else if fIsZero a then fZero (fNeg? a) else a

def fadd (a b : W32) : W32 :=
  if fIsNaN a || fIsNaN b then nanW
  else if fIsInf a then (if fIsInf b && fNeg? a != fNeg? b then nanW else a)
  else if fIsInf b then b
  else
    let (x, dx) := fVal a
    let (y, dy) := fVal b
    ofRat (x * dy + y * dx) (dx * dy) (fIsZero a && fIsZero b && fNeg? a && fNeg? b)

def fsub (a b : W32) : W32 := if fIsNaN b then nanW else fadd a (b ^^^ 0x80000000)

def fmul (a b : W32) : W32 :=
  let s := fNeg? a != fNeg? b
  if fIsNaN a || fIsNaN b then nanW
  else if fIsInf a || fIsInf b then (if fIsZero a || fIsZero b then nanW else fInf s)
  else
    let (x, dx) := fVal a
    let (y, dy) := fVal b
    ofRat (x * y) (dx * dy) s

/-- d + a × b with one rounding. -/
def ffma (d a b : W32) : W32 :=
  let s := fNeg? a != fNeg? b
  if fIsNaN a || fIsNaN b || fIsNaN d then nanW
  else if fIsInf a || fIsInf b then
    (if fIsZero a || fIsZero b then nanW else fadd d (fInf s))
  else if fIsInf d then d
  else
    let (x, dx) := fVal a
    let (y, dy) := fVal b
    let (z, dz) := fVal d
    ofRat (z * (dx * dy) + x * y * dz) (dz * (dx * dy)) (x * y == 0 && z == 0 && s && fNeg? d)

def fdiv (a b : W32) : W32 :=
  let s := fNeg? a != fNeg? b
  if fIsNaN a || fIsNaN b then nanW
  else if fIsInf a then (if fIsInf b then nanW else fInf s)
  else if fIsInf b then fZero s
  else if fIsZero b then (if fIsZero a then nanW else fInf s)
  else
    let (x, dx) := fVal a
    let (y, dy) := fVal b
    ofRat (if s then -((x.natAbs * dy : Nat) : Int) else (x.natAbs * dy : Nat)) (dx * y.natAbs) s

/-- a < b, false with a NaN operand (R210). -/
def flt (a b : W32) : Bool :=
  if fIsNaN a || fIsNaN b then false
  else if fIsInf a then fNeg? a && !(fIsInf b && fNeg? b)
  else if fIsInf b then !fNeg? b
  else
    let (x, dx) := fVal a
    let (y, dy) := fVal b
    x * dy < y * dx

def feq (a b : W32) : Bool :=
  if fIsNaN a || fIsNaN b then false
  else if fIsZero a && fIsZero b then true else a == b

def fle (a b : W32) : Bool := flt a b || feq a b

/-- Minimum; the other operand when one is NaN (R210). The lesser sign of two zeros. -/
def fmin (a b : W32) : W32 :=
  if fIsNaN a then fcanon b else if fIsNaN b then fcanon a
  else if feq a b then (if fNeg? a then fcanon a else fcanon b)
  else if flt a b then fcanon a else fcanon b

/-- Maximum; the other operand when one is NaN (R210). The greater sign of two zeros. -/
def fmax (a b : W32) : W32 :=
  if fIsNaN a then fcanon b else if fIsNaN b then fcanon a
  else if feq a b then (if fNeg? a then fcanon b else fcanon a)
  else if flt a b then fcanon b else fcanon a

/-- Clamp of R216 and R217: min(hi, max(lo, x)). -/
def fclamp (lo hi x : W32) : W32 := fmin hi (fmax lo x)

/-- Sum of a list in its order, each addition rounded. -/
def fsum (l : List W32) : W32 := l.foldl fadd 0

/-- A sum formed exactly and rounded once (R603). -/
def fsumExact (l : List W32) : W32 :=
  if l.any fIsNaN then nanW
  else if l.any (fun w => fIsInf w && !fNeg? w) then
    (if l.any (fun w => fIsInf w && fNeg? w) then nanW else fInf false)
  else if l.any fIsInf then fInf true
  else
    let s := l.foldl (fun (acc : Int × Nat) w =>
      let (y, dy) := fVal w
      (acc.1 * dy + y * acc.2, acc.2 * dy)) (0, 1)
    ofRat s.1 s.2

/-- The eight conditions of FCMP, by code 0 EQ to 7 ORD. -/
def fcond (c : Nat) (a b : W32) : Bool :=
  let u := fIsNaN a || fIsNaN b
  match c with
  | 0 => feq a b
  | 1 => !feq a b
  | 2 => flt a b
  | 3 => fle a b
  | 4 => flt b a
  | 5 => fle b a
  | 6 => u
  | _ => !u

/-- FTOI: round(a × 2^q) to nearest even, saturating; NaN gives 0. -/
def ftoi (q : Nat) (a : W32) : W32 :=
  if fIsNaN a then 0
  else if fIsInf a then (if fNeg? a then 0x80000000 else 0x7FFFFFFF)
  else
    let (x, d) := fVal a
    let r := roundQ (divScaled (x.natAbs * 2 ^ q) d 0)
    satI (if x < 0 then -(r : Int) else r)

/-- ITOF: a × 2^−q. -/
def itof (q : Nat) (a : W32) : W32 := ofRat (s32 a) (2 ^ q)

/-- Floor of a finite pattern; 0 for NaN and infinities. -/
def ffloor (a : W32) : Int :=
  if fIsNaN a || fIsInf a then 0 else (fVal a).1 / ((fVal a).2 : Int)

/-- Whether the magnitude of `c` lies within one unit in the last place of `num / den`. -/
def withinUlp (c : W32) (num den : Nat) : Bool :=
  !fIsNaN c && !fIsInf c && !fIsZero c &&
  (let (x, d) := fVal c
   let ulp : Int × Nat := if bits c 30 23 ≥ 150 then ((2 ^ (bits c 30 23 - 150) : Nat), 1)
     else (1, 2 ^ (150 - bits c 30 23))
   let diff : Int := (x.natAbs : Int) * den - (num : Int) * d
   diff.natAbs * ulp.2 ≤ ulp.1.natAbs * (d * den))

/-- FRCP of Table 6-6: a free value within one ulp of 1/a. -/
def frcp (a : W32) : W32 :=
  if fIsNaN a then nanW
  else if fIsZero a then fInf (fNeg? a)
  else if fIsInf a then fZero (fNeg? a)
  else
    let (x, d) := fVal a
    let c := Config.frcpOut a
    if withinUlp c d x.natAbs && fNeg? c == fNeg? a then c else roundRat (fNeg? a) d x.natAbs

/-- Integer square root by bits, `k` bits of result. -/
def isqrtBits (n : Nat) : Nat → Nat → Nat
  | 0, r => r
  | k + 1, r => let r' := r + 2 ^ k; isqrtBits n k (if r' * r' ≤ n then r' else r)

def isqrt (n : Nat) : Nat := isqrtBits n (n.log2 / 2 + 1) 0

/-- The square root of a positive finite pattern, rounded to nearest. -/
def fsqrtExact (a : W32) : W32 :=
  let (x, d) := fVal a
  -- d is a power of two; scale so that the root carries 60 or more significant bits
  let k := 80 + (if d.log2 % 2 = 0 then 0 else 1)
  let n := x.natAbs <<< k
  let r := isqrt (n <<< 40)
  roundRat false (2 * r + (if r * r = n <<< 40 then 0 else 1)) (2 * 2 ^ ((d.log2 + k + 40) / 2))

/-- Whether the positive pattern `c` lies within one unit in the last place of the root of `num / den`, by squares. -/
def withinUlpRoot (c : W32) (num den : Nat) : Bool :=
  !fIsNaN c && !fIsInf c && !fIsZero c && !fNeg? c &&
  (let (x, d) := fVal c
   let u : Int × Nat := if bits c 30 23 ≥ 150 then ((2 ^ (bits c 30 23 - 150) : Nat), 1) else (1, 2 ^ (150 - bits c 30 23))
   let lo := x * u.2 - u.1 * d
   let hi := x * u.2 + u.1 * d
   let t : Int := num * ((d * u.2 : Nat) : Int) ^ 2
   (decide (lo ≤ 0) || decide (lo * lo * den ≤ t)) && decide (t ≤ hi * hi * den))

/-- FSQRT of Table 6-6: a free value within one ulp of the root. -/
def fsqrt (a : W32) : W32 :=
  if fIsNaN a then nanW
  else if fIsZero a then fZero (fNeg? a)
  else if fNeg? a then nanW
  else if fIsInf a then fInf false
  else
    let c := Config.fsqrtOut a
    if withinUlpRoot c (fVal a).1.natAbs (fVal a).2 then c else fsqrtExact a

/-- 2π in units of 2^-64, and a Taylor sine of an angle below a quarter turn, in units of 2^-64.
`k` counts the terms left, `x2` is the square of the angle, `t` the running term. -/
def sinTerms (x2 : Nat) : Nat → Nat → Int → Bool → Int → Int
  | 0, _, _, _, acc => acc
  | k + 1, n, t, neg, acc =>
    sinTerms x2 k (n + 2) (t * x2 / 2 ^ 64 / ((n + 1) * (n + 2) : Nat)) (!neg) (if neg then acc - t else acc + t)

/-- sin(2π a / 2^32) in units of 2^-64, with an error far below 2^-40. -/
def sinFix (a : Nat) : Int :=
  let a := a % 2 ^ 32
  let h := a % 2 ^ 31
  let q := if h ≤ 2 ^ 30 then h else 2 ^ 31 - h
  let x : Nat := q * 115904311329233965478 / 2 ^ 32
  let s := sinTerms (x * x / 2 ^ 64) 14 1 x false 0
  if a < 2 ^ 31 then s else -s

def cosFix (a : Nat) : Int := sinFix (a + 2 ^ 30)

/-- A free pattern kept, a subnormal one flushed (R210), where it lies within 2^-22 of `v` (units of 2^-64), else `v` itself
rounded. -/
def near22 (c : W32) (v : Int) : W32 :=
  let r := ofRat v (2 ^ 64)
  if fIsNaN c || fIsInf c then r
  else
    let (x, d) := fVal c
    if (x * 2 ^ 64 - v * d).natAbs ≤ 2 ^ 42 * d then fcanon c else r

def fsin (a : W32) : W32 := near22 (Config.sinOut a) (sinFix a.toNat)
def fcos (a : W32) : W32 := near22 (Config.cosOut a) (cosFix a.toNat)

/-- Whether angle word `r` lies within 2^-20 turn of the point (x, y), by cross and dot product. -/
def angleNear (x y : Int) (r : Nat) : Bool :=
  let c := cosFix r
  let s := sinFix r
  let cross := y * c - x * s
  let dot := x * c + y * s
  dot > 0 && cross.natAbs * 1000000000 ≤ dot.natAbs * 5992

/-- The angle word of a point by halving, counting `k` bits down. -/
def angleSearch (x y : Int) : Nat → Nat → Nat
  | 0, r => r
  | k + 1, r =>
    let r' := r + 2 ^ k
    angleSearch x y k (if y * cosFix r' - x * sinFix r' ≥ 0 then r' else r)

/-- The angle word of a finite point other than the origin. -/
def angleOf (x y : Int) : Nat :=
  if y > 0 || (y = 0 && x > 0) then angleSearch x y 31 0
  else (2 ^ 31 + angleSearch (-x) (-y) 31 0) % 2 ^ 32

/-- ATAN2 of Table 6-6: a free value within 2^-20 turn; 0 at the origin and with a NaN. The spec states no
angle for an infinite operand: free there. -/
def fatan2 (y x : W32) : W32 :=
  if fIsNaN x || fIsNaN y || (fIsZero x && fIsZero y) then 0
  else
    let c := Config.atan2Out y x
    if fIsInf x || fIsInf y then c
    else
      let (xn, dx) := fVal x
      let (yn, dy) := fVal y
      if angleNear (xn * dy) (yn * dx) c.toNat then c else w32 (angleOf (xn * dy) (yn * dx))

end Sys2Proof.Machine
end

