-- ==== Sys2Proof/Machine/Tbl.lean ====
section
/-! DEFINITION. The one table type of the model: sparse data by number, in one canonical form (keys strictly
rising, no entry equal to what an unlisted key reads as). Every RAM, image and per-port array is one of these. -/

namespace Sys2Proof.Machine

/-- A sparse table from numbers to `α`. -/
abbrev Tbl (α : Type) := List (Nat × α)

/-- The value at key `k`; an unlisted key reads as `d`. -/
def Tbl.get {α : Type} (d : α) : Tbl α → Nat → α
  | [], _ => d
  | (j, v) :: t, k => if k = j then v else if k < j then d else Tbl.get d t k

/-- Write `v` at key `k`, keeping the canonical form: the value `d` of unlisted keys is never listed. -/
def Tbl.set {α : Type} [DecidableEq α] (d : α) : Tbl α → Nat → α → Tbl α
  | [], k, v => if v = d then [] else [(k, v)]
  | (j, w) :: t, k, v =>
    if k < j then (if v = d then (j, w) :: t else (k, v) :: (j, w) :: t)
    else if k = j then (if v = d then t else (k, v) :: t)
    else (j, w) :: Tbl.set d t k v

/-- Change the value at key `k` by `f`. -/
def Tbl.upd {α : Type} [DecidableEq α] (d : α) (t : Tbl α) (k : Nat) (f : α → α) : Tbl α :=
  Tbl.set d t k (f (Tbl.get d t k))

/-- Write a list of values at consecutive keys from `k`. -/
def Tbl.setRange {α : Type} [DecidableEq α] (d : α) : Tbl α → Nat → List α → Tbl α
  | t, _, [] => t
  | t, k, v :: vs => Tbl.setRange d (Tbl.set d t k v) (k + 1) vs

/-- The `n` values at keys `k`, `k+1`, … -/
def Tbl.range {α : Type} (d : α) (t : Tbl α) (k n : Nat) : List α :=
  (List.range n).map fun i => Tbl.get d t (k + i)

/-- All keys of a table exceed `k`. -/
def Tbl.above {α : Type} (k : Nat) : Tbl α → Bool
  | [] => true
  | (j, _) :: _ => k < j

/-- The canonical form: keys strictly rising and no listed value equal to `d`. -/
def Tbl.wf {α : Type} [DecidableEq α] (d : α) : Tbl α → Bool
  | [] => true
  | (j, v) :: t => v ≠ d && Tbl.above j t && Tbl.wf d t

end Sys2Proof.Machine
end

