-- ==== Sys2Proof/Machine/State.lean ====
section
/-! DEFINITION. The state of the block: every register, table, queue, mode and pin the spec gives the WV2048, as
plain data, and the queue of waiting commands. A default value is the reset value; where the spec gives none it
is zero, empty or false (log 1). -/

namespace Sys2Proof.Machine

/-- Training states of Table 4-9, by the codes of Table 4-13. -/
inductive PortSt where
  | off | train | hello | up | dark
  deriving DecidableEq, Repr

/-- A 66-bit block on a lane (R126): sync header and scrambled block field. -/
structure Block66 where
  sync : BitVec 2
  field : BitVec 64
  deriving DecidableEq, Repr

/-- A frame or single control block that waits for slots of a transmitter (R138): class of Table 4-8, type octet, payload,
the data blocks not yet sent, the data blocks a forwarded frame has still to bring, and whether its header has left. -/
structure TxFrame where
  cls : Nat
  octet : Nat
  payload : BitVec 56
  data : List (BitVec 64) := []
  due : Nat := 0
  begun : Bool := false
  deriving DecidableEq, Repr

/-- A frame in progress at a receiver (R139): type octet, payload, data blocks still due, words so far. -/
structure RxFrame where
  octet : Nat
  payload : BitVec 56
  left : Nat
  words : List W32 := []
  deriving DecidableEq, Repr

/-- One link port (Tables 4-9, 4-13). `searching`: UP, receive searching; `burst`: KICKs of the partner's idle exit still
due; `hdrs`: validity of the last 64 sync headers, newest first; `stack`: frames in progress at the receiver, the one
that runs first. Transmitter: `tx` what waits, in order of arrival; `exit`, `eidle`: KICKs and EIDLEs still due (R152);
`blockSlots`: slots of a BLOCK of the Summit still due; `blockCause`: CAUSE of the BLOCK of the last slot, 0 none;
`slots`, `sinceHello`: slots sent, and sent since the last HELLO; `scr`, `descr`: registers of R126; `wire`: the block
of the last slot; `txSeq`: SEQ of the last KICK sent. -/
structure Port where
  st : PortSt := .off
  rxLock : Bool := false
  rxIdle : Bool := false
  txIdle : Bool := true
  searching : Bool := false
  lastFail : Nat := 0
  retrains : Nat := 0
  syncErr : Nat := 0
  ctrlErr : Nat := 0
  helloRun : Nat := 0
  kickRun : Nat := 0
  kickSeq : Nat := 0
  keepalives : Nat := 0
  wrongEnd : Bool := false
  helloSeen : Bool := false
  partnerRole : Nat := 0
  partnerRank : Nat := 0
  timer : Bool := false
  hdrs : List Bool := []
  stack : List RxFrame := []
  burst : Nat := 0
  tx : List TxFrame := []
  exit : Nat := 0
  txSeq : Nat := 0
  eidle : Nat := 0
  blockFwd : Nat := 0
  blockSlots : Nat := 0
  blockCause : Nat := 0
  slots : Nat := 0
  sinceHello : Nat := 0
  scr : BitVec 58 := 0
  descr : BitVec 58 := 0
  wire : Option Block66 := none
  deriving DecidableEq, Repr

/-- Chain manager states (Table 3-3). -/
inductive ChainSt where
  | dark | enumerating | checking | ready | held
  deriving DecidableEq, Repr

/-- Lane-slot states (Table 3-10). -/
inductive SlotSt where
  | blocked | integrating | active | bypassing | bypassed | unbypassing
  deriving DecidableEq, Repr

/-- A queued setpoint write of a chain (R110). -/
structure SetWrite where
  pos : Nat
  index : Nat
  value : W32
  deriving DecidableEq, Repr

/-- An open delay measurement (R154, R156). -/
structure Measure where
  seq : Nat
  target : Nat
  t1 : Nat
  deriving DecidableEq, Repr

/-- One chain and its manager. `silenceL`: the L in force at the hub, `silenceNext`: that of the
next boundary (R77); times in strides; `enumSent`: the last ENUM
sent; `approved`: the next check takes the serials as they are (R89); `sentStride` to `sentMeasure`: what the link engine
sent in this stride; `rttPs`: the round trip of R59 in ps; `sweep`: targets left of a sweep, 0 for the closing block. -/
structure Chain where
  st : ChainSt := .dark
  linkUpAt : Nat := 0
  retryAt : Option Nat := none
  checkPassed : Bool := false
  broken : Bool := false
  enumSent : Option (BitVec 56) := none
  approved : Bool := true
  rttPs : Nat := 0
  measured : Bool := false
  admitted : Bool := false
  lateNow : Bool := false
  lateRun : Nat := 0
  silenceL : Nat := 4
  silenceNext : Option Nat := none
  everReady : Bool := false
  setQueue : List SetWrite := []
  lastSet : Option SetWrite := none
  snapAt : List Nat := []
  snapSent : Nat := 0
  layoutDue : Bool := false
  sentStride : Option (BitVec 56) := none
  sentBib : Option (BitVec 56) := none
  downlink : List W32 := []
  sentSvc : List (BitVec 56 × W32) := []
  sentSnap : Option (BitVec 56) := none
  sentMeasure : Option (BitVec 56) := none
  seq : Nat := 0
  sweep : Option Nat := none
  lastPos : Nat := 127
  lastD : Option Nat := none
  open? : Option Measure := none
  deriving DecidableEq, Repr

/-- What enumeration told of a cell (Table 3-4, R135). -/
structure EnumInfo where
  serial : Nat := 0
  firmware : W32 := 0
  asym : Int := 0
  desc : List W32 := []
  deriving DecidableEq, Repr

/-- The hub's view of one cell position (Table 3-10, R64, R157, R191). `flagAt`: stride in which the list with INTEGRATE
was built; `ownRec`, `ownAt`: a partner's own record (R402). -/
structure HubCell where
  slot : SlotSt := .blocked
  slotAt : Nat := 0
  silence : Nat := 0
  stale : Bool := true
  silent : Bool := false
  record : List W32 := []
  prev : List W32 := []
  recAt : Option Nat := none
  prevAt : Option Nat := none
  folded : Bool := false
  segs : Tbl (List W32) := []
  info : Option EnumInfo := none
  dly : Option Nat := none
  dlyPrev : Option Nat := none
  edgeNolist : Bool := true
  edges : List W32 := []
  params : List W32 := []
  integrate : Bool := false
  faultKind : Nat := 0
  flagAt : Option Nat := none
  ownRec : List W32 := []
  ownAt : Option Nat := none
  deriving DecidableEq, Repr

/-- Cell ladder states (Table 2-3). -/
inductive Ladder where
  | run | repeat | hold | blocked
  deriving DecidableEq, Repr

/-- An edge list held by a cell (R101). -/
structure CellList where
  boundary : Nat
  bib : Nat
  port : Nat
  edges : List W32
  params : List W32
  integrate : Bool
  deriving DecidableEq, Repr

/-- One cell with its terminal (chapters 3 and 4). `stride`: the number of its current stride; `own`: its own count of
boundaries, which no STRIDE renumbers (R95); `ranges`: ranges of the kind's own for the parameter words (R100); `offAt`:
last off of a switch in UI of the present stride (R104); `dueOns`: stretched on-commands, instant and switch; `enumAt`, `snapFrom`, `segAt`: own count of the last ENUM, the last latch and the
last segment. -/
structure CellTerm where
  powered : Bool := false
  serial : Nat := 0
  firmware : W32 := 0
  asym : Int := 0
  desc : List W32 := []
  pos : Option Nat := none
  silenceL : Nat := 4
  port : Nat := 0
  stride : Nat := 0
  own : Nat := 0
  ranges : List (Option (W32 × W32)) := []
  ladder : Ladder := .blocked
  m : Nat := 0
  blockCause : Nat := 5
  sc : Bool := false
  ov : Bool := false
  interlock : Bool := false
  gapStretch : Bool := false
  conflictAt : Option Nat := none
  paramStale : Bool := false
  hot : Bool := false
  curInterlock : Bool := false
  curGap : Bool := false
  curEdges : Nat := 0
  lists : List CellList := []
  last : Option CellList := none
  listSrc : Nat := 0
  edgesExec : Nat := 0
  sw : Nat := 0
  offAt : Tbl (Option Int) := []
  dueOns : List (Int × Nat) := []
  bibs : List (Nat × Nat) := []
  layout : Option (Nat × Nat) := none
  params : List W32 := []
  rejectCnt : Nat := 0
  crcErrCnt : Nat := 0
  gapCnt : Nat := 0
  faultTime : Nat := 0
  faultSw : Nat := 0
  faultKind : Nat := 0
  faultCount : Nat := 0
  rot : Nat := 0
  outOfTurn : Option Nat := none
  slots : Tbl W32 := []
  setPending : List (Nat × W32) := []
  snapAt : List Nat := []
  snapFrom : Nat := 0
  snapLatch : Option (List W32) := none
  snapSent : Nat := 0
  enumLeft : Nat := 0
  enumAt : Nat := 0
  segAt : Option Nat := none
  bypassed : Bool := false
  localRun : Bool := false
  timingT : Bool := false
  dH : Option Nat := none
  dT : Option Nat := none
  errRun : Nat := 0
  phase : Int := 0
  sentRec : List W32 := []
  sentEcho : Option (BitVec 56) := none
  sentEnum : Option (BitVec 56) := none
  sentSeg : List W32 := []
  deriving DecidableEq, Repr

/-- One list as Slalom issued it: assumed switch state before and after, commutations (start, leg, target: 0 off,
1 HIGH on, 2 LOW on), h and final level of R250 and R253; `none?`: it was NOLIST. -/
structure Issue where
  at? : Option Nat := none
  start : Nat := 0
  stop : Nat := 0
  comms : List (Nat × Nat × Nat) := []
  h : W32 := 0
  lam : Int := 0
  nolist : Bool := true
  deriving DecidableEq, Repr

/-- Slalom's own record of one cell (R163, R174, R191): assumed switch state and level, lists issued (newest first, three
kept), the zero vector of the last entry to level 0, ineligible through stride `resyncTo`, a resynchronisation that no list has made yet (`rsDue`), last committed MODE, the
volt-second entries its list leaves (R199). -/
structure SlCell where
  sw : Nat := 0
  level : Int := 0
  hist : List Issue := []
  zeroVec : Nat := 0
  resyncTo : Option Nat := none
  rsDue : Bool := false
  mode : Nat := 0
  vsNew : List (Nat × W32) := []
  clipNew : W32 := 0
  dropDue : Bool := false
  deriving DecidableEq, Repr

/-- Slalom's record of one limb (R185 to R187). -/
structure SlLimb where
  r : W32 := 0
  clip : W32 := 0
  status0 : W32 := 0
  overrunAt : Option Nat := none
  deriving DecidableEq, Repr

/-- The Slalom scheduler: committed CELL_CMD records of this stride by cell, committed LIMB_REF by limb, CMD_ERR by
squad. -/
structure Slalom where
  cmd : Tbl (List W32) := []
  ref : Tbl (List W32) := []
  cells : Tbl SlCell := []
  limb : Tbl SlLimb := []
  cmdErr : Tbl Nat := []
  deriving DecidableEq, Repr

/-- A law entry of an image (Table 6-12). -/
structure Law where
  id : Nat
  modes : Nat
  fromMask : Nat
  start : Nat
  len : Nat
  cycles : Nat
  integMask : Nat
  outMask : Nat
  bind : List Nat
  bindEn : Nat
  deriving DecidableEq, Repr

/-- A program bank: its 1,024 words and what the image's header says of them (R231). -/
structure Bank where
  words : Tbl W32 := []
  valid : Bool := false
  summit : Bool := false
  codeLen : Nat := 0
  constLen : Nat := 0
  tailStart : Nat := 0
  tailLen : Nat := 0
  tailCycles : Nat := 0
  laws : List Law := []
  init : Option (List W32) := none
  meas : List W32 := []
  deriving DecidableEq, Repr

/-- A value with the stride in which its producer wrote it (R225); `none`: never written. -/
structure Aged where
  val : W32 := 0
  at? : Option Nat := none
  deriving DecidableEq, Repr

/-- An exchange variable: the latest value and the one written in an earlier stride (R224). -/
structure Xvar where
  cur : Aged := {}
  prev : Aged := {}
  deriving DecidableEq, Repr

/-- Which section of the stride's sequence runs (R232). -/
inductive Section where
  | idle | active | shadow | tail
  deriving DecidableEq, Repr

/-- What a delivery changes, as it stood before it: put back where the stride is declared missed after all (R245). -/
structure Undo where
  mem : Tbl W32 := []
  hoPhase : Nat := 0
  trackRun : Nat := 0
  maxDelta : W32 := 0
  lastCycle : Nat := 0
  deriving DecidableEq, Repr

/-- One Carve engine (R204; `reloaded`: a standby bank was loaded since it failed, R237): lane memory word w of lane j at key 256 j + w; register r at 32 j + r; predicate p at
8 j + p; output o's flag at 16 j + o; `pos`: words of the running section issued; `ramp`: RAMP_STRIDES of its hand-over
(R238); `undo`: of the delivery of this stride. -/
structure Engine where
  bankA : Bank := {}
  bankB : Bank := {}
  activeB : Bool := false
  mem : Tbl W32 := []
  regs : Tbl W32 := []
  preds : Tbl Bool := []
  mirBack : Tbl Aged := []
  mirFront : Tbl Aged := []
  post : Tbl W32 := []
  postShadow : Tbl W32 := []
  limRan : Tbl Bool := []
  sect : Section := .idle
  law : Option Nat := none
  lastLaw : Option Nat := none
  shadowLaw : Option Nat := none
  hoPhase : Nat := 0
  trackRun : Nat := 0
  maxDelta : W32 := 0
  cyc : Nat := 0
  lastIssue : Option Nat := none
  lastCycle : Nat := 0
  delivered : Bool := false
  failed : Bool := false
  reloaded : Bool := false
  missStride : Option Nat := none
  nanLanes : Nat := 0
  nanStride : Option Nat := none
  eccCe : Nat := 0
  running : Bool := false
  pos : Nat := 0
  ramp : Nat := 100
  undo : Option Undo := none
  deriving DecidableEq, Repr

/-- A request to the memory controller: requester, bytes, and whether floor credit backs it (R36). -/
structure DdrReq where
  who : Nat
  bytes : Nat
  backed : Bool
  deriving DecidableEq, Repr

/-- The memory controller (R35 to R37, Table 1-9). Requesters: squads 0 to 31, 32 traveling-wave writer, 33 ledger unit,
34 snapshot assembler, 35 PCIe DMA, 36 Coach. `credit`: floor credit left in bytes; `asked`: requests not served yet, oldest
first; `done`: those served in the last stride, in their order; `turn`, `left`: the round robin; `ce`: corrected errors. -/
structure Ddr where
  credit : Tbl Nat := []
  asked : List DdrReq := []
  done : List DdrReq := []
  wLedger : Nat := 4
  wSnapshot : Nat := 2
  wDma : Nat := 8
  wCoach : Nat := 4
  turn : Nat := 0
  left : Nat := 1
  ce : Nat := 0
  deriving DecidableEq, Repr

/-- The exchange fabric: variables, weights of R32 and the round-robin position (user, turns left). `opened`: the stride in
which a window last opened; `rampWas`: RAMP_STRIDES in force in the stride before (R238). -/
structure Fabric where
  xvars : Tbl Xvar := []
  wCoach : Nat := 4
  wLedger : Nat := 4
  wSnapshot : Nat := 2
  wCarve : Nat := 6
  turn : Nat := 0
  left : Nat := 4
  served : Option Nat := none
  opened : Option Nat := none
  rampWas : Nat := 100
  ddr : Ddr := {}
  deriving DecidableEq, Repr

/-- What the ledger unit keeps of a cell beside its slot: the pipeline of R250 (h of the lists issued in S−1, S−2, S−3
and the level at the end of the last), stale run and last THS (R264), peak TJ of the history period, VS_CLIPPED and
VS_DROPPED (R197), the life added since the last checkpoint (LIFE_INC, R279), and whether the slot was ACTIVE. -/
structure LedCell where
  has : Bool := false
  h1 : W32 := 0
  h2 : W32 := 0
  h3 : W32 := 0
  lam : Int := 0
  staleRun : Nat := 0
  lastThs : Int := 0
  tjPeak : Option W32 := none
  clipped : W32 := 0
  dropped : W32 := 0
  lifeInc : List Nat := []
  wasActive : Bool := false
  deriving DecidableEq, Repr

/-- Derating of one limb (R274, Table 7-9). -/
structure LedLimb where
  k : Nat := 0
  since : Nat := 0
  below : Nat := 0
  hot : W32 := 0
  tjOver : Bool := false
  deriving DecidableEq, Repr

/-- One coolant loop (R265): values in use, values reported for the next boundary, stride of the last report. -/
structure Coolant where
  temp : W32 := 0
  scale : W32 := 0x3F800000
  next : Option (W32 × W32) := none
  lastAt : Option Nat := none
  stale : Bool := false
  deriving DecidableEq, Repr

/-- A life checkpoint (R279): TAI stride of writing, interval in strides, ORDERLY, the records (cell, serial low and
high, LIFE words, G_EST, CAP_VALID, LIFE_INC words) and the SHAKE256 digest. -/
structure Ckpt where
  at? : Option Nat := none
  interval : Nat := 0
  orderly : Bool := false
  cells : List (Nat × List W32) := []
  digest : List W32 := []
  deriving DecidableEq, Repr

/-- The ledger unit: slot words (Table 7-1, word k of cell n at 64 n + k), per cell, limb and loop, the history ring
(record of cell n of set i at 2048 i + n) and the stride of its last set, checkpoints of the two flash devices, a write in
progress, a write held by the supply monitor (ORDERLY, and whether only LEDGER_CHECKPOINT asks for it), the stride of the
last periodic checkpoint, chains already restored since Lift. -/
structure Ledger where
  words : Tbl W32 := []
  cells : Tbl LedCell := []
  limb : Tbl LedLimb := []
  loops : Tbl Coolant := []
  history : Tbl (List W32) := []
  histSets : Nat := 0
  histAt : Option Nat := none
  ckpts : Tbl Ckpt := []
  nextDev : Nat := 0
  writing : Option Ckpt := none
  heldCkpt : Option (Bool × Bool) := none
  periodicAt : Option Nat := none
  restored : Tbl Bool := []
  deriving DecidableEq, Repr

/-- Operating modes, by the codes of Table 8-1. -/
inductive Mode where
  | safe | charge | follow | form | coast | plough | service | discharge
  deriving DecidableEq, Repr

/-- One network side (Tables 8-8, 8-10, R304 to R317, R321). `srcState`: 0 OFF, 1 ACQUIRE, 2 LOCKED, 3 LOST; `fHist`:
FREQ of past strides, newest first, that of `fAt` at its head; `ctrlPrev`: CTRL_ANGLE before that of stride `ctrlAt`; `acc`: the free-running accumulator; `corr`: the correction c of R314,
last set in stride `corrAt`; `clAt`: the stride in which CL_LEFT was last set; `acqAt`: the stride in which ACQUIRE was last entered. -/
structure Side where
  srcState : Nat := 0
  live : Bool := true
  liveRun : Nat := 0
  deadRun : Nat := 0
  okRun : Nat := 0
  badRun : Nat := 0
  enterRun : Nat := 0
  ctrl : W32 := 0
  step : W32 := 0
  src : W32 := 0
  loop : W32 := 0
  freq : W32 := 0
  rocof : W32 := 0
  vmag : W32 := 0
  vneg : W32 := 0
  fHist : List W32 := []
  fAt : Nat := 0
  ctrlPrev : W32 := 0
  ctrlAt : Nat := 0
  free : Bool := false
  fHold : W32 := 0
  acc : Nat := 0
  jumpClass : Nat := 0
  corr : Int := 0
  correcting : Bool := false
  class3At : Option Nat := none
  cl : Bool := false
  clLeft : Nat := 0
  clAt : Nat := 0
  corrAt : Nat := 0
  syncOk : Bool := false
  syncRun : Nat := 0
  acqAt : Nat := 0
  deriving DecidableEq, Repr

/-- The mode manager (chapter 8). `imm`: cause of an immediate stop noted in stride `immAt`, that takes SAFE at the next
boundary; `stopAt`: B0 of the running orderly stop; `orderly`: cause of an orderly stop that starts at the boundary after
`orderlyAt`; `safeRun`, `safeRunAll`: strides with every verified cell of the configured limbs, of the device, discharged; `coastDue`: a side that met
R310 and the stride; `classifyAt`: the boundary R of R312; `jumpAt`: R of a running jump block. -/
structure Modes where
  mode : Mode := .safe
  prev : Mode := .safe
  phase : Nat := 0
  enteredAt : Nat := 0
  phaseAt : Nat := 0
  pMode : W32 := 0
  stop : Bool := false
  stopLeft : Nat := 0
  stopCause : Nat := 0
  stopAt : Nat := 0
  p0 : W32 := 0
  imm : Option Nat := none
  immAt : Nat := 0
  orderly : Option Nat := none
  orderlyAt : Nat := 0
  stopLen : Nat := 0
  coastDue : List (Nat × Nat) := []
  settleRun : Nat := 0
  safeRun : Nat := 0
  safeRunAll : Nat := 0
  roundOver : Bool := false
  roundFailed : List Nat := []
  coastStrides : Nat := 0
  returnCount : Nat := 0
  classifyAt : Option Nat := none
  returnAt : Option Nat := none
  jumpAt : Option Nat := none
  syncAt : Option Nat := none
  sides : Tbl Side := []
  deriving DecidableEq, Repr

/-- One window comparator (R325 to R331): input of the last sample in sixteenths of a code, raw state and last 15 raw
samples of each side (bit 0 newest), filtered states, latch, self-test flags. -/
structure Comp where
  input : Nat := 0
  rawHi : Bool := false
  rawLo : Bool := false
  histHi : Nat := 0
  histLo : Nat := 0
  fHi : Bool := false
  fLo : Bool := false
  latched : Bool := false
  failed : Bool := false
  testing : Bool := false
  asserts : Nat := 0
  evAt : Option Nat := none
  passedAt : Option Nat := none
  deriving DecidableEq, Repr

/-- One copy of the trip matrix (R335, R336). `line`: its block line; `burst`: the 64-slot burst runs. -/
structure MatrixCopy where
  tripped : Bool := false
  cause : BitVec 72 := 0
  first : BitVec 72 := 0
  line : Bool := false
  deriving DecidableEq, Repr

/-- One local leg with its short-circuit detector. States: 0 off, 1 low side on, 2 high side on. Times are samples of
1.25 ns counted as stride × 8,000 + offset. `ins`: an inserted refresh (0) or precharge (1) and its phase. -/
structure Leg where
  len : Bool := false
  lp : Bool := false
  cmd : Nat := 0
  target : Nat := 0
  lpAt : Option Nat := none
  onAt : Option Nat := none
  fellAt : Option Nat := none
  riseAt : Option Nat := none
  offSince : Option Nat := none
  highAcc : Nat := 0
  accFrom : Nat := 0
  deferred : Bool := false
  ins : Option (Nat × Nat) := none
  atBoundary : Nat := 0
  frozenOff : Bool := false
  rejects : Nat := 0
  defers : Nat := 0
  refreshes : Nat := 0
  refreshed : Bool := false
  starveRun : Nat := 0
  starveTold : Bool := false
  sc : Bool := false
  hardOn : Bool := false
  hardRun : Nat := 0
  scOn : Bool := false
  scRun : Nat := 0
  blank : Bool := false
  scSeen : Bool := false
  blankCnt : Nat := 0
  blankEvAt : Option Nat := none
  deriving DecidableEq, Repr

/-- States of Table 10-7, by the codes of Table 10-8. -/
inductive DriveSt where
  | off | catch | brake | align | openLoop | run | recover | halted | fault
  deriving DecidableEq, Repr

/-- One coolant drive (R378 to R388). `since`: stride of entry into the state; `window`: a catch window runs; `phaseAt`: stride in
which the window or the braking interval began; `crossAt`, `commAt`, `loopAt`: samples of the last crossing, commutation and
speed-loop step; `sampled`: the last current sample. -/
structure Drive where
  st : DriveSt := .off
  since : Nat := 0
  window : Bool := false
  setpoint : W32 := 0
  ref : W32 := 0
  integ : W32 := 0
  u : W32 := 0
  sector : Nat := 0
  speed : W32 := 0
  current : W32 := 0
  peak : W32 := 0
  sectorMs : W32 := 0
  commDue : Bool := false
  crossRun : Nat := 0
  missRun : Nat := 0
  disagree : Nat := 0
  lastCross : Nat := 0
  forced : W32 := 0
  keBad : Bool := false
  sensorless : Bool := false
  sensorlessNext : Bool := false
  limited : Bool := false
  limNow : Bool := false
  recoveries : List Nat := []
  angle : W32 := 0
  resSpeed : W32 := 0
  resValid : Bool := false
  offset : W32 := 0
  phaseAt : Nat := 0
  crossAt : Nat := 0
  commAt : Nat := 0
  loopAt : Option Nat := none
  sampled : W32 := 0
  deriving DecidableEq, Repr

/-- One chopper (R353, R354): requested since sample `reqAt`, in its on-time, held until the next boundary, energy as of stride
`updAt`, stopped. -/
structure Chop where
  requested : Bool := false
  reqAt : Nat := 0
  on : Bool := false
  rest : Bool := false
  eAcc : W32 := 0
  updAt : Option Nat := none
  limited : Bool := false
  deriving DecidableEq, Repr

/-- One GOOSE subscription (R356, R357); `expires`: the stride at which timeAllowedToLive runs out. -/
structure Goose where
  seen : Bool := false
  stNum : W32 := 0
  sqNum : W32 := 0
  request : Bool := false
  stale : Bool := false
  expires : Nat := 0
  deriving DecidableEq, Repr

/-- What the avalanche filter gathers (R358): a blocked cell with its cause, a silent cell, a new cell fault with its
kind, a port whose receive was lost. -/
inductive AvReport where
  | blocked (cell cause : Nat)
  | silent (cell : Nat)
  | fault (cell kind : Nat)
  | rxLost (port : Nat)
  deriving DecidableEq, Repr

/-- An open avalanche (R359). -/
structure Avalanche where
  s0 : Nat
  reports : List AvReport
  deriving DecidableEq, Repr

/-- The local-leg frame (Table 1-2): stride, pair role, edges, speed setpoints, resolver angle and speed of each drive,
configuration writes, trip requests for inputs 66 and 67. -/
structure LegFrame where
  stride : Nat := 0
  role : Nat := 0
  edges : List W32 := []
  setpoints : List W32 := []
  resolvers : List (Option (W32 × W32)) := []
  writes : List (Nat × Nat × List W32) := []
  trip66 : Bool := false
  trip67 : Bool := false
  deriving DecidableEq, Repr

/-- The Patrol die's protection, local legs and drives, and the Summit's share of them (chapters 9 and 10). `burst`: the sample in
which the 64-slot burst of a trip began; `differAt`: that since which the copies differ; `clearLegs`: legs that a cleared trip
holds until the next boundary (R350); `missAt`: stride of the last missing frame.
`statusAt`: stride in which the last status frame came that passed its CRC, `status`: its words; `heldFor`: strides the Summit die has been in reset; `lossLine`: Patrol holds the
block lines for the loss of the Summit die (R42). `prpSeen`: source,
sequence number and stride of frames that a PRP pair took. -/
structure Prot where
  inputs : BitVec 72 := 0
  comps : Tbl Comp := []
  captures : List (List W32) := []
  capLost : Nat := 0
  ownOsc : Bool := true
  copyA : MatrixCopy := {}
  copyB : MatrixCopy := {}
  burst : Option Nat := none
  differAt : Option Nat := none
  clearLegs : BitVec 16 := 0
  seen : BitVec 72 := 0
  tripId : Nat := 0
  matrixFault : Bool := false
  crcBad : Bool := false
  pcfgBad : Bool := false
  legs : Tbl Leg := []
  legEdges : List W32 := []
  shadow : LegFrame := {}
  sent : Option LegFrame := none
  got : Bool := false
  missed : Nat := 0
  missAt : Option Nat := none
  role : Nat := 0
  writes : List (Nat × Nat × List W32) := []
  want66 : Bool := false
  therm66 : Bool := false
  sysOut : Bool := false
  summitLost : Bool := false
  summitReset : Bool := false
  heldFor : Nat := 0
  resetAt : Option Nat := none
  patrolLost : Bool := false
  restartAt : Option Nat := none
  statusMissed : Nat := 0
  statusAt : Nat := 0
  status : List W32 := []
  lossLine : Bool := false
  drives : Tbl Drive := []
  chops : Tbl Chop := []
  goose : Tbl Goose := []
  prpSeen : List (Nat × Nat × Nat) := []
  avs : List Avalanche := []
  avRoots : List (List W32) := []
  avId : Nat := 0
  avMaps : List (Nat × List W32) := []
  stops : List (Nat × W32) := []
  testQueue : List (Nat × Option (Nat × Nat)) := []
  frozen : Bool := false
  deriving DecidableEq, Repr

/-- The pair manager (chapter 11). Roles by the codes of Table 11-1. `roleDue`: the role of the next boundary; `left`:
NONE by PAIR_LEAVE; `delay`, `steer` (the lead's counter less this one) in ps; `held`: the link is held down; `peerSolo`:
the other unit announces RANK 0; `peerStep`: the last STEP received, in stride `peerAt`, and the last of a unit that
commands, in `peerCmdAt`; `bibSeen`: greatest epoch heard; `aliveAt`: a record showed a cell at work or commanded; `cmdAt`:
a command frame was sent; `giveUp`: a supply or thermal cause of R408; `joining`: boundary of a running join; `joinedAt`:
first stride of a partner's work; `installed`: cells whose ledger slot came by SYNC, `derated`: limbs whose derating
state did; `syncNext`: slots the lead has sent; `syncWait`: slots
that wait for the ledger step of their stride, the last of which was of `ledAt`; `feedDue`: FEED_MASK and FEED_AUTO of the next boundary; `feedAsk`: chains
whose feed the lead asks for, `asked`: those this lead asks for; `inputs`, `meas`, `cmds`: INPUT, MEAS and CMD received, by stride; `failed`: frames (kind,
stride, key) that failed their CRC once and are asked for again; `lost`: strides with a frame lost; `resent`: frames sent
again; `sent`: frames sent (kind, stride, key, words) that may be asked for again; `laneTurn`: frames striped so far; `workAt`: last stride whose work is done, `cmpAt`: whose digests were compared. -/
structure PairS where
  role : Nat := 0
  roleDue : Option Nat := none
  left : Bool := false
  epoch : Nat := 0
  stored : Nat := 0
  storeDue : Bool := false
  up : Bool := false
  held : Bool := false
  lanes : Nat := 0
  delay : Nat := 0
  timeSent : Option Nat := none
  peerRank : Nat := 0
  peerSolo : Bool := false
  peerStep : List W32 := []
  peerAt : Option Nat := none
  peerCmdAt : Option Nat := none
  inStep : Bool := false
  matchRun : Nat := 0
  strikes : Nat := 0
  struckAt : Option Nat := none
  alignOk : Bool := false
  alignRun : Nat := 0
  alignBad : Nat := 0
  bibSeen : Nat := 0
  aliveAt : Option Nat := none
  cmdAt : Option Nat := none
  localFault : Bool := false
  giveUp : Bool := false
  handover : Option Nat := none
  relinquish : Bool := false
  joining : Option Nat := none
  joinedAt : Nat := 0
  installed : Tbl Bool := []
  derated : Tbl Bool := []
  syncNext : Nat := 0
  syncWait : List (Nat × Nat × List W32) := []
  ledAt : Option Nat := none
  feedDue : Option (Nat × Bool) := none
  feedAsk : Nat := 0
  asked : Nat := 0
  feeding : Nat := 0
  feedLimitAt : Option Nat := none
  inputs : List (Nat × Nat × List W32) := []
  meas : List (Nat × List W32) := []
  cmds : List (Nat × Nat × List W32) := []
  failed : List (Nat × Nat × Nat) := []
  lost : List Nat := []
  naks : List (Nat × Nat × Nat) := []
  resent : List (Nat × Nat × Nat) := []
  inDigest : Nat := 0
  outDigest : Nat := 0
  workAt : Option Nat := none
  cmpAt : Option Nat := none
  stepSent : List W32 := []
  inputSent : Tbl (List W32) := []
  measSent : List W32 := []
  laneTurn : Nat := 0
  sent : List (Nat × Nat × Nat × List W32) := []
  cmdSent : List (Nat × Nat × List W32) := []
  steer : Int := 0
  dualUntil : Option Nat := none
  deriving DecidableEq, Repr

/-- One safety output (R431 to R435). `st`: STATE of Table 12-5; `test`: the switch under test (0 high side, 1 low side);
`hPassed`, `lPassed`: the switch has passed a test since it was flagged; `stepAt`: stride in which the arming step or the test began. -/
structure SafeOut where
  st : Nat := 0
  armed : Bool := false
  high : Bool := false
  low : Bool := false
  hFault : Bool := false
  lFault : Bool := false
  stuckOff : Bool := false
  armFail : Nat := 0
  armStep : Nat := 0
  test : Option Nat := none
  testLow : Bool := false
  testCnt : Nat := 0
  hPassed : Bool := false
  lPassed : Bool := false
  stepAt : Nat := 0
  deriving DecidableEq, Repr

/-- A safety-configuration session (R444): operator label, staged entries, stride of the last command. -/
structure CfgSession where
  label : List W32
  staged : Tbl (List W32) := []
  lastAt : Nat := 0
  deriving DecidableEq, Repr

/-- Safe block, safety outputs, degradations and safety configuration (chapter 12). `pw`: salt and hash of R445; `sptA`, `sptB`:
strides of the last test pulses; `testAt`: that of the last output test; `dueDay`: the day of the last TEST_DUE check. -/
structure Safe where
  filtA : Bool := false
  filtB : Bool := false
  filtAAt : Nat := 0
  filtBAt : Nat := 0
  demand : Bool := false
  coreDemand : Bool := false
  failA : Nat := 0
  failB : Nat := 0
  passA : Nat := 0
  passB : Nat := 0
  sptA : Option Nat := none
  sptB : Option Nat := none
  out : Tbl SafeOut := []
  nextTest : Nat := 0
  testAt : Option Nat := none
  dueDay : Option Nat := none
  degr : BitVec 8 := 0
  degrBefore : Option (BitVec 8) := none
  degrItem : W32 := 0
  degrItem4 : W32 := 0
  degrAt : Tbl Nat := []
  degrSince : Option Nat := none
  expired : Bool := false
  backstop : Bool := false
  pw : Option (List Nat × List Nat) := none
  session : Option CfgSession := none
  commitDue : List (Nat × List W32) := []
  fails : Nat := 0
  lockUntil : Option Nat := none
  log : List (List W32) := []
  logSeq : Nat := 0
  deriving DecidableEq, Repr

/-- One source of time (R462): consecutive consistent and failed measurements, offset of the source against the counter at
the last measurement in ps, whether the servo has still to take that measurement, and the label of the last pulse or
frame (time of a pulse in ps of the counter, seconds of a frame), and the stride of the last measurement. -/
structure TimeSrc where
  qualified : Bool := false
  good : Nat := 0
  bad : Nat := 0
  offset : Int := 0
  fresh : Bool := false
  lastMark : Option Int := none
  at? : Option Nat := none
  deriving DecidableEq, Repr

/-- The selected grandmaster (R464): station port, clock identity, data set in comparison order, inaccuracy in ns. -/
structure Gm where
  port : Nat
  id : Nat
  dataset : List Nat
  inaccuracy : Nat := 0
  deriving DecidableEq, Repr

/-- The TAI counter (Table 13-1), the servo (Table 13-4), SYNCI and SYNCO, PPS_OUT. INCR and the period estimate in
2^-32 ns, the slew in 0.001 ppm, offsets in ps, `left` (what the slew has still to remove) in 0.01 ps. `pairStepAt`: stride
of the last pair step; `incrAt`: at whose boundary INCR was set. `leapAdj`: leap
seconds since TIME_CFG was written. States and sources by the codes of Table 13-11. `estHist`: estimates of the last 60 s with their strides. -/
structure TimeS where
  sec : Nat := 0
  ns : Nat := 0
  sub : Nat := 0
  incr : Nat := 10737418240
  est : Nat := 10737418240
  estHist : List (Nat × Nat) := []
  slew : Int := 0
  state : Nat := 0
  src : Nat := 0
  srcs : Tbl TimeSrc := []
  okRun : Nat := 0
  left : Int := 0
  liftStep : Bool := true
  acquired : Bool := false
  lostAt : Option Nat := some 0
  holdAt : Option Nat := none
  holdDrift : W32 := 0
  steps : Nat := 0
  gm : Option Gm := none
  pdelay : Tbl Int := []
  syncRx : Option Int := none
  pdelayAnswers : Nat := 0
  utcOff : Option Int := none
  leap : Nat := 0
  leapAdj : Int := 0
  disagree : Bool := false
  refBad : Bool := false
  refOk : Bool := false
  leadState : Nat := 0
  synciOff : Int := 0
  synciRun : Nat := 0
  synciAt : Option Nat := none
  synciTold : Bool := false
  syncoAt : Option Nat := none
  ppsAt : Option Nat := none
  pairStepAt : Option Nat := none
  incrAt : Option Nat := none
  deriving DecidableEq, Repr

/-- One synthesizer (R471 to R474, Table 13-12). `bands`: settings found with the diode temperature of the search. -/
structure Synth where
  locked : Bool := false
  holding : Bool := true
  bandSrc : Bool := false
  relocks : Nat := 0
  lockUs : Nat := 0
  setting : W32 := 0
  bands : List (W32 × Int) := []
  deriving DecidableEq, Repr

/-- One station port (Table 13-6): its link, and the stride of its last PRP supervision frame (R465). -/
structure NetPort where
  link : Bool := false
  supervised : Option Nat := none
  deriving DecidableEq, Repr

/-- The Sense bridge (R479, R481): corrected samples of the latest stride by precision channel, and `hist`: those of the last 40,000
strides with their numbers, newest first, for the windows of the phasor estimator; the two rings of R495 with the
stride of each block: codes 12 k + h, decimated values 16 j + c. -/
structure Sense where
  lost : Bool := false
  gotAt : Option Nat := none
  samples : Tbl (List W32) := []
  hist : List (Nat × List (List W32)) := []
  hsRing : Tbl (Nat × List Nat) := []
  precRing : Tbl (Nat × List W32) := []
  deriving DecidableEq, Repr

/-- A data frame of a stream (R485, R486) by its items. -/
structure PmuFrame where
  idcode : Nat
  soc : Nat
  fracsec : Nat
  quality : Nat
  stat : Nat
  phasors : List (W32 × W32)
  freq : W32
  dfreq : W32
  analogs : List W32
  digital : Nat
  deriving DecidableEq, Repr

/-- One phasor stream. `on`: turned on by command; `tcp`: a client is connected; `names`: station and channel names, 4 words each;
`frame`: the last data frame sent, `wire`: its octets; `reply`: the octets of the last CFG-1 or CFG-2 frame; `answered`: command frames answered, by kind. -/
structure Pmu where
  cfgcnt : Nat := 0
  cfgAt : Option Nat := none
  on : Bool := false
  tcp : Bool := false
  names : List W32 := []
  frame : Option PmuFrame := none
  wire : List Nat := []
  reply : List Nat := []
  frames : Nat := 0
  answered : Tbl Nat := []
  deriving DecidableEq, Repr

/-- One arrival (R490): time in 10 ns of the counter, mode, peak, 128 samples of the three channels. -/
structure Arrival where
  time : Nat
  mode : Nat
  peak : W32
  samples : List (W32 × W32 × W32)
  deriving DecidableEq, Repr

/-- An event of a line, open or closed (R491 to R494). `cfg`: the line's entry; `closeAt`: the end of its window in 10 ns;
`tag`: the accepted remote tag's time in 10 ns and its TIME_OK; `outside`: a tag came that lies outside the line. -/
structure TwEvent where
  id : Nat := 0
  line : Nat := 0
  cfg : List W32 := []
  closed : Bool := false
  closeAt : Nat := 0
  arrivals : List Arrival := []
  overflow : Bool := false
  step : Bool := false
  recId : Option Nat := none
  timeOk : Bool := false
  tag : Option (Nat × Bool) := none
  outside : Bool := false
  done : Bool := false
  payload : List W32 := []
  deriving DecidableEq, Repr

/-- Traveling waves: the open event of each line, the end of its HOLDOFF, the number of its last peak sample, the last 256
events (newest first), the last tag frame sent. -/
structure Tw where
  lines : Tbl (Option TwEvent) := []
  peaks : Tbl (Option Nat) := []
  holdoff : Tbl (Option Nat) := []
  events : List TwEvent := []
  nextId : Nat := 0
  tagSeq : W32 := 0
  sentTag : List W32 := []
  deriving DecidableEq, Repr

/-- A record open or stored (R497, Table 11): trigger entries (stride, kind, detail). -/
structure RecordR where
  id : Nat
  start : Nat
  stop : Nat
  trigs : List (Nat × Nat × Nat) := []
  kinds : Nat := 0
  trunc : Bool := false
  step : Bool := false
  complete : Bool := false
  prec : List W32 := []
  tw : List (List W32) := []
  deriving DecidableEq, Repr

/-- The recorder: open records, closed records to be copied, the store (oldest first); per kind 3 to 5 the strides its
condition has still to stay away; the last trigger's stride and kind; triggers of this stride, with detail. -/
structure Recorder where
  openRecs : List RecordR := []
  closing : List RecordR := []
  store : List RecordR := []
  nextId : Nat := 0
  quiet : Tbl Nat := []
  trigAt : Option (Nat × Nat) := none
  notes : List (Nat × Nat) := []
  deriving DecidableEq, Repr

/-- One rail of Table 15-3; times in µs of the counter. `dipAt`: the dip that stands began; `vMin`: lowest voltage in mV;
`lastEnd`, `lastBegin`, `lastMin`, `lastLong`: the dip before; `crossed`: below the reset threshold since the dip began;
`long`: the dip has reached 2 ms. -/
structure Rail where
  dipAt : Option Nat := none
  vMin : Nat := 0
  lastEnd : Option Nat := none
  lastBegin : Nat := 0
  lastMin : Nat := 0
  crossed : Bool := false
  long : Bool := false
  lastLong : Bool := false
  deriving DecidableEq, Repr

/-- Lift (Tables 15-1 and 15-2), rails and dips, device power and the thermal monitor (Tables 15-7 to 15-9). `readings`:
the diode in 1/64 °C, newest first; `shed`: position on the ladder of Table 15-8, 5 to 11 being the repetitions of step 5;
`afterShut`: since a shutdown T has not fallen below 110 °C; `capDue`: a lead's CAP_FACTOR of the next boundary;
`stageAt`: stride in which
the last stage was reached; `senseResetAt`: the Sense die's reset in µs of the counter; `thermAt`: stride of the last reading of the diode, `evalAt`: of the
last evaluation of n; `ringEvery`: the ring stores strides that are its multiples, 0 none. -/
structure Supply where
  good : Bool := false
  stage : Nat := 0
  patrolBank : Bool := false
  coachBank : Bool := false
  pcfgOk : Bool := false
  coachOk : Bool := false
  fail : Nat := 0
  liftMs : Nat := 0
  stageAt : Nat := 0
  rails : Tbl Rail := []
  dips : List (List W32) := []
  dipsDue : List (List W32) := []
  granted : Nat := 78000
  readings : List Int := []
  temp : Int := 0
  badRun : Nat := 0
  okRun : Nat := 0
  diodeFault : Bool := false
  warn : Bool := false
  throttle : Bool := false
  shutdown : Bool := false
  hard : Bool := false
  afterShut : Bool := false
  n : Nat := 0
  shed : Nat := 0
  ringEvery : Nat := 1
  capFactor : W32 := 0x3F800000
  capDue : Option W32 := none
  stopBy : Option Nat := none
  senseReset : Bool := false
  senseResetAt : Nat := 0
  thermAt : Option Nat := none
  evalAt : Option Nat := none
  deriving DecidableEq, Repr

/-- One event record before it is laid out in 16 words (Table 16-5). -/
structure EvRec where
  code : Nat
  seq : W32
  stride : Nat
  payload : List W32
  deriving DecidableEq, Repr

/-- One on-die event queue (R40): oldest entry first, and the events lost or held back. -/
structure EvQueue where
  q : List EvRec := []
  lost : Nat := 0
  deriving DecidableEq, Repr

/-- The event machinery of R40, R41, R539 and the log of R543 (newest record first). -/
structure Events where
  queues : Tbl EvQueue := []
  seq : W32 := 0
  log : List EvRec := []
  deriving DecidableEq, Repr

/-- What a waiting command holds (R535). -/
inductive Obj where
  | cfg (struct index : Nat)
  | cell (n : Nat)
  | chain (p : Nat)
  | engine (e : Nat)
  | leg (l : Nat)
  | drive (d : Nat)
  | safetyOut (k : Nat)
  | snapshot (id : Nat)
  | record (id : Nat)
  | flash
  | comparator (k : Nat)
  deriving DecidableEq, Repr

/-- A command that waits and the objects it holds (R535), `since` the stride it began to. -/
structure Waiting where
  h : Hdr
  op : Nat
  objs : List Obj
  data : List W32 := []
  since : Nat := 0
  deriving DecidableEq, Repr

/-- A bulk command and the bytes it transfers (R544), with the argument words its response begins with; `uses`: the stored item
it reads; `window`: START of the high-speed window it reads from its ring (R498). -/
structure Bulk where
  h : Hdr
  data : List W32
  pre : List W32 := []
  uses : Option Obj := none
  window : Option Nat := none
  deriving DecidableEq, Repr

/-- A pending action of a named boundary (R50, R51, R537). -/
inductive ActKind where
  | snapshot (id : Nat)
  | calibration (struct index : Nat)
  | config (struct index : Nat) (words : List W32)
  | swap (engines : List Nat) (keep : Bool)
  | mode (m : Mode) (ack : Bool)
  | timeStep (delta : Option Int)
  | join
  | handover
  | calibImage (bank : Nat)
  deriving DecidableEq, Repr

/-- The action, its boundary, the command it reports to and the stride of acceptance. -/
structure Action where
  boundary : Nat
  kind : ActKind
  op : Nat
  h : Hdr
  since : Nat := 0
  deriving DecidableEq, Repr

/-- The direct register block, mailboxes, event ring, DMA and session (chapter 16). `kickAt`: stride in which the watchdog was
last restarted; `unsigAt`: of the first unsignalled record; `dmaOut`: what the last bulk transfer put at which host addresses. -/
structure HostIf where
  req : Bool := false
  wdogTrip : Bool := false
  linkTrip : Bool := false
  badKey : Nat := 0
  wdogPeriod : Nat := 0
  linkArm : Bool := false
  kicks : Nat := 0
  kickAt : Nat := 0
  requests : Tbl (List W32) := []
  responses : Tbl (List W32) := []
  busy : BitVec 8 := 0
  done : BitVec 8 := 0
  held : List Nat := []
  coachUp : Bool := false
  restarts : Nat := 0
  dbErr : Nat := 0
  sessionOpen : Bool := false
  sessionAccepted : Bool := false
  sessionId : W32 := 0
  hostVer : Nat := 0
  features : Nat := 0
  evBaseLo : W32 := 0
  evBaseHi : W32 := 0
  evEn : Bool := false
  evFull : Bool := false
  coalN : Nat := 1
  coalT : Nat := 10
  log2N : Nat := 10
  head : Nat := 0
  tail : Nat := 0
  phase : Bool := true
  unsignalled : Nat := 0
  unsigAt : Nat := 0
  dmaOut : List (Nat × List W32) := []
  ringOut : Tbl (List W32) := []
  msix : Tbl Nat := []
  channels : Tbl (Option Bulk) := []
  bulkWait : List Bulk := []
  waiting : List Waiting := []
  actions : List Action := []
  hostVars : List (List (Nat × W32)) := []
  deriving DecidableEq, Repr

/-- A stored image: whether it verified, its last reject reason, its words (R558, Table 17-8). -/
structure Image where
  valid : Bool := false
  reason : Nat := 0
  words : List W32 := []
  deriving DecidableEq, Repr

/-- A debug authorization (R578, R579): scope, and the stride at which its duration ends. -/
structure DebugAuth where
  scope : Nat
  endAt : Nat
  deriving DecidableEq, Repr

/-- Who owns the flash bus (Table 1-2): one owner at a time; `free`: released by Patrol, not taken by the Coach (R20). -/
inductive BusOwner where
  | patrol | free | coach
  deriving DecidableEq, Repr

/-- The states of the test access port of IEEE 1149.1. -/
inductive Tap where
  | reset | idle | selectDr | captureDr | shiftDr | exit1Dr | pauseDr | exit2Dr | updateDr
  | selectIr | captureIr | shiftIr | exit1Ir | pauseIr | exit2Ir | updateIr
  deriving DecidableEq, Repr

/-- The instruction of the port: the two that it always answers, or one that an authorization opens (R577). -/
inductive DbgInsn where
  | idcode
  | bypass
  | opened (code : List Bool)
  deriving DecidableEq, Repr

/-- The debug access port: the level of DBG_TCK at the last look (pulled up, R588), the state, the instruction, the register
that shifts, low bit first, DBG_TDO (none: high impedance), and the number of looks, which is the model's own. -/
structure DebugPort where
  tck : Bool := true
  tap : Tap := .reset
  insn : DbgInsn := .idcode
  shift : List Bool := []
  tdo : Option Bool := none
  looks : Nat := 0
  deriving DecidableEq, Repr

/-- Image store, activation record, anti-rollback fuses and debug access (chapter 17). Images stand at key
kind × 128 + 2 × slot + device; for an A/B kind slot is 0 and device the bank. Bit kind − 1 of `active` is its active
bank, of `trial` its TRIAL flag, set in stride `trialAt`. -/
structure Trust where
  store : Tbl Image := []
  active : BitVec 8 := 0
  trial : BitVec 8 := 0
  trialAt : Tbl Nat := []
  svnOtp : Nat := 0
  flashFailed : BitVec 2 := 0
  challenge : Option (List W32 × Nat) := none
  auth : Option DebugAuth := none
  bus : BusOwner := .patrol
  deriving DecidableEq, Repr

/-- A snapshot (R553 to R556). `st`: 0 pending, 1 assembling, 2 finished; `slot`: its slot of the store; CHAIN_STATE of each
chain; latched ledger words and lane memories; segments at 8 × cell + segment; LADDER of each cell at B; maps and serials of
the cells requested; chains whose upload is closed; stride in which COMPLETE was set. -/
structure Snap where
  id : Nat
  boundary : Nat
  chains : Nat
  parts : Nat
  slot : Nat := 0
  st : Nat := 0
  result : Nat := 0
  chainState : Tbl Nat := []
  ledger : Tbl W32 := []
  lanes : Tbl (Tbl W32) := []
  segs : Tbl (Option (List W32)) := []
  ladder : Tbl Nat := []
  cellMaps : Tbl (List W32) := []
  serials : Tbl Nat := []
  closed : Nat := 0
  utc : Nat := 0
  utcNs : Nat := 0
  taiUtc : Int := 0
  doneAt : Nat := 0
  deriving DecidableEq, Repr

/-- The snapshot assembler: snapshots pending, assembling and kept (oldest first), next SNAP_ID. -/
structure Snaps where
  list : List Snap := []
  nextId : Nat := 0
  deriving DecidableEq, Repr

/-- The whole block: everything but the queue of waiting commands. -/
structure Block where
  host : HostIf := {}
  ev : Events := {}
  cfg : Tbl (List W32) := []
  staged : Tbl (List W32) := []
  nextCfg : List (Nat × Nat × List W32) := []
  time : TimeS := {}
  synth : Tbl Synth := []
  net : Tbl NetPort := []
  sup : Supply := {}
  sense : Sense := {}
  pmu : Tbl Pmu := []
  tw : Tw := {}
  recd : Recorder := {}
  snaps : Snaps := {}
  prot : Prot := {}
  md : Modes := {}
  safe : Safe := {}
  pair : PairS := {}
  trust : Trust := {}
  eng : Tbl Engine := []
  fab : Fabric := {}
  ports : Tbl Port := []
  chains : Tbl Chain := []
  cells : Tbl HubCell := []
  terms : Tbl CellTerm := []
  image : Tbl W32 := []
  slal : Slalom := {}
  led : Ledger := {}
  ring : Tbl (Nat × List W32) := []
  free : Nat := 0
  dbg : DebugPort := {}
  deriving DecidableEq, Repr

/-- The machine: the block and the commands that wait, first in, first out. -/
structure State where
  blk : Block := {}
  pending : List Instr := []
  deriving DecidableEq, Repr

/-- Reasons to stop with a fault. The spec gives the block none: a bad command ends with a status code and a bad
frame is counted and discarded, so no meaning raises one. -/
inductive Fault where
  /-- Raised by nobody; it stands here so that the type is not empty. Safe. -/
  | none
  deriving DecidableEq, Repr

/-- Reasons to refuse a command. -/
inductive Refusal where
  /-- Raised only by a dispatch arm that has no meaning yet, with the row's mnemonic. Safe. -/
  | notModelled (mnemonic : String)
  deriving DecidableEq, Repr

/-- The machine right after reset, before Lift begins. -/
def State.reset : State := {}

/-- A next state with the block changed by `f` and the queue untouched: the shape of every meaning. -/
def State.act (s : State) (f : Block → Block) : Host.Outcome State Fault Refusal :=
  .next { s with blk := f s.blk }

end Sys2Proof.Machine
end

