-- ==== Sys2Proof/Machine/Ops.lean ====
section
/-! DEFINITION. The named operations every family uses: event codes and queues (R40, R41, R539), the completion of
host commands (R534, R535, R546, R547), named boundaries (R50, R537), exchange variables and engine memories. -/

namespace Sys2Proof.Machine

/-- Event codes of Table 16-6 and chapter 17; the overflow event of a class is apart (R542). -/
inductive Ev where
  | trip | comp | avalanche | matrixFault | scBlanked | chopLimit
  | gooseBad | gooseStale | selftest | cellBlocked | cellFault | safeBlock
  | soFault | degraded | ploughExpired | ploughBackstop | deadlineMiss | engineFault
  | slalomOverrun | carveSat | carveSatFault | carveNan | handover | tjDerate
  | tjFault | mode | modeRefused | modeCancelled | jump | jumpDone
  | chargeDone | chargeFail | dischargeDone | dischargeFail | limbMin | gridLive
  | syncheckPass | syncheckFail | serviceUnverified | pairStepLost | pairDiverge | pairPromote
  | pairDemoted | action | linkUp | linkDark | linkRxLost | linkRetrain
  | chainRtt | uplinkLate | hopDelay | chainReady | chainMismatch | enumTimeout
  | descriptorBad | cellSilent | cellIntegrated | integrateFail | cellBypassed | bypassFail
  | cellReplaced | pairConfig | pairLink | pairFeedLimit | cellUnbypassed | unbypassFail
  | synciDev | synciLost | gridSource | refclk | timeStep | timeState
  | timeSource | timeLost | timeDisagree | tw | recorded | ddrUncorrectable
  | pllUnlock | senseLost | carveLoaded | carveSwapped | carveEcc | capDrift
  | coolantStale | lifeWarn | lifeEnd | ledgerCkptFail | cellRetired | ledgerRestored
  | bootStarve | driveStall | driveFault | driveLock | driveKe | pairEpoch
  | pairJoinFail | liftFail | supplyWarn | supplyDip | powerAdmit | thermDiode
  | thermWarn | throttle | thermShutdown | coachRestart | snapshot
  | imageWritten | imageRejected | imageActivated | imageReverted | imageLiftFail | svnAdvanced | debugOn | debugOff | recovery
  deriving DecidableEq, Repr

/-- The 16-bit code of an event. -/
def Ev.code : Ev → Nat
  | .trip => 0x0001
  | .comp => 0x0002
  | .avalanche => 0x0003
  | .matrixFault => 0x0004
  | .scBlanked => 0x0005
  | .chopLimit => 0x0006
  | .gooseBad => 0x0007
  | .gooseStale => 0x0008
  | .selftest => 0x0009
  | .cellBlocked => 0x000A
  | .cellFault => 0x000B
  | .safeBlock => 0x2001
  | .soFault => 0x2002
  | .degraded => 0x2003
  | .ploughExpired => 0x2004
  | .ploughBackstop => 0x2005
  | .deadlineMiss => 0x4001
  | .engineFault => 0x4002
  | .slalomOverrun => 0x4003
  | .carveSat => 0x4004
  | .carveSatFault => 0x4005
  | .carveNan => 0x4006
  | .handover => 0x4007
  | .tjDerate => 0x4008
  | .tjFault => 0x4009
  | .mode => 0x400A
  | .modeRefused => 0x400B
  | .modeCancelled => 0x400C
  | .jump => 0x400D
  | .jumpDone => 0x400E
  | .chargeDone => 0x400F
  | .chargeFail => 0x4010
  | .dischargeDone => 0x4011
  | .dischargeFail => 0x4012
  | .limbMin => 0x4013
  | .gridLive => 0x4014
  | .syncheckPass => 0x4015
  | .syncheckFail => 0x4016
  | .serviceUnverified => 0x4017
  | .pairStepLost => 0x4018
  | .pairDiverge => 0x4019
  | .pairPromote => 0x401A
  | .pairDemoted => 0x401B
  | .action => 0x401C
  | .linkUp => 0x6001
  | .linkDark => 0x6002
  | .linkRxLost => 0x6003
  | .linkRetrain => 0x6004
  | .chainRtt => 0x6005
  | .uplinkLate => 0x6006
  | .hopDelay => 0x6007
  | .chainReady => 0x6008
  | .chainMismatch => 0x6009
  | .enumTimeout => 0x600A
  | .descriptorBad => 0x600B
  | .cellSilent => 0x600C
  | .cellIntegrated => 0x600D
  | .integrateFail => 0x600E
  | .cellBypassed => 0x600F
  | .bypassFail => 0x6010
  | .cellReplaced => 0x6011
  | .pairConfig => 0x6012
  | .pairLink => 0x6013
  | .pairFeedLimit => 0x6014
  | .cellUnbypassed => 0x6015
  | .unbypassFail => 0x6016
  | .synciDev => 0x8001
  | .synciLost => 0x8002
  | .gridSource => 0x8003
  | .refclk => 0x8004
  | .timeStep => 0x8005
  | .timeState => 0x8006
  | .timeSource => 0x8007
  | .timeLost => 0x8008
  | .timeDisagree => 0x8009
  | .tw => 0x800A
  | .recorded => 0x800B
  | .ddrUncorrectable => 0xA001
  | .pllUnlock => 0xA002
  | .senseLost => 0xA003
  | .carveLoaded => 0xA004
  | .carveSwapped => 0xA005
  | .carveEcc => 0xA006
  | .capDrift => 0xA007
  | .coolantStale => 0xA008
  | .lifeWarn => 0xA009
  | .lifeEnd => 0xA00A
  | .ledgerCkptFail => 0xA00B
  | .cellRetired => 0xA00C
  | .ledgerRestored => 0xA00D
  | .bootStarve => 0xA00E
  | .driveStall => 0xA00F
  | .driveFault => 0xA010
  | .driveLock => 0xA011
  | .driveKe => 0xA012
  | .pairEpoch => 0xA013
  | .pairJoinFail => 0xA014
  | .liftFail => 0xA015
  | .supplyWarn => 0xA016
  | .supplyDip => 0xA017
  | .powerAdmit => 0xA018
  | .thermDiode => 0xA019
  | .thermWarn => 0xA01A
  | .throttle => 0xA01B
  | .thermShutdown => 0xA01C
  | .coachRestart => 0xA01D
  | .snapshot => 0xA01E
  | .imageWritten => 0xA101
  | .imageRejected => 0xA102
  | .imageActivated => 0xA103
  | .imageReverted => 0xA104
  | .imageLiftFail => 0xA105
  | .svnAdvanced => 0xA106
  | .debugOn => 0xA107
  | .debugOff => 0xA108
  | .recovery => 0xA109

/-- Status codes of Table 16-9. -/
inductive Status where
  | ok | badArg | unknownOp | feature | session | busy
  | notReady | wrongMode | noEndpoint | strideTooSoon | strideTooFar | timeStepped
  | rttExceeded | cyclesExceeded | imageBad | kindMismatch | limbSize | syncRequired
  | causeActive | timeout | flashFault | pairRole | pairConflict | soFault
  | noSession | locked | overwritten | supplyLow | powerCap | restarted
  | dmaFault | cancelled
  deriving DecidableEq, Repr

/-- The 16-bit code of a status. -/
def Status.code : Status → Nat
  | .ok => 0x0000
  | .badArg => 0x0001
  | .unknownOp => 0x0002
  | .feature => 0x0003
  | .session => 0x0004
  | .busy => 0x0005
  | .notReady => 0x0006
  | .wrongMode => 0x0007
  | .noEndpoint => 0x0008
  | .strideTooSoon => 0x0009
  | .strideTooFar => 0x000A
  | .timeStepped => 0x000B
  | .rttExceeded => 0x000C
  | .cyclesExceeded => 0x000D
  | .imageBad => 0x000E
  | .kindMismatch => 0x000F
  | .limbSize => 0x0010
  | .syncRequired => 0x0011
  | .causeActive => 0x0012
  | .timeout => 0x0013
  | .flashFault => 0x0014
  | .pairRole => 0x0015
  | .pairConflict => 0x0016
  | .soFault => 0x0017
  | .noSession => 0x0018
  | .locked => 0x0019
  | .overwritten => 0x001A
  | .supplyLow => 0x001B
  | .powerCap => 0x001C
  | .restarted => 0x001D
  | .dmaFault => 0x001E
  | .cancelled => 0x001F

/-! ### Stride number -/

/-- The stride in force, from the TAI counter (R47). -/
def now (b : Block) : Nat := m64 (b.time.sec * 100000 + b.time.ns / 10000)

/-- A unit that works one stride behind: a partner, and a relay whose ledger unit joins (R402, R419). -/
def lagging (b : Block) : Bool := b.pair.role == 3 || (b.pair.role == 4 && b.pair.joining.isSome)

/-- The stride whose work is done now (R402). -/
def work (b : Block) : Nat := if lagging b then m64 (now b + 2 ^ 64 - 1) else now b

/-- A fresh free word: the next value of the free sequence. -/
def fresh (b : Block) : W32 × Block := (Config.freeWord b.free, { b with free := b.free + 1 })

/-- `n` fresh free words. -/
def freshN (b : Block) (n : Nat) : List W32 × Block :=
  ((List.range n).map fun i => Config.freeWord (b.free + i), { b with free := b.free + n })

/-! ### Events -/

/-- Queue depth of a class (Table 1-11). -/
def evDepth (cls : Nat) : Nat :=
  match cls with
  | 0 => 1024
  | 1 => 256
  | 2 => 512
  | 3 => 512
  | _ => 256

/-- Put a record in its class queue: classes 0 and 1 keep what they hold and count the excess, the others drop and
count the oldest entry (Table 1-11). -/
def EvQueue.push (cls : Nat) (q : EvQueue) (r : EvRec) : EvQueue :=
  if q.q.length < evDepth cls then { q with q := q.q ++ [r] }
  else if cls ≤ 1 then { q with lost := q.lost + 1 }
  else { q := q.q.tail ++ [r], lost := q.lost + 1 }

/-- Raise an event by its code: queue of its class, next SEQ, event log (R40, R539, R543). -/
def raiseCode (code : Nat) (payload : List W32) (b : Block) : Block :=
  let r : EvRec := { code := code, seq := b.ev.seq, stride := now b, payload := payload.take 12 }
  { b with ev := { queues := Tbl.upd {} b.ev.queues (code / 8192) fun q => q.push (code / 8192) r
                   seq := b.ev.seq + 1
                   log := (r :: b.ev.log).take 1048576 } }

/-- Raise an event of Table 16-6 with its payload items (R541). -/
def raise (e : Ev) (payload : List W32) (b : Block) : Block := raiseCode e.code payload b

/-- The 16 words of an event record (Table 16-5). -/
def EvRec.words (r : EvRec) (phase : Bool) : List W32 :=
  [pack [fld r.code 31 16, flg phase 15, fld r.payload.length 14 11], r.seq] ++ w64 r.stride
    ++ (List.range 12).map fun i => word r.payload i

/-- A trigger of a kind of Table 14-10 for the recorder's evaluation of this stride. -/
def recNote (kind detail : Nat) (b : Block) : Block := { b with recd := { b.recd with notes := b.recd.notes ++ [(kind, detail)] } }

/-- Raise an MSI-X vector (Table 16-2): the count of its messages. -/
def msix (v : Nat) (b : Block) : Block :=
  { b with host := { b.host with msix := Tbl.upd 0 b.host.msix v (· + 1) } }

/-! ### Completion of host commands -/

/-- What a command comes to: done with its response arguments; done in part with a status and
response arguments; refused with no effect
and the DETAIL of Table 16-4; waiting on the objects it names; a bulk transfer of data, or one of a
stored item. -/
inductive CmdOut where
  | ok (b : Block) (args : List W32)
  | part (b : Block) (st : Status) (args : List W32)
  | fail (st : Status) (detail : Nat)
  | wait (b : Block) (objs : List Obj) (data : List W32)
  | bulk (b : Block) (pre data : List W32)
  | transfer (b : Block) (pre data : List W32) (uses : Option Obj) (window : Option Nat)

/-- No word of the arguments is in error (Table 16-4). -/
def noDetail : Nat := 0xFFFF

/-- The response of Table 16-4: written, DONE set, BUSY cleared, vector 1 (R534). -/
def complete (h : Hdr) (st : Status) (detail : Nat) (args : List W32) (b : Block) : Block :=
  let m := h.mbx.val
  let r := [pack [fld st.code 31 16, fld h.tag.toNat 15 0], pack [fld args.length 31 16, fld detail 15 0]] ++ args
  msix 1 { b with host := { b.host with
    responses := Tbl.set [] b.host.responses m r
    done := b.host.done ||| (1#8 <<< m)
    busy := b.host.busy &&& ~~~(1#8 <<< m) } }

/-- Whether an object is held by a waiting command (R535). -/
def held (b : Block) (o : Obj) : Bool := b.host.waiting.any fun w => w.objs.contains o

/-- Feature bit that governs a command group (Table 16-7). -/
def groupFeature (op : Nat) : Nat :=
  match op / 256 with
  | 4 => 1
  | 5 => 2
  | 6 => 3
  | 7 => 4
  | 8 => 5
  | 9 => 6
  | 10 => 7
  | _ => 0

/-- Whether a feature bit is in the accepted set. -/
def feature (b : Block) (k : Nat) : Bool := b.host.features.testBit k

/-- The status with which a command is turned away before it runs: the boot ROM's while FAIL = 4 (R576), else R546, R547. -/
def gate (b : Block) (op : Nat) : Option Status :=
  if b.sup.fail = 4 then some .notReady
  else if !b.host.sessionAccepted then some .session
  else if !feature b (groupFeature op) then some .feature
  else none

/-- Start a bulk transfer on a free channel of the four, or let it wait for one (R544). -/
def startBulk (x : Bulk) (b : Block) : Block :=
  match (List.range 4).find? fun c => (Tbl.get none b.host.channels c).isNone with
  | some c => { b with host := { b.host with channels := Tbl.set none b.host.channels c (some x) } }
  | none => { b with host := { b.host with bulkWait := b.host.bulkWait ++ [x] } }

/-- Carry out what a command came to. -/
def finish (h : Hdr) (op : Nat) (b : Block) : CmdOut → Block
  | .ok b' args => complete h .ok noDetail args b'
  | .part b' st args => complete h st noDetail args b'
  | .fail st d => complete h st d [] b
  | .wait b' objs data =>
    { b' with host := { b'.host with waiting := b'.host.waiting ++ [{ h := h, op := op, objs := objs, data := data, since := now b' }] } }
  | .bulk b' pre data =>
    if feature b 9 then startBulk { h := h, data := data, pre := pre } b' else complete h .feature noDetail [] b
  | .transfer b' pre data uses window =>
    if feature b 9 then startBulk { h := h, data := data, pre := pre, uses := uses, window := window } b'
    else complete h .feature noDetail [] b

/-- A host command: session and feature gate, held objects, then its rule (R535, R546, R547). -/
def runCmd (h : Hdr) (op : Nat) (objs : List Obj) (f : Block → CmdOut) (b : Block) : Block :=
  match gate b op with
  | some st => complete h st noDetail [] b
  | none => if objs.any (held b) then complete h .busy noDetail [] b else finish h op b (f b)

/-- End the waiting command that satisfies `p`, with a status. -/
def endWaiting (p : Waiting → Bool) (st : Status) (args : List W32) (b : Block) : Block :=
  match b.host.waiting.find? p with
  | none => b
  | some w => complete w.h st noDetail args
      { b with host := { b.host with waiting := b.host.waiting.erase w } }

/-- ST_BAD_ARG naming argument word `k`. -/
def badArg (k : Nat) : CmdOut := .fail .badArg k

/-! ### Named boundaries -/

/-- Check of a named boundary (R50). -/
def checkBoundary (b : Block) (B : Nat) : Option Status :=
  if B < now b + 100 then some .strideTooSoon
  else if now b + 8640000000 < B then some .strideTooFar
  else none

/-- Make an action pending. -/
def addAction (a : Action) (b : Block) : Block :=
  { b with host := { b.host with actions := b.host.actions ++ [{ a with since := now b }] } }

/-- EV_ACTION: opcode, TAG, mailbox, boundary, final status (R537). -/
def actionEvent (a : Action) (st : Status) (b : Block) : Block :=
  raise .action ([w32 a.op, w32 a.h.tag.toNat, w32 a.h.mbx.val] ++ w64 a.boundary ++ [w32 st.code]) b

/-- Cancel the pending actions that satisfy `p`, reporting the status. -/
def cancelActions (p : Action → Bool) (st : Status) (b : Block) : Block :=
  let out := b.host.actions.filter p
  out.foldl (fun b a => actionEvent a st b)
    { b with host := { b.host with actions := b.host.actions.filter fun a => !p a } }

/-- Take the pending actions of this boundary that satisfy `p`, in order of acceptance. -/
def dueActions (p : Action → Bool) (b : Block) : List Action × Block :=
  let q := fun (a : Action) => p a && a.boundary ≤ now b
  (b.host.actions.filter q, { b with host := { b.host with actions := b.host.actions.filter fun a => !q a } })

/-- A command whose word `k` sets a reserved field ends with ST_BAD_ARG before all else (R10). -/
def unlessRsv (bad : Bool) (k : Nat) (f : Block → CmdOut) (b : Block) : CmdOut := if bad then badArg k else f b

/-! ### Exchange variables and engines -/

/-- Floors of Table 1-9 in bytes per stride. -/
def ddrFloor (k : Nat) : Nat :=
  match k with
  | 32 => 5120
  | 33 => 16384
  | 35 => 32768
  | 36 => 8192
  | _ => 4096

/-- A request is backed if the requester's credit covers it (R36). -/
def Ddr.ask (d : Ddr) (who bytes : Nat) : Ddr :=
  let c := Tbl.get 0 d.credit who
  if bytes ≤ c then { d with credit := Tbl.set 0 d.credit who (c - bytes), asked := d.asked ++ [⟨who, bytes, true⟩] }
  else { d with asked := d.asked ++ [⟨who, bytes, false⟩] }

/-- Weight of a requester without credit (Table 1-9). -/
def Ddr.weight (d : Ddr) (k : Nat) : Nat :=
  match k with
  | 32 => 2
  | 33 => d.wLedger
  | 34 => d.wSnapshot
  | 35 => d.wDma
  | 36 => d.wCoach
  | _ => 1

/-- Weighted round robin over the requests left, within `room` bytes; `fuel` bounds the turns looked at. -/
def Ddr.round : Nat → Nat → Ddr → Ddr
  | 0, _, d => d
  | fuel + 1, room, d =>
    match (if d.left = 0 then none else d.asked.find? fun r => r.who == d.turn) with
    | some r =>
      if r.bytes ≤ room then
        Ddr.round fuel (room - r.bytes) { d with asked := d.asked.erase r, done := d.done ++ [r], left := d.left - 1 }
      else Ddr.round fuel room { d with turn := (d.turn + 1) % 37, left := d.weight ((d.turn + 1) % 37) }
    | none => Ddr.round fuel room { d with turn := (d.turn + 1) % 37, left := d.weight ((d.turn + 1) % 37) }

/-- What the controller serves of a stride's requests within its 400,000 bytes (R35, R36): those with credit, oldest first,
then the others by weight. -/
def Ddr.serve (d : Ddr) : Ddr :=
  let first := d.asked.filter DdrReq.backed
  let room := 400000 - (first.map DdrReq.bytes).foldl (· + ·) 0
  let d := { d with asked := d.asked.filter fun r => !r.backed, done := first }
  Ddr.round (38 * (d.asked.length + 1)) room d

/-- A new stride: the floor credit of Table 1-9, what was left having lapsed, held against what still waits (R35, R36). -/
def Ddr.stride (d : Ddr) : Ddr :=
  let d := d.serve
  d.asked.foldl (fun d r => d.ask r.who r.bytes) { d with credit := (List.range 37).map fun k => (k, ddrFloor k), asked := [] }

/-- The memory controller at the start of a stride. -/
def ddrCredit (b : Block) : Block := { b with fab := { b.fab with ddr := b.fab.ddr.stride } }

/-- Requester `k` asks for `bytes`. -/
def ddrUse (k bytes : Nat) (b : Block) : Block := { b with fab := { b.fab with ddr := b.fab.ddr.ask k bytes } }

/-- Write an exchange variable, keeping the value of the earlier stride (R224). -/
def xwrite (id : Nat) (v : W32) (b : Block) : Block :=
  let s := work b
  { b with fab := { b.fab with xvars := Tbl.upd {} b.fab.xvars id fun x =>
      { cur := { val := v, at? := some s }, prev := if x.cur.at? = some s then x.prev else x.cur } } }

/-- Write consecutive exchange variables. -/
def xwrites (id : Nat) : List W32 → Block → Block
  | [], b => b
  | v :: vs, b => xwrites (id + 1) vs (xwrite id v b)

/-- The latest value of an exchange variable. -/
def xread (b : Block) (id : Nat) : W32 := (Tbl.get {} b.fab.xvars id).cur.val

/-- Engine `e`. -/
def engine (b : Block) (e : Nat) : Engine := Tbl.get {} b.eng e

/-- Change engine `e`. -/
def onEngine (e : Nat) (f : Engine → Engine) (b : Block) : Block := { b with eng := Tbl.upd {} b.eng e f }

/-- Change every listed value of a table, dropping those that become the default. -/
def Tbl.mapAll {α : Type} [DecidableEq α] (d : α) (t : Tbl α) (f : Nat → α → α) : Tbl α :=
  (t.map fun kv => (kv.1, f kv.1 kv.2)).filter fun kv => kv.2 ≠ d

/-- Word `w` of the lane memory of lane `j`. -/
def Engine.mget (e : Engine) (j w : Nat) : W32 := Tbl.get 0 e.mem (256 * j + w)
def Engine.mset (e : Engine) (j w : Nat) (v : W32) : Engine := { e with mem := Tbl.set 0 e.mem (256 * j + w) v }

/-- Word `w` of the lane slot of cell `n`: lane n mod 8 of engine n / 8 (R24). -/
def laneWord (b : Block) (n w : Nat) : W32 := (engine b (n / 8)).mget (n % 8) w
def setLaneWords (n w : Nat) (l : List W32) (b : Block) : Block :=
  onEngine (n / 8) (fun e => { e with mem := Tbl.setRange 0 e.mem (256 * (n % 8) + w) l }) b

/-- A binary32 word of a Boolean, 0.0 or 1.0 is not meant: the word 0 or 1. -/
def wBool (v : Bool) : W32 := if v then 1 else 0

end Sys2Proof.Machine
end

