-- ==== Sys2Proof/Machine/CfgMap.lean ====
section
/-! DEFINITION. The field maps of every configuration structure of Table 16-10, with ranges and reset values (R601),
the generic check of R10, and the reading of running entries. SAFETY_CFG and PAIR_CFG
stand at STRUCT 0x80 and 0x81 (R560), PAIR_CFG with both of its words. -/

namespace Sys2Proof.Machine

/-- The range of a field. `index`: equal to the entry's INDEX; binary32 bounds are rationals. -/
inductive Rng where
  | nat (lo hi : Nat)
  | index
  | int (lo hi : Int)
  | flo (lo hi : Int × Nat)
  | fpos
  | fnonneg
  | any
  deriving DecidableEq, Repr

/-- One field of a map: word, high bit, low bit, range, reset value. -/
structure Fld where
  w : Nat
  hi : Nat
  lo : Nat
  rng : Rng
  rst : Nat := 0
  deriving DecidableEq, Repr

/-- A binary32 pattern of a decimal ratio, as a number, for reset values. -/
def fpat (num : Int) (den : Nat) : Nat := (ofRat num den).toNat

def uF (w hi lo mn mx : Nat) (rst : Nat := 0) : Fld := ⟨w, hi, lo, .nat mn mx, rst⟩
def rsv (w hi lo : Nat) : Fld := ⟨w, hi, lo, .nat 0 0, 0⟩
def ixF (w hi lo : Nat) : Fld := ⟨w, hi, lo, .index, 0⟩
def anyF (w hi lo : Nat) (rst : Nat := 0) : Fld := ⟨w, hi, lo, .any, rst⟩
def fF (w : Nat) (lo hi : Int × Nat) (rst : Nat := 0) : Fld := ⟨w, 31, 0, .flo lo hi, rst⟩
def posF (w : Nat) (rst : Nat := 0) : Fld := ⟨w, 31, 0, .fpos, rst⟩
def nnF (w : Nat) (rst : Nat := 0) : Fld := ⟨w, 31, 0, .fnonneg, rst⟩

/-- Number of words of an entry (Table 16-10). -/
def cfgWords (st : Nat) : Nat :=
  match st with
  | 0x01 => 1 | 0x02 => 64 | 0x03 => 1 | 0x04 => 1 | 0x05 => 3 | 0x06 => 3 | 0x07 => 8 | 0x08 => 1
  | 0x09 => 1041 | 0x0A => 1 | 0x0B => 344 | 0x0C => 85 | 0x0D => 40 | 0x0E => 6 | 0x0F => 4
  | 0x10 => 3 | 0x11 => 10 | 0x12 => 8 | 0x13 => 4 | 0x14 => 2 | 0x15 => 1 | 0x16 => 2 | 0x17 => 1
  | 0x18 => 5 | 0x19 => 6 | 0x1A => 2 | 0x1B => 12 | 0x1C => 4 | 0x1D => 2 | 0x1E => 8 | 0x1F => 8
  | 0x20 => 5 | 0x21 => 5 | 0x22 => 2 | 0x23 => 1 | 0x24 => 4 | 0x25 => 70 | 0x26 => 1
  | 0x80 => 4 | 0x81 => 2
  | _ => 0

/-- Number of entries of a structure (INDEX runs below it). -/
def cfgCount (st : Nat) : Nat :=
  match st with
  | 0x01 => 32 | 0x02 => 32 | 0x03 => 32 | 0x04 => 32 | 0x05 => 16 | 0x06 => 64 | 0x07 => 48 | 0x08 => 1
  | 0x09 => 272 | 0x0A => 1 | 0x0B => 16 | 0x0C => 8 | 0x0D => 64 | 0x0E => 1 | 0x0F => 48
  | 0x10 => 48 | 0x11 => 1 | 0x12 => 2 | 0x13 => 1 | 0x14 => 48 | 0x15 => 72 | 0x16 => 16 | 0x17 => 1
  | 0x18 => 2 | 0x19 => 16 | 0x1A => 16 | 0x1B => 4 | 0x1C => 28 | 0x1D => 28 | 0x1E => 2 | 0x1F => 4
  | 0x20 => 1 | 0x21 => 1 | 0x22 => 1 | 0x23 => 4 | 0x24 => 4 | 0x25 => 48 | 0x26 => 1
  | 0x80 => 1 | 0x81 => 1
  | _ => 0

/-- Whether a non-zero boundary is allowed (Table 16-10). -/
def cfgTimed (st : Nat) : Bool := [0x07, 0x09, 0x0B, 0x0C, 0x0D, 0x0E, 0x0F, 0x1C, 0x1D].contains st

/-- Calibration data: loaded into a standby copy and switched at the calibration switch (R256, R480, R518). -/
def cfgCalib (st : Nat) : Bool := [0x0B, 0x0C, 0x0D, 0x0E, 0x1C, 0x1D].contains st

/-- `n` fields made from their numbers. -/
def flds (n : Nat) (f : Nat → Fld) : List Fld := (List.range n).map f

/-- The field maps, by STRUCT. -/
def cfgFields (st : Nat) : List Fld :=
  match st with
  | 0x01 => [rsv 0 31 26, uF 0 25 24 0 2, rsv 0 23 23, uF 0 22 16 1 64, rsv 0 15 0]
  | 0x02 => flds 64 fun k => rsv k 7 0
  | 0x03 => [rsv 0 31 23, uF 0 22 16 4 64 4, uF 0 15 12 1 15 4, rsv 0 11 0]
  | 0x04 => [rsv 0 31 26, uF 0 25 24 0 3 1, uF 0 23 20 0 12 4, uF 0 19 15 0 24 8, anyF 0 14 14, anyF 0 13 10,
             anyF 0 9 9, anyF 0 8 8, anyF 0 7 7, rsv 0 6 0]
  | 0x05 => [uF 0 31 16 1 62500 6250, uF 0 15 0 1 62500 12500, anyF 1 31 31, anyF 1 30 30, rsv 1 29 0, nnF 2]
  | 0x06 => [uF 0 31 16 1 65535, anyF 0 15 8, rsv 0 7 0, anyF 1 31 16, anyF 1 15 0, anyF 2 31 16, anyF 2 15 8,
             anyF 2 7 7, rsv 2 6 0]
  | 0x07 => [ixF 0 31 26, uF 0 25 22 1 8 4, uF 0 21 18 1 8 4, rsv 0 17 0, anyF 1 31 15, rsv 1 14 0,
             nnF 2 (fpat 1 1), nnF 3 (fpat 1 20), nnF 4 (fpat 1 50), nnF 5 (fpat 1 4), nnF 6, rsv 7 31 0]
  | 0x08 => [anyF 0 31 31, anyF 0 30 28, uF 0 27 18 0 1000, uF 0 17 16 0 2, uF 0 15 8 1 255 20, rsv 0 7 0]
  | 0x09 => [ixF 0 31 23, rsv 0 22 0]
      ++ (flds 16 fun o => rsv (1 + o) 1 0) ++ (flds 16 fun o => uF (1 + o) 3 2 0 2)
      ++ (flds 1024 fun m => rsv (17 + m) 31 30) ++ (flds 1024 fun m => uF (17 + m) 15 8 0 254)
      ++ (flds 1024 fun m => rsv (17 + m) 7 1)
  | 0x0A => [uF 0 31 24 1 255 8, uF 0 23 10 1 10000 100, rsv 0 9 0]
  | 0x0B => [ixF 0 31 28, rsv 0 27 0, posF 1, rsv 342 31 0, rsv 343 31 0]
  | 0x0C => [ixF 0 31 29, rsv 0 28 0] ++ (flds 64 fun k => fF (21 + k) (8, 1) (60, 1))
  | 0x0D => [uF 0 31 16 1 65535, anyF 0 15 8, uF 0 7 6 0 2, uF 0 5 4 0 3, rsv 0 3 0, anyF 1 31 0, anyF 2 31 16,
             fF 3 (-40, 1) (150, 1), fF 4 (1, 2) (20, 1), anyF 5 31 0, anyF 6 31 0, fF 7 (0, 1) (100, 1)]
      ++ (flds 4 fun p => uF 2 (4 * p + 3) (4 * p) 0 7)
      ++ (flds 16 fun k => fF (8 + 2 * k) (0, 1) (10, 1))
      ++ (flds 16 fun k => fF (9 + 2 * k) (1, 100000) (10000, 1))
  | 0x0E => [uF 0 31 30 0 2, uF 0 29 19 1 1440 60, uF 0 18 14 10 24 16, uF 0 13 6 1 255 10, rsv 0 5 0,
             posF 1 (fpat 2 1000), fF 2 (5, 1000) (1, 4) (fpat 5 100), fF 3 (1, 10) (1, 1) (fpat 8 10),
             anyF 4 31 0 (fpat 60 1), fF 5 (1, 1) (8, 1) (fpat 2 1)]
  | 0x0F => [ixF 0 31 26, uF 0 25 22 1 15 8, uF 0 21 8 1 16383 10000, rsv 0 7 0, fF 1 (1, 100) (1, 4) (fpat 5 100),
             anyF 2 31 0, uF 3 31 16 1 65535 50000, uF 3 15 8 1 50 5, uF 3 7 0 1 100 15]
  | 0x10 => [ixF 0 31 26, uF 0 25 24 0 2, uF 0 23 15 1 256, anyF 0 14 14, rsv 0 13 0,
             fF 1 (1, 100) (1, 2) (fpat 1 10), fF 2 (1, 10) (1, 1) (fpat 1 2)]
  | 0x11 => [uF 0 31 16 100 60000 5000, uF 0 15 0 1 60000 2000, uF 1 31 16 1 60000 3000, uF 1 15 0 100 60000 2000,
             fF 2 (1, 100) (3, 1) (fpat 1 8), fF 3 (1, 10) (1, 1) (fpat 1 2), fF 4 (1, 2) (105, 100) (fpat 95 100),
             fF 5 (1, 100) (1, 5) (fpat 5 100), uF 6 31 16 1 60000 1000, uF 6 15 8 1 64 8, rsv 6 7 0,
             uF 7 31 16 1 3600 600, uF 7 15 0 1 7200 1800, fF 8 (1, 50) (1, 2) (fpat 1 10),
             fF 9 (10, 1) (120, 1) (fpat 50 1)]
  | 0x12 => [uF 0 31 30 0 2, anyF 0 29 29 1, anyF 0 28 28 1, anyF 0 27 24, anyF 0 23 20, anyF 0 19 16, ixF 0 15 15,
             rsv 0 14 0, fF 1 (45, 1) (65, 1) (fpat 50 1), posF 2 (fpat 1 1), fF 3 (1, 1) (100, 1) (fpat 20 1),
             fF 4 (1, 20) (1, 2) (fpat 1 5), fF 5 (1, 10) (95, 100) (fpat 7 10), fF 6 (1, 10) (1, 1) (fpat 85 100),
             uF 7 31 22 1 1000 10, uF 7 21 6 1000 60000 2000, rsv 7 5 0]
  | 0x13 => [uF 0 31 25 32 77 32, uF 0 24 12 1 4000 500, uF 0 11 4 1 255 30, rsv 0 3 0,
             fF 1 (1, 100) (1, 5) (fpat 5 100), fF 2 (1, 100) (1, 1) (fpat 1 10), fF 3 (1, 1) (30, 1) (fpat 10 1)]
  | 0x14 => [anyF 0 31 22 1023, anyF 0 21 12, anyF 0 11 6 8, rsv 0 5 0, uF 1 31 28 3 15 3, anyF 1 27 24 3,
             anyF 1 23 23, anyF 1 22 22, anyF 1 21 21, anyF 1 20 20 1, anyF 1 19 19 1, anyF 1 18 18, anyF 1 17 17,
             rsv 1 16 0]
  | 0x15 => [anyF 0 31 31 1, anyF 0 30 30, rsv 0 29 16, anyF 0 15 0 0xFFFF]
  | 0x16 => [uF 0 31 22 0 1022 1022, uF 0 21 12 1 1023 1023, uF 0 11 2 50 1000 100, rsv 0 1 0, uF 1 31 28 3 7 3,
             rsv 1 27 0]
  | 0x17 => [anyF 0 31 31 1, anyF 0 30 25, uF 0 24 19 1 32 4, uF 0 18 16 1 7 4, rsv 0 15 0]
  | 0x18 => [anyF 0 31 28, uF 0 27 22 0 47, uF 0 21 20 0 2, uF 0 19 10 10 1000, uF 0 9 0 1 1000, posF 1, nnF 2,
             posF 3, nnF 4]
  | 0x19 => [uF 0 31 16 0 0x3FFF, anyF 0 15 8, anyF 0 7 7, anyF 0 6 6, anyF 0 5 5, anyF 0 4 1, rsv 0 0 0,
             anyF 1 31 0, anyF 2 31 16, rsv 2 15 0, anyF 3 31 0, anyF 4 31 0, rsv 5 31 0]
  | 0x1A => [anyF 0 31 30, uF 0 29 18 8 4000 400, anyF 0 17 17 1, uF 0 16 4 10 8000 1000, rsv 0 3 0,
             uF 1 31 20 40 4000 800, uF 1 19 8 1 4000 100, rsv 1 7 0]
  | 0x1B => [anyF 0 31 31, anyF 0 30 30, anyF 0 29 26, anyF 0 25 22, anyF 0 21 18, anyF 0 17 17, uF 0 16 12 1 16,
             uF 0 11 3 80 500, anyF 0 2 2, rsv 0 1 0, fF 1 (100, 1) (60000, 1), posF 2, posF 3, nnF 4, nnF 5, posF 6,
             nnF 7, posF 8, fF 9 (1, 20) (1, 2) (fpat 15 100), posF 10, uF 11 31 22 5 1000 40, uF 11 21 8 10 6000 500,
             uF 11 7 4 0 15 3, rsv 11 3 0]
  | 0x1C => [ixF 0 31 27, uF 0 26 24 0 4, anyF 0 23 22, rsv 0 21 0, anyF 1 31 0, anyF 2 31 0,
             ⟨3, 31, 0, .int (-1000000) 1000000, 0⟩]
  | 0x1D => [anyF 0 31 0, anyF 1 31 0]
  | 0x1E => [anyF 0 31 31, anyF 0 30 30, anyF 0 29 22, anyF 0 21 21, anyF 0 20 20, anyF 0 19 19, anyF 0 18 18,
             uF 0 17 16 0 2, anyF 0 15 12, anyF 0 11 11, anyF 0 10 9, rsv 0 8 0, uF 1 31 16 1 65534,
             uF 1 15 0 1 65535, anyF 2 31 0, anyF 3 31 16, anyF 3 15 0, anyF 4 31 28, rsv 4 27 0, anyF 5 31 8,
             rsv 5 7 0, anyF 6 31 8, rsv 6 7 0, rsv 7 31 0]
  | 0x1F => [ixF 0 31 30, anyF 0 29 29, anyF 0 28 28, uF 0 27 24 0 11, uF 0 23 20 0 11, uF 0 19 16 0 11,
             anyF 0 15 15, anyF 0 14 14, rsv 0 13 0, fF 1 (100, 1) (1000000, 1), fF 2 (200, 1) (300, 1), posF 3,
             fF 4 (1, 20) (1, 1) (fpat 3 10), uF 5 31 16 1 65535 10000, uF 5 15 0 1 65535, anyF 6 31 0,
             uF 7 31 16 1 65535, uF 7 15 0 1 65535]
  | 0x20 => [uF 0 31 22 0 1000 100, uF 0 21 12 1 1000 200, anyF 0 11 4 7, rsv 0 3 0, fF 1 (1, 100) (5, 1),
             fF 2 (1, 10) (20, 1), fF 3 (1, 10) (1, 1), fF 4 (1, 1) (2, 1)]
  | 0x21 => [anyF 0 31 30 1, anyF 0 29 28 2, anyF 0 27 26 3, anyF 0 25 25, uF 0 24 23 0 2, anyF 0 22 19 1,
             anyF 0 18 18, uF 0 17 7 1 1500 100, rsv 0 6 0, anyF 1 31 24, uF 1 23 8 1 65535 300, rsv 1 7 0,
             ⟨2, 31, 0, .int (-100) 100, 37⟩, anyF 3 31 0, anyF 4 31 31 1, uF 4 30 21 1 500 100, uF 4 20 11 0 1000,
             rsv 4 10 0]
  | 0x22 => [fF 0 (2000000000, 1) (3200000000, 1), anyF 1 31 31, rsv 1 30 0]
  | 0x23 => [anyF 0 31 31, anyF 0 30 29, uF 0 28 27 0 2, anyF 0 26 26, uF 0 25 14 1 4095, rsv 0 13 0]
  | 0x24 => [anyF 0 31 0, anyF 1 31 0, anyF 2 31 0, uF 3 31 20 0 4094, anyF 3 19 17, anyF 3 16 11, rsv 3 10 0]
  | 0x25 => [ixF 0 31 26, anyF 0 25 25, anyF 0 24 21, rsv 0 20 0, anyF 1 31 20, rsv 1 19 0]
      ++ (flds 4 fun k => rsv (66 + k) 31 0)
  | 0x26 => [rsv 0 31 16]
  | 0x80 => [uF 0 31 24 2 200 10, anyF 0 23 23, uF 0 22 13 1 1000 100, uF 0 12 8 5 30 20, uF 0 7 6 1 3 3, rsv 0 5 0,
             uF 1 31 23 1 480 60, uF 1 22 14 0 365 365, uF 1 13 4 1 1000 20, rsv 1 3 0,
             fF 2 (1, 10) (1, 1) (fpat 1 2), anyF 3 31 24, rsv 3 23 0]
  | 0x81 => [anyF 0 31 31, uF 0 30 23 1 255 1, anyF 0 22 22, anyF 0 21 21 1, rsv 0 20 0, anyF 1 31 0]
  | _ => []

/-- Whether a binary32 pattern lies between two rationals, ends included. -/
def fInRange (v : W32) (lo hi : Int × Nat) : Bool := fle (ofRat lo.1 lo.2) v && fle v (ofRat hi.1 hi.2)

/-- Whether a field of an entry is in range. -/
def Fld.ok (f : Fld) (index : Nat) (l : List W32) : Bool :=
  let w := word l f.w
  let v := bits w f.hi f.lo
  match f.rng with
  | .nat mn mx => mn ≤ v && v ≤ mx
  | .index => v == index
  | .int mn mx => mn ≤ s32 w && s32 w ≤ mx
  | .flo a b => fInRange w a b
  | .fpos => flt 0 w && !fIsInf w
  | .fnonneg => fle 0 w && !fIsInf w
  | .any => true

/-- The first word of an entry that is out of range or reserved and not zero (R10). -/
def cfgBadWord (st index : Nat) (l : List W32) : Option Nat :=
  ((cfgFields st).find? fun f => !f.ok index l).map Fld.w

/-- The reset words of an entry (R601): every field at the reset value its map gives, else zero; a field that repeats
the entry's INDEX resets to it only where the map says so (SIDE of GRID_CFG). -/
def cfgReset (st index : Nat) : List W32 :=
  let base := (cfgFields st).foldl (fun (l : List W32) f =>
    if f.rst = 0 then l else l.set f.w (setBits (word l f.w) f.hi f.lo f.rst)) (List.replicate (cfgWords st) 0)
  if st = 0x12 then base.set 0 (setBits (word base 0) 15 15 index)
  else if st = 0x15 ∧ index = 65 then [0xC000FFFF]
  else base

/-- Key of an entry in the configuration tables. -/
def cfgKey (st index : Nat) : Nat := st * 65536 + index

/-- Whether the host has written the entry. -/
def cfgWritten (b : Block) (st index : Nat) : Bool := Tbl.get [] b.cfg (cfgKey st index) ≠ []

/-- The running entry. -/
def cfgEntry (b : Block) (st index : Nat) : List W32 :=
  match Tbl.get [] b.cfg (cfgKey st index) with
  | [] => cfgReset st index
  | l => l

/-- Word `k` of the running entry; of an unwritten ENGINE_CFG or table every word is zero. -/
def cfgW (b : Block) (st index k : Nat) : W32 :=
  match Tbl.get [] b.cfg (cfgKey st index) with
  | [] => if st = 0x09 ∨ st = 0x0B ∨ st = 0x0C ∨ st = 0x02 ∨ st = 0x25 then 0 else word (cfgReset st index) k
  | l => word l k

/-- A field of the running entry as a number. -/
def cfgN (b : Block) (st index k hi lo : Nat) : Nat := bits (cfgW b st index k) hi lo
def cfgBit (b : Block) (st index k i : Nat) : Bool := bit (cfgW b st index k) i

/-- Make an entry running. -/
def setCfg (st index : Nat) (l : List W32) (b : Block) : Block :=
  { b with cfg := Tbl.set [] b.cfg (cfgKey st index) l }

/-! ### The settings most rules read -/

/-- PAIR_EN in force. -/
def pairEn (b : Block) : Bool := cfgBit b 0x81 0 0 31

/-- Limb `l` is configured (Table 16-13). -/
def limbEn (b : Block) (l : Nat) : Bool := cfgBit b 0x25 l 0 25
/-- The summit engine that hosts limb `l`. -/
def limbEngine (b : Block) (l : Nat) : Nat := 256 + cfgN b 0x25 l 0 24 21
/-- Whether cell `n` belongs to limb `l`. -/
def limbHas (b : Block) (l n : Nat) : Bool := limbEn b l && cfgBit b 0x25 l (2 + n / 32) (n % 32)
/-- The limb of cell `n`, if it has one. -/
def cellLimb (b : Block) (n : Nat) : Option Nat := (List.range 48).find? fun l => limbHas b l n
/-- The configured limbs, ascending. -/
def limbs (b : Block) : List Nat := (List.range 48).filter (limbEn b)
/-- The cells of limb `l`, ascending. -/
def limbCells (b : Block) (l : Nat) : List Nat :=
  if limbEn b l then (List.range 2048).filter fun n => cfgBit b 0x25 l (2 + n / 32) (n % 32) else []
/-- The limbs that engine `e` hosts, ascending: positions 0 to 3 of Table 6-10. -/
def hosted (b : Block) (e : Nat) : List Nat := (limbs b).filter fun l => limbEngine b l == e
/-- Whether a summit engine hosts the station laws (STATION_CFG). -/
def hostsStation (b : Block) (e : Nat) : Bool := cfgBit b 0x26 0 0 (e - 256) && decide (256 ≤ e)
/-- The limbs with a cell on chain `p`, ascending: partial slots 0 to 7. -/
def chainLimbs (b : Block) (p : Nat) : List Nat :=
  (limbs b).filter fun l => cfgW b 0x25 l (2 + 2 * p) ≠ 0 || cfgW b 0x25 l (3 + 2 * p) ≠ 0

end Sys2Proof.Machine
end

