-- ==== Sys2Proof/Machine/Desc.lean ====
section
/-! DEFINITION. The cell-kind descriptor (Table 3-4) by field, its check (R91), and the accessors of ports, chains,
cell positions and cell terminals. -/

namespace Sys2Proof.Machine

/-! ### Descriptor fields -/
def dKind (d : List W32) : Nat := bits (word d 0) 31 16
def dRev (d : List W32) : Nat := bits (word d 0) 15 8
def dEMax (d : List W32) : Nat := bits (word d 1) 31 27
def dPWords (d : List W32) : Nat := bits (word d 1) 26 23
def dNLegs (d : List W32) : Nat := bits (word d 1) 22 19
def dHasBypass (d : List W32) : Bool := bit (word d 1) 18
def dHasLocal (d : List W32) : Bool := bit (word d 1) 17
def dZv (d : List W32) : Nat := bits (word d 2) 31 16
def dSwMap (d : List W32) : Nat := bits (word d 2) 15 0
/-- HIGH and LOW switch index of leg j. -/
def dLeg (d : List W32) (j : Nat) : Nat × Nat :=
  let b := bits (word d (3 + j / 4)) (8 * (j % 4) + 7) (8 * (j % 4))
  (b / 16, b % 16)
def dLegKind (d : List W32) (j : Nat) : Nat := bits (word d 5) (4 * j + 3) (4 * j)
def dMinGap (d : List W32) : Nat := bits (word d 6) 31 16
def dParamCode (d : List W32) (j : Nat) : Nat := bits (word d 7) (4 * j + 3) (4 * j)
def dMapped (d : List W32) (s : Nat) : Bool := bit (word d (8 + s / 32)) (s % 32)
def dSlots (d : List W32) : List Nat := (List.range 128).filter (dMapped d)
/-- SLOT_FMT of a slot (Table 3-4). -/
def dSlotFmt (d : List W32) (s : Nat) : Nat := bits (word d (15 + s / 16)) (2 * (s % 16) + 1) (2 * (s % 16))
def dCNom (d : List W32) : W32 := word d 12
def dVRated (d : List W32) : W32 := word d 13
def dIRated (d : List W32) : W32 := word d 14

/-- The planned length of a cell's sub-list in blocks (Table 2-2). -/
def dPlan (d : List W32) : Nat := (1 + dEMax d + dPWords d + 1) / 2

/-- DEAD_TIME and MIN_PULSE of a leg kind (Table 5-3). -/
def deadTime (b : Block) (k : Nat) : Nat := cfgN b 0x05 k 0 31 16
def minPulse (b : Block) (k : Nat) : Nat := cfgN b 0x05 k 0 15 0

/-- DESC_CRC and the field ranges of Table 3-4. -/
def descRangesOk (crc : W32) (d : List W32) : Bool :=
  d.length == 32 && word d 31 == crc && decide (1 ≤ dKind d) && bits (word d 0) 7 0 == 1
  && decide (2 ≤ dEMax d ∧ dEMax d ≤ 16) && decide (dPWords d ≤ 8) && decide (1 ≤ dNLegs d ∧ dNLegs d ≤ 8)
  && bits (word d 1) 16 0 == 0 && decide (1 ≤ dMinGap d) && bits (word d 6) 15 0 == 0
  && ((List.range 8).all fun j => decide (dParamCode d j ≤ 7))
  && ((List.range 8).all fun k => word d (23 + k) == 0)

/-- The check of a descriptor (R91). -/
def descOk (b : Block) (crc : W32) (d : List W32) : Bool :=
  descRangesOk crc d
  && ((List.range (dNLegs d)).all fun j =>
      let (h, l) := dLeg d j
      (dSwMap d).testBit h && (dSwMap d).testBit l && h != l
      && !((dZv d).testBit h && (dZv d).testBit l)
      && decide (dMinGap d ≤ deadTime b (dLegKind d j)))
  && ((dZv d) &&& (dSwMap d)) == dZv d
  && dMapped d 16 && dMapped d 17 && dMapped d 96 && (!dHasBypass d || dMapped d 97)
  && (dHasLocal d || dPWords d == 0)

/-! ### Accessors -/
def chain (b : Block) (p : Nat) : Chain := Tbl.get {} b.chains p
def onChain (p : Nat) (f : Chain → Chain) (b : Block) : Block := { b with chains := Tbl.upd {} b.chains p f }
def hub (b : Block) (n : Nat) : HubCell := Tbl.get {} b.cells n
def onHub (n : Nat) (f : HubCell → HubCell) (b : Block) : Block := { b with cells := Tbl.upd {} b.cells n f }
def term (b : Block) (n : Nat) : CellTerm := Tbl.get {} b.terms n
def onTerm (n : Nat) (f : CellTerm → CellTerm) (b : Block) : Block := { b with terms := Tbl.upd {} b.terms n f }

/-- Key of a port in the table of ports. -/
def portKey : PortId → Nat
  | .unit p => p.val
  | .lane k => 32 + k.val
  | .cellH n => 64 + 2 * n.val
  | .cellT n => 65 + 2 * n.val

def port (b : Block) (k : Nat) : Port := Tbl.get {} b.ports k
def onPort (k : Nat) (f : Port → Port) (b : Block) : Block := { b with ports := Tbl.upd {} b.ports k f }

/-- The LANE synthesizer of a unit port or pair lane is out of lock (Table 1-10, R39). -/
def laneOut (b : Block) (k : Nat) : Bool := decide (k < 36) && !(Tbl.get {} b.synth (if k < 16 then 1 else 2)).locked

/-- END of a port's CHAIN_CONFIG: 0 unused, 1 HEAD, 2 TAIL; and N_CELLS. -/
def chainEnd (b : Block) (p : Nat) : Nat := cfgN b 0x01 p 0 25 24
def nCells (b : Block) (p : Nat) : Nat := cfgN b 0x01 p 0 22 16

/-- Descriptor of a cell as enumerated. -/
def cellDesc (b : Block) (n : Nat) : List W32 := ((hub b n).info.map EnumInfo.desc).getD []
def enumerated (b : Block) (n : Nat) : Bool := (hub b n).info.isSome

/-- Cell numbers of chain `p` that its configuration expects. -/
def chainCells (b : Block) (p : Nat) : List Nat := (List.range (nCells b p)).map fun c => 64 * p + c

/-- Whether a lane slot of port `p` is ACTIVE, INTEGRATING or UNBYPASSING. -/
def chainBusy (b : Block) (p : Nat) : Bool :=
  (List.range 64).any fun c =>
    let s := (hub b (64 * p + c)).slot
    s == .active || s == .integrating || s == .unbypassing

/-- KIND_ID that CHAIN_KINDS expects at a cell's position, and the revision. -/
def kindAt (b : Block) (n : Nat) : Nat := cfgN b 0x02 (n / 64) (n % 64) 31 16
def revAt (b : Block) (n : Nat) : Nat := cfgN b 0x02 (n / 64) (n % 64) 15 8

/-- Record words of a cell: the latest telemetry record (Table 3-9). -/
def recW (b : Block) (n k : Nat) : W32 := word (hub b n).record k
def recVcap (b : Block) (n : Nat) : W32 := recW b n 2
def recIarm (b : Block) (n : Nat) : W32 := recW b n 3
def recLadder (b : Block) (n : Nat) : Nat := bits (recW b n 0) 25 24

/-- Cells that are ACTIVE. -/
def isActive (b : Block) (n : Nat) : Bool := (hub b n).slot == .active

/-- Ledger entry of a kind: KIND_LEVELS or KIND_LEDGER index whose word 0 names the kind and revision. -/
def kindIndex (b : Block) (st kind rev : Nat) : Option Nat :=
  (List.range 64).find? fun i =>
    cfgWritten b st i && cfgN b st i 0 31 16 == kind && cfgN b st i 0 15 8 == rev

end Sys2Proof.Machine
end

