-- ==== Sys2Proof/Machine/Lane.lean ====
section
/-! DEFINITION. The lanes block by block (chapter 4): the 66-bit block and its scrambler (R126, R127), control-block types
and their checks (Tables 4-3 and 4-4), the transmitter with its classes (R137, R138, R140, R152), and the receiver's
stack of frames (R139). -/

namespace Sys2Proof.Machine

/-! ### Blocks (R126 to R130) -/

/-- A register of 58 bits takes the bit just sent or received, the newest at its low end. -/
def pushBit (r : BitVec 58) (x : Bool) : BitVec 58 := BitVec.ofNat 58 (2 * r.toNat + x.toNat)

/-- The taps of x^58 + x^39 + 1: the bits sent 39 and 58 bits ago. -/
def scrTap (r : BitVec 58) : Bool := xor (r.getLsbD 38) (r.getLsbD 57)

/-- One pass of the scrambler over a block field, bit 0 first (R126). `back`: the register takes the bits that come in
(descrambler), not those that go out. -/
def scrRun (back : Bool) (r : BitVec 58) (f : BitVec 64) : BitVec 58 × BitVec 64 :=
  (List.range 64).foldl (fun (a : BitVec 58 × BitVec 64) i =>
    let x := f.getLsbD i
    let y := xor x (scrTap a.1)
    (pushBit a.1 (if back then x else y), if y then a.2 ||| BitVec.ofNat 64 (2 ^ i) else a.2)) (r, 0)

/-- Sync headers of R126. -/
def syncData : BitVec 2 := 0b01
def syncCtl : BitVec 2 := 0b10

/-- The field of a control block: type octet below, payload above (R127). -/
def ctlField (octet : Nat) (p : BitVec 56) : BitVec 64 := BitVec.ofNat 64 (p.toNat * 256 + octet % 256)
def fieldOctet (f : BitVec 64) : Nat := f.toNat % 256
def fieldPayload (f : BitVec 64) : BitVec 56 := BitVec.ofNat 56 (f.toNat / 256)

/-- The field of a data block: the earlier word below (R127). -/
def dataField (lo hi : W32) : BitVec 64 := BitVec.ofNat 64 (join64 lo hi)
def fieldWords (f : BitVec 64) : List W32 := w64 f.toNat

/-- Data blocks of the words of a frame, two words each. -/
def dataFields : List W32 → List (BitVec 64)
  | a :: b :: l => dataField a b :: dataFields l
  | [a] => [dataField a 0]
  | [] => []

/-- Class of a type octet (Table 4-3), 0 for the training blocks KICK and EIDLE; none for an octet of no type. -/
def octetClass (o : Nat) : Option Nat :=
  match o with
  | 0xF0 => some 1
  | 0x0F | 0x99 => some 0
  | 0x3C | 0xC3 | 0x69 | 0x96 => some 2
  | 0x5A => some 3
  | 0x33 => some 4
  | 0x55 | 0x66 | 0xA5 => some 5
  | 0xCC => some 6
  | 0xAA => some 7
  | _ => none

/-- Data blocks behind a header (Table 4-5). -/
def frameLen (o : Nat) (p : BitVec 56) : Nat :=
  match o with
  | 0x5A => pf p 17 8
  | 0x33 => 6
  | 0x55 => 1
  | 0xCC => 8
  | _ => 0

/-- Whether a type octet lies within one bit of BLOCK's (R129). -/
def isBlockOctet (o : BitVec 8) : Bool :=
  decide (((List.range 8).filter fun i => o.getLsbD i != (0xF0#8).getLsbD i).length ≤ 1)

/-- Whether the payload of a control block checks (R128, Table 4-4). `data`: the data block that the check of SVC also
covers; the CRC-32 of UPREC and SEG is judged when the frame is complete. -/
def payloadOk (o : Nat) (p : BitVec 56) (data : BitVec 64) : Bool :=
  match o with
  | 0xC3 => crc5Ok o p
  | 0x55 => ctlCrc 16 0x1021 o p (lsbBits 64 data.toNat) == pf p 15 0
  | 0xAA | 0x99 => p == 0
  | 0xF0 | 0x33 | 0xCC => true
  | _ => crc8Ok o p

/-- BLOCK, KICK and HELLO payloads (Table 4-4). -/
def blockPayload (cause origin : Nat) : BitVec 56 :=
  BitVec.ofNat 56 (cause % 256 * 2 ^ 48 + origin % 256 * 2 ^ 40 + 0xA5A5A5A5A5)
def kickPayload (seq : Nat) : BitVec 56 := withCrc8 0x0F (seq % 65536 * 2 ^ 40 + 0x3C5A96E1 * 2 ^ 8)
def helloPayload (role num rank : Nat) (keep : Bool) : BitVec 56 :=
  withCrc8 0x3C (role % 4 * 2 ^ 54 + 2 ^ 46 + num % 32 * 2 ^ 41 + rank % 256 * 2 ^ 33 + keep.toNat * 2 ^ 32)

/-- Headers of a telemetry record and of a segment, with the CRC-32 over their words (Table 4-4). -/
def uprecPayload (pos stride : Nat) (tailward : Bool) (words : List W32) : BitVec 56 :=
  BitVec.ofNat 56 (pos % 64 * 2 ^ 50 + tailward.toNat * 2 ^ 49 + stride % 256 * 2 ^ 41 + (crc32 (bytesOf words)).toNat)
def segPayload (pos kind idx pass : Nat) (tailward : Bool) (words : List W32) : BitVec 56 :=
  BitVec.ofNat 56 (pos % 64 * 2 ^ 50 + tailward.toNat * 2 ^ 49 + kind % 2 * 2 ^ 48 + idx % 16 * 2 ^ 44 + pass % 2 * 2 ^ 43
    + (crc32 (bytesOf words)).toNat)

/-- A class 2 block with its SLIP bit set and its check made new (R143). -/
def setSlip (o : Nat) (p : BitVec 56) : BitVec 56 :=
  match o with
  | 0xC3 => withCrc5 o (p.toNat ||| 2 ^ 5)
  | 0x69 => withCrc8 o (p.toNat ||| 2 ^ 40)
  | 0x96 => withCrc8 o (p.toNat ||| 2 ^ 41)
  | _ => p

/-! ### The transmitter (R137, R138, R140, R144, R152) -/

/-- A port's own frame is ready (R138): it waits if the port carries traffic. -/
def Port.push (f : TxFrame) (p : Port) : Port := if p.st = .up then { p with tx := p.tx ++ [f] } else p

/-- A single control block, and a frame with its data words, in the class of the type. -/
def ctlFrame (o : Nat) (p : BitVec 56) (words : List W32) : TxFrame :=
  { cls := (octetClass o).getD 7, octet := o, payload := p, data := dataFields words }
def sendFrame (k o : Nat) (p : BitVec 56) (words : List W32) (b : Block) : Block := onPort k (Port.push (ctlFrame o p words)) b

/-- The highest class that waits (Table 4-8; on the pair link by Table 11-3, log 47); 15: none. -/
def topClass (l : List TxFrame) : Nat := l.foldl (fun m f => Nat.min m f.cls) 15

/-- What leaves of a frame in one slot: sync header and field, and what remains of the frame, none when it is through.
A forwarded frame whose next data block has not come leaves IDLE. -/
def TxFrame.next (f : TxFrame) : (BitVec 2 × BitVec 64) × Option TxFrame :=
  let left := fun (g : TxFrame) => if g.data = [] ∧ g.due = 0 then none else some g
  if !f.begun then ((syncCtl, ctlField f.octet f.payload), left { f with begun := true })
  else
    match f.data with
    | d :: ds => ((syncData, d), left { f with data := ds })
    | [] => ((syncCtl, ctlField 0xAA 0), some f)

/-- The first frame of the highest class sends its next block (R138). -/
def txStep (cls : Nat) : List TxFrame → (BitVec 2 × BitVec 64) × List TxFrame
  | [] => ((syncCtl, ctlField 0xAA 0), [])
  | f :: l =>
    if f.cls = cls then (f.next.1, f.next.2.toList ++ l)
    else ((txStep cls l).1, f :: (txStep cls l).2)

/-- What a lane's slot depends on beside its port: `silent`: no clock, no power or the die in reset; `mute`: SYS is
out of lock and the lane carries only what its inserter sends (R475); `line`: a block line stands; `base3`: the BLOCK of
R151; `origin`: ORIGIN of a BLOCK; `role`, `num`, `rank`: of HELLO; `relay`: idle between frames (R152). -/
structure LaneCtx where
  silent : Bool := false
  mute : Bool := false
  line : Bool := false
  base3 : Bool := false
  origin : Nat := 0
  role : Nat := 0
  num : Nat := 0
  rank : Nat := 0
  relay : Bool := false
  deriving DecidableEq, Repr

/-- A block leaves in this slot, scrambled. -/
def Port.emit (sync : BitVec 2) (f : BitVec 64) (p : Port) : Port :=
  let x := scrRun false p.scr f
  { p with scr := x.1, wire := some { sync := sync, field := x.2 }, slots := p.slots + 1, sinceHello := p.sinceHello + 1
           blockCause := 0 }

def Port.emitCtl (o : Nat) (pl : BitVec 56) (p : Port) : Port := p.emit syncCtl (ctlField o pl)

/-- KICK with the next SEQ; BLOCK with a cause; HELLO. -/
def Port.emitKick (p : Port) : Port := { p.emitCtl 0x0F (kickPayload (p.txSeq + 1)) with txSeq := (p.txSeq + 1) % 65536 }
def Port.emitBlock (c : LaneCtx) (cause : Nat) (p : Port) : Port :=
  { p.emitCtl 0xF0 (blockPayload cause c.origin) with blockCause := cause }
def Port.emitHello (c : LaneCtx) (p : Port) : Port :=
  { p.emitCtl 0x3C (helloPayload c.role c.num c.rank false) with sinceHello := 0 }

/-- EIDLE; behind the fourth the lane is squelched (R152). -/
def Port.emitEidle (left : Nat) (p : Port) : Port := { p.emitCtl 0x99 0 with eidle := left, txIdle := left == 0 }

/-- A keepalive HELLO becomes ready (R144). -/
def Port.keepalive (c : LaneCtx) (p : Port) : Port :=
  { p.push (ctlFrame 0x3C (helloPayload c.role c.num c.rank true) []) with keepalives := p.keepalives + 1, sinceHello := 0 }

/-- A slot of traffic: a keepalive falls due at the 1,024th slot, then the highest class that waits (R137, R138, R144). -/
def Port.traffic (c : LaneCtx) (p : Port) : Port :=
  let p := if p.sinceHello + 1 < 1024 then p else p.keepalive c
  if c.relay && p.tx == [] then p.emitEidle 3
  else
    let x := txStep (topClass p.tx) p.tx
    { p.emit x.1.1 x.1.2 with tx := x.2 }

/-- One slot of a lane: the idle exit burst, BLOCK, the entry to idle, KICK or HELLO in training, traffic in UP (R137,
R140, R151, R152). The slot in which BLOCK falls due on an idle lane, or traffic on a relay's, begins the burst. -/
def Port.slot (c : LaneCtx) (p : Port) : Port :=
  if c.silent then { p with wire := none, blockCause := 0 }
  else if p.txIdle then
    if c.line || (!c.mute && p.st == .up && p.tx != []) then { p.emitKick with txIdle := false, exit := 31 }
    else { p with wire := none, blockCause := 0 }
  else if c.mute && !c.line then { p with wire := none, blockCause := 0 }
  else if 0 < p.exit then { p.emitKick with exit := p.exit - 1 }
  else if c.line then p.emitBlock c 1
  else if 0 < p.blockSlots then { p.emitBlock c 2 with blockSlots := p.blockSlots - 1 }
  else if 0 < p.eidle then p.emitEidle (p.eidle - 1)
  else if c.base3 && p.slots % 16 == 0 && (p.st == .train || p.st == .up) then p.emitBlock c 3
  else
    match p.st with
    | .train => p.emitKick
    | .hello => p.emitHello c
    | .up => p.traffic c
    | _ => p.emitEidle 3

/-! ### The receiver (R128, R139, R146) -/

/-- One sync header (R146): it enters the window of the last 64; under lock an invalid one is counted (R162). -/
def Port.header (p : Port) (h : BitVec 2) : Port :=
  let ok := h == syncData || h == syncCtl
  { p with hdrs := (ok :: p.hdrs).take 64, syncErr := if p.rxLock && !ok then satInc 255 p.syncErr else p.syncErr }

/-- 16 of the last 64 headers were invalid; the last `n` were all valid (R146, R153). -/
def Port.manyBad (p : Port) : Bool := decide (16 ≤ (p.hdrs.filter fun v => !v).length)
def Port.allGood (n : Nat) (p : Port) : Bool := decide (n ≤ p.hdrs.length) && (p.hdrs.take n).all id

/-- Headers in order, up to the one at which 16 of 64 are invalid; whether that came. -/
def Port.headers (p : Port) : List (BitVec 2) → Port × Bool
  | [] => (p, false)
  | h :: l => if (p.header h).manyBad then (p.header h, true) else (p.header h).headers l

/-- A block that is no KICK ends a run of KICK and the burst of an idle exit (R145, R153). -/
def Port.other (p : Port) : Port := { p with kickRun := 0, burst := 0 }

/-- A valid header: it suspends frames of a lower class; a frame of its own class or a higher one that was not through is
lost. -/
def Port.rxHeader (o : Nat) (pl : BitVec 56) (p : Port) : Port :=
  let c := (octetClass o).getD 7
  let l := p.stack.filter fun f => decide (c < (octetClass f.octet).getD 7)
  { p.other with stack := if frameLen o pl = 0 then l else { octet := o, payload := pl, left := frameLen o pl } :: l }

/-- One data block: it belongs to the frame that runs; with its last one the frame is through and the suspended one
resumes. Without a frame it is discarded. -/
def Port.rxData (w : List W32) (p : Port) : Port × Option RxFrame :=
  match p.stack with
  | [] => (p, none)
  | f :: l =>
    let g : RxFrame := { f with left := f.left - 1, words := f.words ++ w }
    if f.left ≤ 1 then ({ p with stack := l }, some g) else ({ p with stack := g :: l }, none)

/-- Data blocks in order; the words of the frame with this header, once it is through. -/
def Port.rxWords (o : Nat) (pl : BitVec 56) : List W32 → Port → Port × Option (List W32)
  | a :: b :: l, p =>
    match p.rxData [a, b] with
    | (q, some f) => if f.octet = o ∧ f.payload = pl then (q, some (f.words ++ l)) else Port.rxWords o pl l q
    | (q, none) => Port.rxWords o pl l q
  | _, p => (p, none)

/-- What has come of a frame: `skip` = 0, its header and the words behind it; else the words after its first `skip` data
blocks, which belong to it only while it is the frame that runs (R139). -/
def Port.rxFrame (o : Nat) (pl : BitVec 56) (skip : Nat) (words : List W32) (p : Port) : Port × Option (List W32) :=
  if skip = 0 then (p.rxHeader o pl).rxWords o pl words
  else
    match p.stack with
    | f :: _ =>
      if f.octet = o ∧ f.payload = pl ∧ f.words.length = 2 * skip then p.other.rxWords o pl words else (p, none)
    | [] => (p, none)

/-- R128: a control block that is discarded. An unknown type or a header whose check fails abandons every frame (R139);
an unknown type or a bad HELLO breaks a run of HELLO (R147). -/
def Port.discard (o : Nat) (p : Port) : Port :=
  { p.other with
    ctrlErr := satInc 255 p.ctrlErr
    helloRun := if octetClass o = none ∨ o = 0x3C then 0 else p.helloRun
    stack := if octetClass o = none ∨ o = 0x5A ∨ o = 0x55 then [] else p.stack }

/-! ### Forwarding at a cell (R129, R141 to R143) -/

/-- A block of a passing frame reaches the other port: the first frame of that header that still waits for blocks. -/
def addData (o : Nat) (pl : BitVec 56) (d : BitVec 64) : List TxFrame → List TxFrame
  | [] => []
  | f :: l =>
    if f.octet = o ∧ f.payload = pl ∧ 0 < f.due then { f with data := f.data ++ [d], due := f.due - 1 } :: l
    else f :: addData o pl d l

/-- BLOCK waits at the port: a class 2 block cannot leave at exactly F. -/
def Port.blockWaits (p : Port) : Bool := p.tx.any fun f => f.cls == 1

/-- What a control block received at one port gives the other (R141): `own`: the cell's position, none before ENUM;
`slip`: a rate-match slip (R143). ENUM leaves by CELL_ENUM with its counter incremented. -/
def forwardCtl (own : Option Nat) (slip : Bool) (o : Nat) (pl : BitVec 56) (out : Port) : Port :=
  match octetClass o with
  | some 1 => { out.push (ctlFrame 0xF0 pl []) with blockFwd := out.blockFwd + 1 }
  | some 2 =>
    if o = 0x3C ∨ (o = 0x69 ∧ own = some (pf pl 55 49)) then out
    else out.push (ctlFrame o (if slip || out.blockWaits then setSlip o pl else pl) [])
  | some 5 => if o = 0x66 then out else out.push { ctlFrame o pl [] with due := frameLen o pl }
  | some 0 | some 7 | none => out
  | some _ => out.push { ctlFrame o pl [] with due := frameLen o pl }

end Sys2Proof.Machine
end

