-- ==== Sys2Proof/Machine/Stop.lean ====
section
/-! DEFINITION. What other chapters ask of the mode manager: the mode in force, the pair role, the immediate stop of R291
with its BLOCK, and the checks a command makes of mode and role. -/

namespace Sys2Proof.Machine

/-- SAFE or SERVICE in force. -/
def atRest (b : Block) : Bool := b.md.mode == .safe || b.md.mode == .service

/-- Roles that send commands on the chains (Table 11-1). -/
def sends (b : Block) : Bool := b.pair.role == 0 || b.pair.role == 2 || b.pair.role == 5
/-- The Summit die runs (R38): SYS is in lock and the die is out of reset. -/
def sysRuns (b : Block) : Bool := !b.prot.sysOut && !b.prot.summitReset
/-- Roles in which engines, Slalom and ledger work (Table 11-1). -/
def computes (b : Block) : Bool := sends b || b.pair.role == 3
def isPartner (b : Block) : Bool := b.pair.role == 3
def isLead (b : Block) : Bool := b.pair.role == 2 || b.pair.role == 5

/-- Roles that Patrol treats as lead under R42 and R43 (Table 11-1). -/
def treatedLead (role : Nat) : Bool := role == 0 || role == 2

/-- This unit's RANK and bib (R393). -/
def rank (b : Block) : Nat := if pairEn b then cfgN b 0x81 0 0 30 23 else 0
def bib (b : Block) : Nat := b.pair.epoch * 256 + cfgN b 0x81 0 0 30 23

/-- A lead whose partner can take over: it relinquishes where a unit alone would stop (R408). -/
def covered (b : Block) : Bool := b.pair.role == 5 && !bit (word b.pair.peerStep 2) 24

/-- A command mirrored to the partner (R403): stride at whose boundary it takes effect, opcode, words. What the lead tells
the other unit beside the host's commands goes by codes outside Table 16-8 (log 5). -/
def mirror (stride op : Nat) (words : List W32) (b : Block) : Block :=
  if isLead b then { b with pair := { b.pair with cmdSent := b.pair.cmdSent ++ [(Nat.max stride (now b + 1), op, words)] } } else b
/-- The lead's servo state (R461), its CAP_FACTOR (R523), enumeration asked of the head end (R395), feeds asked (R118). -/
def cmdTimeState : Nat := 0xF001
def cmdCapFactor : Nat := 0xF002
def cmdEnumerate : Nat := 0xF003
def cmdFeed : Nat := 0xF004

/-- Codes of Table 8-1. -/
def Mode.code : Mode → Nat
  | .safe => 0
  | .charge => 1
  | .follow => 2
  | .form => 3
  | .coast => 4
  | .plough => 5
  | .service => 6
  | .discharge => 7

/-- The mode of a code. -/
def Mode.ofCode (n : Nat) : Mode :=
  match n with
  | 1 => .charge
  | 2 => .follow
  | 3 => .form
  | 4 => .coast
  | 5 => .plough
  | 6 => .service
  | 7 => .discharge
  | _ => .safe

/-- A unit port whose transmitter is not in electrical idle. -/
def laneActive (b : Block) (k : Nat) : Bool :=
  let p := port b k
  p.st != .off && p.st != .dark && !p.txIdle

/-- The Summit sends BLOCK in the next `slots` slots of every active lane, CAUSE 2 (R291, R336). -/
def sendBlock (slots : Nat) (b : Block) : Block :=
  (List.range 32).foldl (fun (b : Block) k =>
    if laneActive b k then
      onPort k (fun p => { p with blockSlots := p.blockSlots + slots }) b
    else b) b

/-- A stop for rule 1 of the avalanche filter: stride and low byte of the trip's TRIP_ID (R359). -/
def noteStop (id : W32) (b : Block) : Block :=
  { b with prot.stops := ((now b, id) :: b.prot.stops).take 64 }

/-- Cancel the pending mode request of R289, with EV_MODE_CANCELLED and its EV_ACTION. `keepSafe`: an orderly stop leaves
a request for SAFE alone. -/
def cancelMode (keepSafe : Bool) (b : Block) : Block :=
  let p : Action → Bool := fun a => match a.kind with
    | .mode m _ => !(keepSafe && m == .safe)
    | _ => false
  (b.host.actions.filter p).foldl (fun (b : Block) (_ : Action) => raise .modeCancelled [] b) (cancelActions p .cancelled b)

/-- The immediate stop of R291 with its cause (Table 16-17): BLOCK unless partner or relay, NOLIST from this stride on,
SAFE from the next boundary; a check of R321 and an orderly stop end. In SAFE there is nothing to stop (R295); a partner takes no
forced transition (R404). -/
def immediateStop (cause : Nat) (b : Block) : Block :=
  if b.md.mode = .safe ∨ b.md.imm.isSome ∨ isPartner b then b
  else
    let b := if sends b then sendBlock 16 b else b
    let noted : Bool := match b.prot.stops with
      | s :: _ => s.1 == now b
      | [] => false
    let b := if noted then b else noteStop (fresh b).1 (fresh b).2
    let b := cancelMode b.md.stop b
    { b with md := { b.md with imm := some cause, immAt := now b, syncAt := none } }

/-- An orderly-stop cause (R292, R295): an orderly stop in FOLLOW, FORM, COAST and PLOUGH from the next boundary, an
immediate stop in CHARGE and DISCHARGE, none elsewhere. -/
def orderlyCause (cause : Nat) (b : Block) : Block :=
  if isPartner b then b else
  match b.md.mode with
  | .follow | .form | .coast | .plough =>
    if b.md.stop ∨ b.md.orderly.isSome ∨ b.md.imm.isSome then b
    else { b with md := { b.md with orderly := some cause, orderlyAt := now b } }
  | .charge | .discharge => immediateStop cause b
  | _ => b

/-- Modes, phases and stops in which no cell is given edges (Table 8-1, R291): Slalom writes NOLIST. -/
def cellsOff (b : Block) : Bool :=
  atRest b || b.md.imm.isSome || (b.md.mode == .charge && b.md.phase == 1)
  || (b.md.mode == .discharge && (b.md.phase == 1 || b.md.phase == 3))

/-- Cases in which the host's CELL_INTEGRATE is refused with ST_WRONG_MODE (R284). -/
def integrateBarred (b : Block) : Bool :=
  atRest b || b.md.mode == .coast || b.md.mode == .discharge || (b.md.mode == .charge && b.md.phase == 1)
  || b.md.stop || b.md.imm.isSome

/-- Degradation bit `k` sets, noted for the EV_DEGRADED of this stride (R437). -/
def setDegr (k : Nat) (b : Block) : Block :=
  if b.safe.degr.getLsbD k then b
  else { b with safe := { b.safe with
    degrBefore := some (b.safe.degrBefore.getD b.safe.degr)
    degrSince := if b.safe.degr = 0 then some (now b) else b.safe.degrSince
    degrAt := Tbl.set 0 b.safe.degrAt k (now b)
    degr := b.safe.degr ||| (1#8 <<< k) } }

/-- Degradation bit `k` clears; when DEGR returns to zero PLOUGH_LEFT is reloaded and BACKSTOP clears (R439, R442). -/
def clearDegr (k : Nat) (b : Block) : Block :=
  if !b.safe.degr.getLsbD k then b
  else
    let d := b.safe.degr &&& ~~~(1#8 <<< k)
    { b with safe := { b.safe with
      degrBefore := some (b.safe.degrBefore.getD b.safe.degr)
      degrAt := Tbl.set 0 b.safe.degrAt k 0
      degrSince := if d = 0 then none else b.safe.degrSince
      expired := if d = 0 then false else b.safe.expired
      backstop := if d = 0 then false else b.safe.backstop
      degr := d } }

/-- Row r of Table 8-4 as a cause of EV_MODE. -/
def stopRow (r : Nat) : Nat := 16 + r

/-- An engine is declared failed (R69): it stays out of service; a summit engine that hosts a limb or the station laws is
row 3 of Table 8-4; a covered lead relinquishes instead (R408). -/
def engineFail (e : Nat) (b : Block) : Block :=
  if (engine b e).failed then b
  else
    let b := raise .engineFault [w32 e] (onEngine e (fun (x : Engine) => { x with failed := true, reloaded := false, running := false, shadowLaw := none }) b)
    if !covered b ∧ 256 ≤ e ∧ (hosted b e ≠ [] ∨ hostsStation b e) then immediateStop (stopRow 3) b else b

end Sys2Proof.Machine
end

