-- ==== Sys2Proof/Machine/Legs.lean ====
section
/-! DEFINITION. Local legs of the Patrol die (chapter 10, R362 to R376, R389) and their short-circuit detectors (R342 to
R345). A sample time is stride × 8,000 + offset, in 1.25 ns. -/

namespace Sys2Proof.Machine

def comp (b : Block) (c : Nat) : Comp := Tbl.get {} b.prot.comps c
def onComp (c : Nat) (f : Comp → Comp) (b : Block) : Block := { b with prot.comps := Tbl.upd {} b.prot.comps c f }
def leg (b : Block) (n : Nat) : Leg := Tbl.get {} b.prot.legs n
def onLeg (n : Nat) (f : Leg → Leg) (b : Block) : Block := { b with prot.legs := Tbl.upd {} b.prot.legs n f }
def drive (b : Block) (d : Nat) : Drive := Tbl.get {} b.prot.drives d
def onDrive (d : Nat) (f : Drive → Drive) (b : Block) : Block := { b with prot.drives := Tbl.upd {} b.prot.drives d f }
def chop (b : Block) (k : Nat) : Chop := Tbl.get {} b.prot.chops k
def onChop (k : Nat) (f : Chop → Chop) (b : Block) : Block := { b with prot.chops := Tbl.upd {} b.prot.chops k f }

/-- The sample of an offset in the stride in force. -/
def sampleAt (b : Block) (offset : Nat) : Nat := now b * 8000 + offset

/-- The capture record of Table 9-2. -/
def captureRec (b : Block) (input offset : Nat) (edge under : Bool) : List W32 :=
  w64 (now b) ++ [pack [fld offset 31 19, fld input 18 12, flg edge 11, flg b.prot.ownOsc 10, flg under 9]]

/-- Write a capture record to the FIFO of 256 entries, or count it lost (R329). -/
def capture (input offset : Nat) (edge under : Bool) (b : Block) : Block :=
  if b.prot.captures.length < 256 then
    { b with prot.captures := b.prot.captures ++ [captureRec b input offset edge under] }
  else { b with prot.capLost := b.prot.capLost + 1 }

/-- Trip-matrix input `i` becomes active or inactive (Table 9-4). -/
def setInput (i : Nat) (v : Bool) (b : Block) : Block :=
  let b := if i = 67 ∧ v = true ∧ b.prot.inputs.getLsbD 67 = false then recNote 7 67 b else b
  { b with prot.inputs := if v then b.prot.inputs ||| (1#72 <<< i) else b.prot.inputs &&& ~~~(1#72 <<< i) }

/-! ### What holds a leg off (R371) -/

def chopLeg (b : Block) (k : Nat) : Nat := cfgN b 0x18 k 0 31 28
def chopComp (b : Block) (k : Nat) : Nat := cfgN b 0x18 k 0 27 22
/-- MODE of a chopper; MODE 2 acts as MODE 1 while the Summit die is lost (R353) or Patrol restarts (R569). -/
def chopMode (b : Block) (k : Nat) : Nat :=
  let m := if cfgWritten b 0x18 k then cfgN b 0x18 k 0 21 20 else 0
  if m = 2 ∧ (b.prot.summitLost = true ∨ b.prot.restartAt.isSome = true) then 1 else m

/-- The chopper that names leg `n`. -/
def chopOf (b : Block) (n : Nat) : Option Nat :=
  [0, 1].find? fun k => chopMode b k != 0 && chopLeg b k == n

/-- The legs of drive `d`: phases A, B, C. -/
def driveLegs (b : Block) (d : Nat) : List Nat := [cfgN b 0x1B d 0 29 26, cfgN b 0x1B d 0 25 22, cfgN b 0x1B d 0 21 18]
def driveEn (b : Block) (d : Nat) : Bool := cfgBit b 0x1B d 0 31

/-- The drive that names leg `n`. -/
def driveOf (b : Block) (n : Nat) : Option Nat :=
  (List.range 4).find? fun d => driveEn b d && (driveLegs b d).contains n

def legFunc (b : Block) (n : Nat) : Nat := cfgN b 0x1A n 0 31 30
def legDead (b : Block) (n : Nat) : Nat := cfgN b 0x1A n 0 29 18
def bootEn (b : Block) (n : Nat) : Bool := cfgBit b 0x1A n 0 17
def bootMax (b : Block) (n : Nat) : Nat := cfgN b 0x1A n 0 16 4
def bootPulse (b : Block) (n : Nat) : Nat := cfgN b 0x1A n 1 31 20
def bootIdle (b : Block) (n : Nat) : Nat := cfgN b 0x1A n 1 19 8

/-- Whether a copy holds EN of leg `n` low (R336, R338). -/
def copyHolds (b : Block) (c : MatrixCopy) (n : Nat) : Bool :=
  c.tripped && (List.range 72).any fun i => c.cause.getLsbD i &&
    (if (chopOf b n).isSome then i == 65 || i == 68 || i == 48 + n else cfgBit b 0x15 i 0 n)

/-- R371: the short-circuit latch, a matrix copy, or a leg already turned off in a debug freeze; a trip that has been cleared up
to the next boundary (R350); while Patrol restarts every leg but a chopper's (R569). -/
def legHeld (b : Block) (n : Nat) : Bool :=
  (b.prot.restartAt.isSome && legFunc b n != 2) || (leg b n).sc || b.prot.clearLegs.getLsbD n || copyHolds b b.prot.copyA n || copyHolds b b.prot.copyB n || (b.prot.frozen && (leg b n).frozenOff)

/-! ### EN edges, blanking, trips -/

/-- EN falls at sample T. -/
def Leg.fall (l : Leg) (T : Nat) : Leg :=
  if l.len then
    { l with len := false, fellAt := some T, riseAt := none, blank := false
             highAcc := if l.lp then l.highAcc + (T - Nat.max l.accFrom (l.riseAt.getD T)) else l.highAcc }
  else l

/-- R344: the leg trips in its detection sample. -/
def legTrip (n T : Nat) (b : Block) : Block :=
  if (leg b n).sc then b
  else
    let b := onLeg n (fun l => { l.fall T with sc := true, onAt := none, ins := none, deferred := false
                                               frozenOff := l.frozenOff || b.prot.frozen }) b
    setInput (48 + n) true (capture (48 + n) (T - now b * 8000) true false b)

/-- EV_SC_BLANKED at most once per 1,000 strides per leg (R345). -/
def blankEvent (n : Nat) (b : Block) : Block :=
  let due : Bool := match (leg b n).blankEvAt with
    | some t => decide (t + 1000 ≤ now b)
    | none => true
  if due then
    raise .scBlanked [w32 n, w32 (leg b n).blankCnt] (onLeg n (fun l => { l with blankEvAt := some (now b) }) b)
  else b

/-- Blanking ends and Table 9-8 decides. -/
def blankEnd (n T : Nat) (b : Block) : Block :=
  let l := leg b n
  let cnt := if l.scSeen && !l.scOn then satInc 65535 l.blankCnt else l.blankCnt
  let b := onLeg n (fun l => { l with blank := false, scSeen := false, blankCnt := cnt }) b
  if l.scOn then legTrip n T b else if l.scSeen then blankEvent n b else b

/-- EN of leg `n` falls; a blanking in progress ends in that sample (R343). -/
def dropEn (n T : Nat) (b : Block) : Block :=
  let was := (leg b n).blank && (leg b n).len
  let b := onLeg n (fun l => l.fall T) b
  if was then blankEnd n T b else b

/-- EN rises with the commanded switch; blanking starts; low side on ends an off-time (R343, R367, R373). -/
def enRise (n T : Nat) (high : Bool) (b : Block) : Block :=
  onLeg n (fun l => { l with len := true, lp := high, riseAt := some T, onAt := none, lpAt := none, deferred := false
                             blank := true, scSeen := l.scOn, offSince := if high then l.offSince else none }) b

/-- LPULSE takes its value once its time has come (Table 10-3). -/
def Leg.settle (l : Leg) (T : Nat) : Leg :=
  match l.lpAt with
  | some t => if t ≤ T ∧ !l.len then { l with lp := l.target == 2, lpAt := none } else l
  | none => l

/-- Start a change to an on-state at sample T: from the other side, or from off (Table 10-3). -/
def startOn (n dst T : Nat) (b : Block) : Block :=
  let d := legDead b n
  if (leg b n).len then
    onLeg n (fun l => { l with target := dst, lpAt := some (T + d / 2), onAt := some (T + d) }) (dropEn n T b)
  else if (leg b n).onAt.isSome then
    onLeg n (fun l => { l with target := dst, lpAt := some (T + d / 2), onAt := some (T + d) }) b
  else onLeg n (fun l => { l with target := dst, lp := dst == 2, lpAt := none, onAt := some (T + d), deferred := false }) b

/-- A change to off: never delayed; ends an insertion (R368, R374). -/
def startOff (n T : Nat) (b : Block) : Block :=
  onLeg n (fun l => { l with target := 0, onAt := none, lpAt := none, ins := none, deferred := false
                             offSince := some (l.offSince.getD T) }) (dropEn n T b)

/-- The source of leg `n` commands a state: tracked while the leg is held or frozen (R371, R389); inside an insertion as
R374; else carried out by Table 10-3. -/
def legCommand (n dst T : Nat) (b : Block) : Block :=
  let l := leg b n
  let b := onLeg n (fun l => { (l.settle T) with cmd := dst }) b
  if legHeld b n ∨ b.prot.frozen then b
  else if dst = l.cmd ∧ l.target = dst then b
  else if dst = 0 then startOff n T b
  else
    match l.ins with
    | some _ =>
      if dst = 1 then onLeg n (fun l => { l with ins := none, target := 1, onAt := if l.len then none else l.onAt }) b
      else b
    | none => startOn n dst T b

/-- Legs that something holds go off; in a debug freeze they stay off until the halt ends (R371, R374, R389). -/
def applyHolds (T : Nat) (b : Block) : Block :=
  (List.range 16).foldl (fun (b : Block) n =>
    if legHeld b n then
      onLeg n (fun l => { l with onAt := none, ins := none, deferred := false, lpAt := none
                                 offSince := some (l.offSince.getD T)
                                 frozenOff := l.frozenOff || b.prot.frozen }) (dropEn n T b)
    else b) b

/-- The legs that sector k drives, high and low, as phases 0 to 2: the order A-B, A-C, B-C, B-A, C-A, C-B (log 29). -/
def sectorLegs (k : Nat) : Nat × Nat :=
  match k with
  | 0 => (0, 1)
  | 1 => (0, 2)
  | 2 => (1, 2)
  | 3 => (1, 0)
  | 4 => (2, 0)
  | _ => (2, 1)

/-- What the commutation block may command of phase `ph`: six-step lets the sector's legs alone conduct (R380), braking turns low
sides on (R385), a sinusoidal drive switches all three legs (R381). -/
def phaseSays (v : Drive) (six : Bool) (ph dst : Nat) : Bool :=
  match v.st with
  | .brake => dst != 2
  | .run | .openLoop | .align =>
    if six then dst == 0 || ph == (sectorLegs v.sector).1 || (ph == (sectorLegs v.sector).2 && dst == 1) else dst != 0
  | _ => false

/-- Whether the loaded edges hold this change of leg `n` (Table 10-4). -/
def hasEdge (b : Block) (n dst offset : Nat) : Bool :=
  b.prot.legEdges.any fun e =>
    bits e 31 19 == offset && bits e 18 15 == n && bits e 14 13 == (if dst = 0 then 2 else dst - 1)

/-- R366: whether the source that FUNC names commands this change. -/
def sourceSays (b : Block) (n dst offset : Nat) : Bool :=
  match legFunc b n with
  | 1 => hasEdge b n dst offset
  | 2 => match chopOf b n with
    | some k => chopMode b k == 2 && !(chop b k).requested && !(chop b k).rest && !(chop b k).limited
        && !b.prot.summitLost && hasEdge b n dst offset
    | none => false
  | 3 => match driveOf b n with
    | some d =>
      let v := drive b d
      let six := !cfgBit b 0x1B d 0 30 || v.sensorless
      !v.window && (List.range 3).any fun ph => (driveLegs b d).getD ph 16 == n && phaseSays v six ph dst
    | none => false
  | _ => false

def execLegChange (leg : Fin 16) (dst : Fin 3) (offset : Fin 8192) (s : State) : Host.Outcome State Fault Refusal :=
  s.act fun b =>
    if sourceSays b leg.val dst.val offset.val then legCommand leg.val dst.val (sampleAt b offset.val) b else b

/-- A precharge comes before the high-side on that leg `n` waits for (R373). -/
def prechargeDue (b : Block) (n T : Nat) : Bool :=
  let l := leg b n
  let long : Bool := match l.offSince with
    | some t => decide (t + bootIdle b n * 800000 ≤ T)
    | none => false
  l.cmd == 2 && !l.len && l.onAt.isSome && l.ins.isNone && bootEn b n && long && !b.prot.frozen && !legHeld b n

/-- EN rises when its time has come: a normal change, the low interval of an insertion, or its end (R367, R372); not a high-side
on that a precharge must come before (R373). -/
def legEnRise (n T : Nat) (b : Block) : Block :=
  let b := onLeg n (fun l => l.settle T) b
  let l := leg b n
  if legHeld b n ∨ b.prot.frozen ∨ prechargeDue b n T then b
  else
    match l.onAt with
    | none => b
    | some x =>
      if T < x then b
      else
        match l.ins with
        | none =>
          if T < (l.fellAt.map (· + legDead b n)).getD 0 then
            onLeg n (fun l => { l with deferred := true, onAt := none, defers := satInc 255 l.defers }) b
          else enRise n T (l.target == 2) b
        | some (k, 0) =>
          onLeg n (fun l => { l with ins := some (k, 1), onAt := some (T + bootPulse b n + legDead b n) })
            (enRise n T false b)
        | some _ =>
          let b := dropEn n (T - legDead b n) b
          if legHeld b n then b
          else onLeg n (fun l => { l with ins := none, target := 2 }) (enRise n T true b)

def execLegEnRise (leg : Fin 16) (offset : Fin 8192) (s : State) : Host.Outcome State Fault Refusal :=
  s.act fun b => legEnRise leg.val (sampleAt b offset.val) b

/-- R368: a delayed on-change is carried out once EN has been low for D samples. -/
def execLegOnDeferred (leg : Fin 16) (offset : Fin 8192) (s : State) : Host.Outcome State Fault Refusal :=
  s.act fun b =>
    let T := sampleAt b offset.val
    let l := Sys2Proof.Machine.leg b leg.val
    if l.deferred && !l.len && !legHeld b leg.val && !b.prot.frozen
        && decide ((l.fellAt.map (· + legDead b leg.val)).getD 0 ≤ T) then
      enRise leg.val T (l.target == 2) b
    else b

/-- Start the commanded state as a change from off (R371). -/
def restartLeg (n T : Nat) (b : Block) : Block :=
  let c := (leg b n).cmd
  if c = 0 then b
  else onLeg n (fun l => { l with target := c, lp := c == 2, lpAt := none, onAt := some (T + legDead b n) }) b

/-- A catch window starts on drive `d`: its legs are off (R384). -/
def driveOff (d T : Nat) (b : Block) : Block := (driveLegs b d).foldl (fun (b : Block) n => legCommand n 0 T b) b

/-- Move a drive to a state. -/
def driveTo (d : Nat) (st : DriveSt) (window : Bool) (b : Block) : Block :=
  onDrive d (fun v => { v with st := st, since := now b, phaseAt := now b, loopAt := none, window := window, lastCross := 0, crossRun := 0, missRun := 0
                               disagree := 0, commDue := false }) b

/-- Whether R371 holds any leg of drive `d`. -/
def driveForced (b : Block) (d : Nat) : Bool := (driveLegs b d).any (legHeld b)

/-- Start a catch window (R384): a pump that lost lock is commutated by R380 from this window on (R386). -/
def startCatch (d T : Nat) (b : Block) : Block :=
  driveTo d .catch true (driveOff d T b)

/-- A drive whose legs are released leaves HALTED (Table 10-7, R386). -/
def driveRelease (d T : Nat) (b : Block) : Block :=
  let v := drive b d
  if v.st ≠ .halted ∨ driveForced b d ∨ b.prot.frozen then b
  else
    let b := onDrive d (fun v => if v.resValid then { v with sensorless := false, sensorlessNext := false } else v) b
    if fIsZero v.setpoint then driveTo d .off false b else startCatch d T b

def execLegForceRelease (leg : Fin 16) (offset : Fin 8192) (s : State) : Host.Outcome State Fault Refusal :=
  s.act fun b =>
    if legHeld b leg.val ∨ b.prot.frozen ∨ (Sys2Proof.Machine.leg b leg.val).len then b
    else
      match (if legFunc b leg.val = 3 then driveOf b leg.val else none) with
      | some d => driveRelease d (sampleAt b offset.val) b
      | none => restartLeg leg.val (sampleAt b offset.val) b

/-! ### Short-circuit detectors (R343, R344) -/

/-- One sample of a threshold through the filter of SC_K consecutive samples: state, run. -/
def scFilter (k : Nat) (on : Bool) (run : Nat) (raw : Bool) : Bool × Nat :=
  if raw = on then (on, 0) else if run + 1 ≥ k then (raw, 0) else (on, run + 1)

def legScK (b : Block) (n : Nat) : Nat := cfgN b 0x16 n 1 31 28

/-- HARD_TH samples: an assertion trips in its sample. -/
def hardSamples (n : Nat) : List Bool → Nat → Block → Block
  | [], _, b => b
  | r :: rs, T, b =>
    let l := leg b n
    let (on, run) := scFilter (legScK b n) l.hardOn l.hardRun r
    let b := onLeg n (fun l => { l with hardOn := on, hardRun := run }) b
    hardSamples n rs (T + 1) (if on && !l.hardOn then legTrip n T b else b)

/-- SC_TH samples: an assertion outside blanking trips, inside it is noted (Table 9-8). -/
def scSamples (n : Nat) : List Bool → Nat → Block → Block
  | [], _, b => b
  | r :: rs, T, b =>
    let l := leg b n
    let (on, run) := scFilter (legScK b n) l.scOn l.scRun r
    let b := onLeg n (fun l => { l with scOn := on, scRun := run, scSeen := l.scSeen || (on && l.blank) }) b
    scSamples n rs (T + 1) (if on && !l.scOn && !l.blank then legTrip n T b else b)

def execLegHardTh (leg : Fin 16) (samples : List Bool) (offset : Fin 8192) (s : State) :
    Host.Outcome State Fault Refusal :=
  s.act fun b => hardSamples leg.val samples (sampleAt b offset.val) b

def execLegScTh (leg : Fin 16) (samples : List Bool) (offset : Fin 8192) (s : State) :
    Host.Outcome State Fault Refusal :=
  s.act fun b => scSamples leg.val samples (sampleAt b offset.val) b

/-- Blanking ends BLANK × 10 ns after EN rose (R343). -/
def execBlankingEnd (leg : Fin 16) (offset : Fin 8192) (s : State) : Host.Outcome State Fault Refusal :=
  s.act fun b =>
    let l := Sys2Proof.Machine.leg b leg.val
    let T := sampleAt b offset.val
    if l.blank && decide (l.riseAt.getD T + 8 * cfgN b 0x16 leg.val 0 11 2 ≤ T) then blankEnd leg.val T b else b

/-! ### Bootstrap refresh (R372 to R375) -/

def execBootRefresh (leg : Fin 16) (offset : Fin 8192) (s : State) : Host.Outcome State Fault Refusal :=
  s.act fun b =>
    let n := leg.val
    let T := sampleAt b offset.val
    let l := Sys2Proof.Machine.leg b n
    if l.len && l.lp && l.ins.isNone && bootEn b n && !b.prot.frozen && !legHeld b n
        && decide (l.riseAt.getD T + bootMax b n * 800 ≤ T) then
      let b := onLeg n (fun l => { l with refreshes := l.refreshes + 1, refreshed := true }) (dropEn n T b)
      if legHeld b n then b
      else onLeg n (fun l => { l with ins := some (0, 0), lpAt := some (T + legDead b n / 2), target := 1
                                      onAt := some (T + legDead b n) }) b
    else b

def execBootPrecharge (leg : Fin 16) (offset : Fin 8192) (s : State) : Host.Outcome State Fault Refusal :=
  s.act fun b =>
    let n := leg.val
    let T := sampleAt b offset.val
    if prechargeDue b n T then
      onLeg n (fun l => { l with ins := some (1, 0), lp := false, lpAt := none, target := 1
                                 onAt := some (T + legDead b n), defers := satInc 255 l.defers }) b
    else b

/-- R375. -/
def execBootStarve (leg : Fin 16) (s : State) : Host.Outcome State Fault Refusal :=
  s.act fun b =>
    let l := Sys2Proof.Machine.leg b leg.val
    if 100000 ≤ l.starveRun ∧ !l.starveTold then
      raise .bootStarve [w32 leg.val, w32 l.refreshes] (onLeg leg.val (fun l => { l with starveTold := true }) b)
    else b

/-! ### Debug freeze (R389) -/

/-- A halt of the safety cores needs an authorization in force (degradation bit 7). -/
def execDebugFreeze (s : State) : Host.Outcome State Fault Refusal :=
  s.act fun b => if b.safe.degr.getLsbD 7 then { b with prot.frozen := true } else b

/-- The halt ends: every leg is released as from a forced off, every drive not OFF or FAULT enters HALTED. -/
def debugFreezeEnd (T : Nat) (b : Block) : Block :=
  if !b.prot.frozen then b
  else
    let b := { b with prot.frozen := false }
    let b := (List.range 16).foldl (fun (b : Block) n =>
      let b := onLeg n (fun l => { l with frozenOff := false, onAt := none, ins := none, lpAt := none
                                          deferred := false, target := 0 }) (dropEn n T b)
      if legHeld b n ∨ legFunc b n = 3 then b else restartLeg n T b) b
    (List.range 4).foldl (fun (b : Block) d =>
      if (drive b d).st = .off ∨ (drive b d).st = .fault then b
      else onDrive d (fun v => { v with integ := 0 }) (driveTo d .halted false b)) b

def execDebugFreezeEnd (offset : Fin 8192) (s : State) : Host.Outcome State Fault Refusal :=
  s.act fun b => debugFreezeEnd (sampleAt b offset.val) b

/-- LEG_STATUS (Table 10-5). -/
def legStatus (b : Block) (n : Nat) : W32 :=
  let l := leg b n
  pack [fld l.atBoundary 31 30, flg (legHeld b n) 29, flg b.prot.frozen 28, flg l.sc 27, fld l.rejects 23 16,
        fld l.defers 15 8, fld l.refreshes 7 0]

end Sys2Proof.Machine
end

