-- ==== Sys2Proof/Machine/HostIf.lean ====
section
/-! DEFINITION. The direct register block, the mailboxes, the event ring, DMA completion and host sessions
(chapter 16, R529 to R547). -/

namespace Sys2Proof.Machine

/-! ### The PCIe function (R529) -/

/-- Device ID above Vendor ID, class code, sizes in bytes of a payload and a read request. -/
def pciId : W32 := 0x20481F4B
def pciClass : Nat := 0x118000
def pciMaxPayload : Nat := 256
def pciMaxRead : Nat := 512

/-- What stands at an offset of a base address region (Table 16-1): the direct register block, the MSI-X table and its
pending bits; the request and response mailboxes. -/
inductive BarItem where
  | register (offset : Nat)
  | msixTable (offset : Nat)
  | msixPending (offset : Nat)
  | request (mbx offset : Nat)
  | response (mbx offset : Nat)
  deriving DecidableEq, Repr

/-- By the pair of BARs, 0 for 0 and 1, 2 for 2 and 3; none beyond their sizes and for BARs 4 and 5. -/
def barItem (bar off : Nat) : Option BarItem :=
  match bar with
  | 0 =>
    if off < 0x2000 then some (.register off)
    else if off < 0x3000 then some (.msixTable (off - 0x2000))
    else if off < 0x4000 then some (.msixPending (off - 0x3000))
    else none
  | 2 =>
    if 0x10000 ≤ off then none
    else if off % 0x2000 < 0x1000 then some (.request (off / 0x2000) (off % 0x2000))
    else some (.response (off / 0x2000) (off % 0x2000 - 0x1000))
  | _ => none

/-! ### Host block and watchdog (R532, R533) -/

/-- Set HOST_BLOCK.REQ with the causes given; vector 2 when REQ sets. -/
def setReq (wdog link : Bool) (b : Block) : Block :=
  let b' := setInput 64 true { b with host := { b.host with
    req := true, wdogTrip := b.host.wdogTrip || wdog, linkTrip := b.host.linkTrip || link } }
  if b.host.req then b' else msix 2 b'

/-- A write to HOST_BLOCK (R532). -/
def writeHostBlock (key : BitVec 16) (req : Bool) (b : Block) : Block :=
  if key ≠ 0xB10C then { b with host.badKey := satInc 255 b.host.badKey }
  else if req then setReq false false b
  else setInput 64 false { b with host := { b.host with req := false, wdogTrip := false, linkTrip := false } }

/-- A write to HOST_WDOG (R533). -/
def writeWdog (v : W32) (b : Block) : Block :=
  { b with host := { b.host with wdogPeriod := bits v 31 16, linkArm := bit v 0, kicks := b.host.kicks + 1, kickAt := now b } }

/-- A write to HOST_KICK restarts the watchdog (R533). -/
def kick (b : Block) : Block := { b with host := { b.host with kicks := b.host.kicks + 1, kickAt := now b } }

def execHostBlockSet (key : BitVec 16) (s : State) : Host.Outcome State Fault Refusal :=
  s.act (writeHostBlock key true)

def execHostBlockClear (key : BitVec 16) (s : State) : Host.Outcome State Fault Refusal :=
  s.act (writeHostBlock key false)

def execHostWdogWrite (v : W32) (s : State) : Host.Outcome State Fault Refusal := s.act (writeWdog v)

def execHostKick (s : State) : Host.Outcome State Fault Refusal := s.act kick

/-- PERIOD ms, 1 % early at most, have passed without a kick (R533). -/
def wdogDue (b : Block) : Bool := b.host.wdogPeriod != 0 && decide (b.host.kickAt + 99 * b.host.wdogPeriod ≤ now b)

def execHostWdogExpiry (s : State) : Host.Outcome State Fault Refusal :=
  s.act fun b => if wdogDue b then setReq true false b else b

/-! ### Sessions (R546) -/

/-- End every bulk command with a status. -/
def endBulk (st : Status) (b : Block) : Block :=
  let xs := (b.host.channels.filterMap fun kv => kv.2) ++ b.host.bulkWait
  xs.foldl (fun b x => complete x.h st noDetail [] b)
    { b with host := { b.host with channels := [], bulkWait := [] } }

/-- End every waiting command with a status. -/
def endAllWaiting (st : Status) (b : Block) : Block :=
  b.host.waiting.foldl (fun b w => complete w.h st noDetail [] b) { b with host.waiting := [] }

/-- End the host session (R546): its features leave the register block. -/
def endSession (b : Block) : Block :=
  { b with host := { b.host with sessionOpen := false, sessionAccepted := false, features := 0 } }

/-- The 128 offered feature bits (Table 16-7). -/
def offered (b : Block) : Nat := 0x3EF + (if pairEn b then 16 else 0)

/-- A PCIe hot reset or link-down (R530, R533, R546). -/
def linkDown (b : Block) : Block :=
  let b := endSession (endBulk .dmaFault b)
  let b := { b with host.evEn := false }
  if b.host.linkArm then setReq false true b else b

def execPcieLinkDown (s : State) : Host.Outcome State Fault Refusal := s.act linkDown

/-- SESSION_OPEN (R546). -/
def sessionOpen (h : Hdr) (args : List W32) (b : Block) : Block :=
  let w := word args 0
  if args.length ≠ 1 ∨ bits w 30 16 ≠ 0 then complete h .badArg 0 [] b
  else if b.host.sessionOpen && !bit w 31 then complete h .busy noDetail [] b
  else
    let b := if b.host.sessionOpen then endBulk .session (endAllWaiting .session b) else b
    let id := b.host.sessionId + 1
    let b := { b with host := { b.host with sessionOpen := true, sessionAccepted := false, features := 0
                                            sessionId := id, hostVer := bits w 15 0 } }
    complete h .ok noDetail (bitmapWords 128 (offered b) ++ [id, 1]) b

/-- SESSION_ACCEPT (R546): only while a session is open and not yet accepted. -/
def sessionAccept (h : Hdr) (args : List W32) (b : Block) : Block :=
  let f := (List.range 4).foldl (fun n k => n + (word args k).toNat * 2 ^ (32 * k)) 0
  if !b.host.sessionOpen then complete h .session noDetail [] b
  else if args.length ≠ 4 then complete h .badArg 0 [] b
  else if b.host.sessionAccepted then complete h .busy noDetail [] b
  else if f &&& offered b ≠ f ∨ f.testBit 0 = false then complete h .feature noDetail [] b
  else complete h .ok noDetail [] { b with host := { b.host with sessionAccepted := true, features := f } }

/-- A request that the Coach serves outside the gate of `runCmd`; while FAIL = 4 the boot ROM answers it (R576). -/
def coachServes (h : Hdr) (f : Block → Block) (b : Block) : Block :=
  if b.sup.fail = 4 then complete h .notReady noDetail [] b else f b

def execSessionOpen (h : Hdr) (args : List W32) (s : State) : Host.Outcome State Fault Refusal :=
  s.act (coachServes h (sessionOpen h args))

def execSessionAccept (h : Hdr) (args : List W32) (s : State) : Host.Outcome State Fault Refusal :=
  s.act (coachServes h (sessionAccept h args))

/-- SESSION_CLOSE (R546). -/
def execSessionClose (h : Hdr) (s : State) : Host.Outcome State Fault Refusal :=
  s.act (coachServes h fun b =>
    if b.host.sessionOpen then complete h .ok noDetail [] (endSession b) else complete h .session noDetail [] b)

/-- R548: an opcode that is not in Table 16-8. -/
def execUnknownOpcode (h : Hdr) (_opcode : BitVec 16) (s : State) : Host.Outcome State Fault Refusal :=
  s.act (coachServes h (complete h (if s.blk.host.sessionAccepted then .unknownOp else .session) noDetail []))

/-! ### Mailboxes (R534 to R536) -/

/-- The Coach accepts the request of mailbox `m`, or ignores the doorbell and counts it. An INDIRECT request is
checked here and then waits for its arguments. -/
def acceptDoorbell (m : Nat) (b : Block) : Block :=
  if (b.host.busy ||| b.host.done).getLsbD m then { b with host.dbErr := satInc 255 b.host.dbErr }
  else
    let r := Tbl.get [] b.host.requests m
    let h : Hdr := ⟨Fin.ofNat 8 m, BitVec.ofNat 16 (bits (word r 0) 15 0)⟩
    let b := { b with host.busy := b.host.busy ||| (1#8 <<< m) }
    let w1 := word r 1
    let len := bits w1 31 16
    if bits w1 15 2 ≠ 0 ∨ bit w1 0 ∨ len > 1022 ∨ r.length ≠ len + 2 then complete h .badArg noDetail [] b
    else if bit w1 1 then
      (if b.host.sessionAccepted && !feature b 8 then complete h .feature noDetail [] b
       else if len ≠ 3 then complete h .badArg noDetail [] b
       else if bits (word r 2) 2 0 ≠ 0 then complete h .badArg 0 [] b
       else if (word r 4).toNat = 0 ∨ (word r 4).toNat > 262144 then complete h .badArg 2 [] b
       else b)
    else b

/-- A write to MBX_DOORBELL: the requests stand in the mailboxes; bits in ascending order; held while the Coach
restarts; while FAIL = 4 the boot ROM serves mailbox 0 alone (R534, R535, R538, R576). -/
def doorbell (ring : BitVec 8) (requests : List (List W32)) (b : Block) : Block :=
  let ms := (List.range 8).filter fun m => ring.getLsbD m
  let b := ms.foldl (fun b m => if (b.host.busy.getLsbD m) then b
    else { b with host.requests := Tbl.set [] b.host.requests m (requests.getD m []) }) b
  if b.host.coachUp then ms.foldl (fun b m => acceptDoorbell m b) b
  else if b.sup.fail = 4 then if ring.getLsbD 0 then acceptDoorbell 0 b else b
  else { b with host.held := b.host.held ++ ms }

def execMbxDoorbell (ring : BitVec 8) (requests : List (List W32)) (s : State) : Host.Outcome State Fault Refusal :=
  s.act (doorbell ring requests)

/-- R534: writing 1 to MBX_DONE[m] frees the mailbox. -/
def execMbxDoneClear (mask : BitVec 8) (s : State) : Host.Outcome State Fault Refusal :=
  s.act fun b => { b with host.done := b.host.done &&& ~~~mask }

/-- R536: the indirect arguments take the place of the request's own. -/
def execIndirectArgsFetched (mbx : Fin 8) (args : List W32) (s : State) : Host.Outcome State Fault Refusal :=
  s.act fun b =>
    let r := Tbl.get [] b.host.requests mbx.val
    if b.host.busy.getLsbD mbx.val && bit (word r 1) 1 && (word r 4).toNat == args.length then
      { b with host.requests := Tbl.set [] b.host.requests mbx.val (r.take 2 ++ args) }
    else b

/-! ### Event ring (R540) -/

/-- EVRING_CTL.EN written 1: HEAD and TAIL zero, first pass. -/
def ringEnable (b : Block) : Block :=
  { b with host := { b.host with evEn := true, head := 0, tail := 0, phase := true, unsignalled := 0, ringOut := [] } }

def execEvringEnable (s : State) : Host.Outcome State Fault Refusal := s.act ringEnable

/-- R540: the host advances TAIL. -/
def execEvringTailWrite (tail : W32) (s : State) : Host.Outcome State Fault Refusal :=
  s.act fun b => { b with host.tail := tail.toNat }

/-- A write to EVRING_CTL: FULL is W1C; the other fields act only while EN = 0; EN as R540. -/
def writeEvringCtl (v : W32) (b : Block) : Block :=
  let b := if bit v 30 then { b with host.evFull := false } else b
  let b := if b.host.evEn then b else
    { b with host := { b.host with coalN := bits v 23 16, coalT := bits v 15 8, log2N := bits v 4 0 } }
  if bit v 31 then ringEnable b else { b with host.evEn := false }

/-- A write to a direct register, by its access code (Table 0-6, Table 16-3, R10). -/
def registerWrite (off : Nat) (v : W32) (b : Block) : Block :=
  match off with
  | 0x014 => writeHostBlock (BitVec.ofNat 16 (bits v 31 16)) (bit v 0) b
  | 0x018 => writeWdog v b
  | 0x01C => kick b
  | 0x028 => { b with host.done := b.host.done &&& ~~~(BitVec.ofNat 8 (bits v 7 0)) }
  | 0x040 => if b.host.evEn then b else { b with host.evBaseLo := setBits v 11 0 0 }
  | 0x044 => if b.host.evEn then b else { b with host.evBaseHi := v }
  | 0x048 => writeEvringCtl v b
  | 0x050 => { b with host.tail := v.toNat }
  | _ => b

def execRegisterWrite (offset : BitVec 12) (v : W32) (s : State) : Host.Outcome State Fault Refusal :=
  s.act (registerWrite offset.toNat v)

/-- What the host reads from a direct register (Table 16-3); write-only and reserved offsets read zero. LIFT_STATUS
is given by the caller. -/
def registerRead (lift : W32) (off : Nat) (b : Block) : W32 :=
  let h := b.host
  match off with
  | 0x000 => 0x20484542
  | 0x004 => 0x01010101
  | 0x008 => BitVec.ofNat 32 Config.deviceSerial.toNat
  | 0x00C => BitVec.ofNat 32 (Config.deviceSerial.toNat / 2 ^ 32)
  | 0x010 => lift
  | 0x014 => pack [fld h.badKey 15 8, flg h.linkTrip 2, flg h.wdogTrip 1, flg h.req 0]
  | 0x018 => pack [fld h.wdogPeriod 31 16, flg h.linkArm 0]
  | 0x024 => w32 h.busy.toNat
  | 0x028 => w32 h.done.toNat
  | 0x02C => pack [flg h.coachUp 31, flg h.sessionOpen 30, fld h.restarts 23 16, fld h.dbErr 15 8]
  | 0x030 => w32 h.features
  | 0x034 => w32 (h.features / 2 ^ 32)
  | 0x038 => w32 (h.features / 2 ^ 64)
  | 0x03C => w32 (h.features / 2 ^ 96)
  | 0x040 => setBits h.evBaseLo 11 0 0
  | 0x044 => h.evBaseHi
  | 0x048 => pack [flg h.evEn 31, flg h.evFull 30, fld h.coalN 23 16, fld h.coalT 15 8, fld h.log2N 4 0]
  | 0x04C => w32 h.head
  | 0x050 => w32 h.tail
  | 0x054 => pack (h.channels.map fun kv => flg kv.2.isSome (28 + kv.1))
  | _ => 0

/-- Feature to which Table 16-7 assigns an event; `none`: BASE, which every set holds. -/
def eventFeature (code : Nat) : Option Nat :=
  if code = 0xA01E then some 1
  else if code = 0x800A ∨ code = 0x800B then some 2
  else if (0x4018 ≤ code ∧ code ≤ 0x401B) ∨ (0x6012 ≤ code ∧ code ≤ 0x6014) ∨ code = 0xA013 ∨ code = 0xA014 then some 4
  else none

/-- Whether an event is withheld from the host ring (R547). -/
def withheld (b : Block) (code : Nat) : Bool :=
  match eventFeature code with
  | some k => !feature b k
  | none => false

/-- Take the oldest event of the first class that has one (R40); a class that lost events raises EV_QUEUE_OVERFLOW as
soon as the place is free (R41). -/
def popEvent (b : Block) : Option (EvRec × Block) :=
  match (List.range 6).find? fun k => (Tbl.get {} b.ev.queues k).q ≠ [] with
  | none => none
  | some k =>
    let q := Tbl.get {} b.ev.queues k
    match q.q with
    | [] => none
    | r :: rest =>
      let b' := { b with ev.queues := Tbl.set {} b.ev.queues k { q := rest, lost := 0 } }
      some (r, if q.lost = 0 then b' else raiseCode (k * 8192 + 0x1FFF) [w32 k, w32 q.lost] b')

/-- Pop until an event that is not withheld is found; `fuel` bounds the entries looked at. -/
def popVisible : Nat → Block → Option EvRec × Block
  | 0, b => (none, b)
  | fuel + 1, b =>
    match popEvent b with
    | none => (none, b)
    | some (r, b') => if withheld b' r.code then popVisible fuel b' else (some r, b')

/-- Entries in all queues. -/
def queuedEvents (b : Block) : Nat := b.ev.queues.foldl (fun n kv => n + kv.2.q.length) 0

/-- Vector 0 when COAL_N records are unsignalled (R540). -/
def coalesce (b : Block) : Block :=
  if b.host.unsignalled + 1 ≥ b.host.coalN then msix 0 { b with host.unsignalled := 0 }
  else { b with host := { b.host with
    unsignalled := b.host.unsignalled + 1, unsigAt := if b.host.unsignalled = 0 then now b else b.host.unsigAt } }

/-- Drain one record into the host ring (R540). -/
def ringWrite (b : Block) : Block :=
  let n := 2 ^ b.host.log2N
  if !b.host.evEn then b
  else if queuedEvents b = 0 then b
  else if (b.host.head + 1) % n = b.host.tail % n then { b with host.evFull := true }
  else
    match popVisible (2 * queuedEvents b + 6) b with
    | (none, b') => b'
    | (some r, b') =>
      let hd := (b'.host.head + 1) % n
      coalesce <| ddrUse 35 64 { b' with host := { b'.host with
        ringOut := Tbl.set [] b'.host.ringOut b'.host.head (r.words b'.host.phase)
        head := hd
        phase := if hd = 0 then !b'.host.phase else b'.host.phase } }

def execEventRingWrite (s : State) : Host.Outcome State Fault Refusal := s.act ringWrite

/-- R540: COAL_T × 10 µs after the first unsignalled record. -/
def execEventCoalesceTimeout (s : State) : Host.Outcome State Fault Refusal :=
  s.act fun b => if b.host.unsignalled = 0 ∨ now b < b.host.unsigAt + b.host.coalT then b else msix 0 { b with host.unsignalled := 0 }

/-! ### Bulk transfers (R544) -/

/-- The high-speed ring still holds stride S (R495). -/
def hsHeld (b : Block) (S : Nat) : Bool :=
  let e := Tbl.get (0, []) b.sense.hsRing (S % 894784)
  e.1 == S && e.2 != []

/-- The scatter list that the device read is one of R544: 1 to 4,096 entries (address, length, RSV). -/
def scatterOk (l : List (W64 × W32 × W32)) : Bool :=
  decide (1 ≤ l.length) && decide (l.length ≤ 4096)
    && l.all fun e => e.1.toNat % 64 == 0 && e.2.1.toNat % 64 == 0 && decide (64 ≤ e.2.1.toNat) && decide (e.2.1.toNat ≤ 16777216)
      && e.2.2 == 0

/-- The entries are filled in order: what goes to each address. -/
def scatter : List (W64 × W32 × W32) → List W32 → List (Nat × List W32)
  | [], _ => []
  | e :: l, d => if d = [] then [] else (e.1.toNat, d.take (e.2.1.toNat / 4)) :: scatter l (d.drop (e.2.1.toNat / 4))

/-- A channel's transfer ends: byte count and CRC-32 of what the scatter list took, ST_DMA_FAULT, or ST_BAD_ARG for a list out
of its ranges (log 51); the next waiting bulk command takes the channel. -/
def bulkDone (c : Nat) (error : Bool) (list : List (W64 × W32 × W32)) (b : Block) : Block :=
  match Tbl.get none b.host.channels c with
  | none => b
  | some x =>
    let b := { b with host.channels := Tbl.set none b.host.channels c none }
    let b := if error then complete x.h .dmaFault noDetail [] b
      else if x.window.any (fun S => !hsHeld b S) then complete x.h .overwritten noDetail [] b
      else if !scatterOk list then complete x.h .badArg noDetail [] b
      else
        let out := scatter list x.data
        let sent := out.flatMap Prod.snd
        complete x.h .ok noDetail (x.pre ++ [w32 (4 * sent.length), crc32 (bytesOf sent)]) { b with host.dmaOut := out }
    match b.host.bulkWait with
    | [] => b
    | y :: ys => { b with host := { b.host with bulkWait := ys, channels := Tbl.set none b.host.channels c (some y) } }

def execBulkTransferDone (channel : Fin 4) (error : Bool) (list : List (W64 × W32 × W32)) (s : State) :
    Host.Outcome State Fault Refusal :=
  s.act (bulkDone channel.val error list)

/-! ### Event log (R543) -/

/-- LOG_READ: the held records of a SEQ range, oldest first. -/
def logRead (first : W32) (count : Nat) (b : Block) : CmdOut :=
  let hit := b.ev.log.filter fun r => (r.seq - first).toNat < count
  if b.ev.log.length = 1048576 ∧ (b.ev.seq - first).toNat > 1048576 then .fail .overwritten noDetail
  else .bulk b [] (hit.reverse.flatMap fun r => r.words false)

def execLogRead (h : Hdr) (first : W32) (count : Nat) (s : State) : Host.Outcome State Fault Refusal :=
  s.act (runCmd h 0x0304 [] (logRead first count))

end Sys2Proof.Machine
end

