-- ==== Sys2Proof/Machine/Protect.lean ====
section
/-! DEFINITION. Window comparators, brake choppers, GOOSE staleness, the avalanche filter, comparator self-test and the
clears of comparator and leg latches (chapter 9). -/

namespace Sys2Proof.Machine

/-! ### Choppers (R352 to R354) -/

/-- Switch a chopper leg on or off at sample T; a chopper stopped for its energy stays off. -/
def chopSwitch (k T : Nat) (on : Bool) (b : Block) : Block :=
  let on := on && !(chop b k).limited && !b.prot.frozen
  onChop k (fun c => { c with on := on }) (legCommand (chopLeg b k) (if on then 2 else 0) T b)

/-- The request of chopper k follows the over side of its comparator (R353). -/
def chopRequest (k T : Nat) (v : Bool) (b : Block) : Block :=
  if chopMode b k = 0 ∨ legFunc b (chopLeg b k) ≠ 2 ∨ (chop b k).requested = v then b
  else
    let b := onChop k (fun c => { c with requested := v, reqAt := T, rest := !v && chopMode b k == 2 }) b
    chopSwitch k T v b

/-- Period and on-time of the PWM, in samples. -/
def chopPeriod (b : Block) (k : Nat) : Nat := cfgN b 0x18 k 0 19 10 * 800
def chopDuty (b : Block) (k : Nat) : Nat := cfgN b 0x18 k 0 9 0

/-- Whether the PWM of a requested chopper is in its on-time at sample T: periods run from the sample of the request (R353). -/
def chopOnAt (b : Block) (k T : Nat) : Bool :=
  decide ((T - (chop b k).reqAt) % chopPeriod b k * 1000 < chopDuty b k * chopPeriod b k)

/-- A period or an on-time ends while requested: the leg goes off at the end of the on-time, and on at the start of the
next period; at a duty of 1,000 it stays on (R353). -/
def execChopPeriod (chop : Fin 2) (offset : Fin 8192) (s : State) : Host.Outcome State Fault Refusal :=
  s.act fun b =>
    let k := chop.val
    let T := sampleAt b offset.val
    if !(Sys2Proof.Machine.chop b k).requested ∨ chopMode b k = 0 ∨ b.prot.frozen ∨ (Sys2Proof.Machine.chop b k).on = chopOnAt b k T then b
    else chopSwitch k T (chopOnAt b k T) b

/-- On-time of the high side of leg `n` from the last energy step to sample T. -/
def highTime (b : Block) (n T : Nat) : Nat :=
  let l := leg b n
  l.highAcc + (if l.len && l.lp then T - Nat.max l.accFrom (l.riseAt.getD T) else 0)

/-- R354: the resistor energy of a stride, in the written order of operations. -/
def chopEnergy (e pOn pCool : W32) (samples : Nat) : W32 :=
  fmax 0 (fsub (fadd e (fmul (ofRat samples 800000000) pOn)) (fmul (ofRat 1 100000) pCool))

/-- The energy step of chopper k at the boundary that ends a stride, once a stride (R354). -/
def chopUpdate (k : Nat) (b : Block) : Block :=
  if !cfgWritten b 0x18 k || (chop b k).updAt == some (now b) then b
  else
    let T := now b * 8000
    let e := chopEnergy (chop b k).eAcc (cfgW b 0x18 k 1) (cfgW b 0x18 k 2) (highTime b (chopLeg b k) T)
    let was := (chop b k).limited
    let stop := fle (cfgW b 0x18 k 3) e
    let lim := stop || (was && flt (cfgW b 0x18 k 4) e)
    let b := onLeg (chopLeg b k) (fun l => { l with highAcc := 0, accFrom := T }) b
    let b := onChop k (fun c => { c with eAcc := e, limited := lim, updAt := some (now b) }) b
    let b := if stop && !was then raise .chopLimit [w32 k, e] (chopSwitch k T false b) else b
    setInput 68 ((chop b 0).limited || (chop b 1).limited) b

def execChopEnergyUpdate (chop : Fin 2) (s : State) : Host.Outcome State Fault Refusal := s.act (chopUpdate chop.val)

/-! ### Window comparators (R323 to R332) -/

def compRoute (b : Block) (c i : Nat) : Bool := cfgBit b 0x14 c 1 i

/-- FILT of a channel. -/
def Comp.filt (c : Comp) : Bool := c.fHi || c.fLo

/-- Samples asserted among the last `n`. -/
def filtCount (n hist : Nat) : Nat := ((List.range n).filter fun i => hist.testBit i).length

/-- The filtered state after a sample (R326). -/
def filtNext (n k hist : Nat) (f : Bool) : Bool :=
  if k ≤ filtCount n hist then true else if k ≤ n - filtCount n hist then false else f

/-- Raw states of an input, in sixteenths of a code, with hysteresis (R325). -/
def rawHi (b : Block) (c x : Nat) (old : Bool) : Bool :=
  if !cfgBit b 0x14 c 1 23 then false
  else
    let th := 16 * cfgN b 0x14 c 0 31 22
    if th < x then true else if x + 16 * cfgN b 0x14 c 0 11 6 < th then false else old
def rawLo (b : Block) (c x : Nat) (old : Bool) : Bool :=
  if !cfgBit b 0x14 c 1 22 then false
  else
    let th := 16 * cfgN b 0x14 c 0 21 12
    if x < th then true else if th + 16 * cfgN b 0x14 c 0 11 6 < x then false else old

/-- FILT asserts or returns to safe at a sample (R328, R329, R331, R333): latch, capture, EV_COMP, matrix input. -/
def compEdge (c offset : Nat) (on under : Bool) (b : Block) : Block :=
  let v := comp b c
  let b := if compRoute b c 20 then capture c offset on under b else b
  let b := if compRoute b c 17 then setInput c on b else b
  if on && !v.latched then
    let rec' := captureRec b c offset on under
    let tell := compRoute b c 19 && v.evAt != some (now b)
    let b := onComp c (fun v => { v with latched := true, asserts := satInc 65535 v.asserts
                                         evAt := if tell then some (now b) else v.evAt }) b
    recNote 1 c (if tell then raise .comp rec' b else b)
  else b

/-- Choppers follow the over side of comparator `c` (R353). -/
def chopFollow (c T : Nat) (b : Block) : Block :=
  [0, 1].foldl (fun (b : Block) k => if chopComp b k = c then chopRequest k T (comp b c).fHi b else b) b

/-- One sample of comparator `c` (R325, R326); a channel under test is frozen (R361). -/
def compSample (c offset x : Nat) (b : Block) : Block :=
  let v := comp b c
  if v.testing then onComp c (fun v => { v with input := x }) b
  else
    let hi := rawHi b c x v.rawHi
    let lo := rawLo b c x v.rawLo
    let n := cfgN b 0x14 c 1 31 28
    let k := cfgN b 0x14 c 1 27 24
    let hh := (2 * v.histHi + hi.toNat) % 32768
    let hl := (2 * v.histLo + lo.toNat) % 32768
    let fh := filtNext n k hh v.fHi
    let fl := filtNext n k hl v.fLo
    let b := onComp c (fun v => { v with input := x, rawHi := hi, rawLo := lo, histHi := hh, histLo := hl
                                         fHi := fh, fLo := fl }) b
    let b := if (fh || fl) == v.filt then b
      else compEdge c offset (fh || fl) (if fh || fl then !fh else !v.fHi) b
    if fh = v.fHi then b else chopFollow c (sampleAt b offset) b

/-- Samples of comparator `c` from an offset on. -/
def compSamples (c : Nat) : List (BitVec 14) → Nat → Block → Block
  | [], _, b => b
  | x :: xs, o, b => compSamples c xs (o + 1) (compSample c o x.toNat b)

/-- R326: the samples that complete an assertion. -/
def execCompAssert (comp : Fin 48) (samples : List (BitVec 14)) (offset : Fin 8192) (s : State) :
    Host.Outcome State Fault Refusal :=
  s.act fun b => applyHolds (sampleAt b offset.val) (compSamples comp.val samples offset.val b)

/-- R326: the samples that complete a return to safe. -/
def execCompRelease (comp : Fin 48) (samples : List (BitVec 14)) (offset : Fin 8192) (s : State) :
    Host.Outcome State Fault Refusal :=
  s.act (compSamples comp.val samples offset.val)

/-- Arm a channel (R327): each side asserted unless its input is shown safe. -/
def armComp (c offset : Nat) (b : Block) : Block :=
  let v := comp b c
  let hyst := 16 * cfgN b 0x14 c 0 11 6
  let hi := cfgBit b 0x14 c 1 23 && decide (16 * cfgN b 0x14 c 0 31 22 < v.input + hyst)
  let lo := cfgBit b 0x14 c 1 22 && decide (v.input < 16 * cfgN b 0x14 c 0 21 12 + hyst)
  let b := onComp c (fun v => { v with rawHi := hi, rawLo := lo, histHi := if hi then 32767 else 0
                                       histLo := if lo then 32767 else 0, fHi := hi, fLo := lo, testing := false }) b
  let b := setInput c (compRoute b c 17 && (hi || lo)) b
  let b := if (hi || lo) == v.filt then b else compEdge c offset (hi || lo) (if hi || lo then !hi else !v.fHi) b
  chopFollow c (sampleAt b offset) b

/-- PWAKE_N is driven low (R331). -/
def wakeLow (b : Block) : Bool := (List.range 48).any fun c => compRoute b c 18 && (comp b c).latched

/-- COMP_STATUS (Table 9-3). -/
def compStatus (b : Block) (c : Nat) : W32 :=
  let v := comp b c
  pack [flg v.rawHi 31, flg v.rawLo 30, flg v.filt 29, flg v.latched 28, flg v.failed 27, flg v.testing 26,
        fld v.asserts 15 0]

/-! ### Clears (R348, R349) -/

/-- Which of `n` named items are refused, with the rest cleared. -/
def clearItems (n sel : Nat) (refuse : Block → Nat → Bool) (clear : Nat → Block → Block) (b : Block) : Nat × Block :=
  let named := bitList n sel
  let bad := named.filter (refuse b)
  (bitmapOf bad, (named.filter fun i => !refuse b i).foldl (fun (b : Block) i => clear i b) b)

/-- The outcome of a clear: ST_OK, or ST_CAUSE_ACTIVE with the REFUSED bitmap. -/
def clearOut (r : Nat × Block) : CmdOut :=
  let args := [0, w32 r.1, w32 (r.1 / 2 ^ 32)]
  if r.1 = 0 then .ok r.2 args else .part r.2 .causeActive args

/-- A comparator latch is refused while FILT is asserted (R349). -/
def protClearComp (lo hi : W32) (b : Block) : CmdOut :=
  if bits hi 31 16 ≠ 0 then badArg 2
  else clearOut (clearItems 48 (lo.toNat + hi.toNat * 2 ^ 32) (fun b c => (comp b c).filt)
    (fun c b => onComp c (fun v => { v with latched := false }) b) b)

def execProtClearComp (h : Hdr) (rsv : BitVec 29) (lo hi : W32) (s : State) : Host.Outcome State Fault Refusal :=
  s.act (runCmd h 0x0208 [] (unlessRsv (rsv != 0) 0 (protClearComp lo hi)))

/-- A leg latch is refused while either threshold is asserted (R349). -/
def protClearLeg (lo hi : W32) (b : Block) : CmdOut :=
  if bits lo 31 16 ≠ 0 then badArg 1
  else if hi ≠ 0 then badArg 2
  else clearOut (clearItems 16 lo.toNat (fun b n => (leg b n).hardOn || (leg b n).scOn)
    (fun n b => setInput (48 + n) false (onLeg n (fun l => { l with sc := false }) b)) b)

def execProtClearLeg (h : Hdr) (rsv : BitVec 29) (lo hi : W32) (s : State) : Host.Outcome State Fault Refusal :=
  s.act (runCmd h 0x0208 [] (unlessRsv (rsv != 0) 0 (protClearLeg lo hi)))

/-! ### GOOSE (R355 to R357, R465) -/

def goose (b : Block) (k : Nat) : Goose := Tbl.get {} b.prot.goose k
def onGoose (k : Nat) (f : Goose → Goose) (b : Block) : Block := { b with prot.goose := Tbl.upd {} b.prot.goose k f }

/-- Station ports of the PRP pair. -/
def prpPort (b : Block) (j : Nat) : Bool :=
  (cfgN b 0x21 0 0 24 23 == 1 && decide (j ≤ 1)) || (cfgN b 0x21 0 0 24 23 == 2 && decide (2 ≤ j))

/-- Duplicate discard of a PRP pair: a frame with a source and sequence number taken in the last 400 ms is dropped. -/
def prpTake (port : Nat) (prp : Option (BitVec 48 × BitVec 16)) (b : Block) : Bool × Block :=
  match prp with
  | some (src, q) =>
    if !prpPort b port then (true, b)
    else
      let l := b.prot.prpSeen.filter fun x => decide (now b ≤ x.2.2 + 40000)
      if l.any fun x => x.1 == src.toNat && x.2.1 == q.toNat then (false, { b with prot.prpSeen := l })
      else (true, { b with prot.prpSeen := (src.toNat, q.toNat, now b) :: l })
  | none => (true, b)

/-- The fields of a frame match subscription k (R356), the member's type apart. -/
def gooseMatches (b : Block) (k port : Nat) (f : GooseMsg) : Bool :=
  let c := fun w hi lo => cfgN b 0x19 k w hi lo
  cfgWritten b 0x19 k && cfgBit b 0x19 k 0 7 && cfgBit b 0x19 k 0 (1 + port)
  && f.dest.toNat == c 1 31 0 * 65536 + c 2 31 16 && f.appid.toNat == c 0 31 16
  && f.confRev == cfgW b 0x19 k 3 && crc32 (f.gocbRef.map BitVec.toNat) == cfgW b 0x19 k 4
  && !f.ndsCom && (!f.sim || cfgBit b 0x19 k 0 6)

/-- One subscription and a frame. -/
def gooseSub (k port : Nat) (f : GooseMsg) (b : Block) : Block :=
  let g := goose b k
  if !gooseMatches b k port f then b
  else match f.members[cfgN b 0x19 k 0 15 8]? with
    | none => b
    | some none => raise .gooseBad [w32 k] b
    | some (some v) =>
      if g.seen && g.stNum == f.stNum && decide (f.sqNum.toNat ≤ g.sqNum.toNat) then b
      else onGoose k (fun _ => { seen := true, stNum := f.stNum, sqNum := f.sqNum, request := v
                                 expires := now b + f.ttl.toNat * 100 }) b

/-- A GOOSE frame on a station port. -/
def gooseFrame (port : Nat) (f : GooseMsg) (b : Block) : Block :=
  let (new, b) := prpTake port f.prp b
  if new then (List.range 16).foldl (fun (b : Block) k => gooseSub k port f b) b else b

def execGooseFrame (port : Fin 4) (f : GooseMsg) (s : State) : Host.Outcome State Fault Refusal :=
  s.act (gooseFrame port.val f)

/-- timeAllowedToLive of the last valid frame expires. -/
def execGooseStale (sub : Fin 16) (s : State) : Host.Outcome State Fault Refusal :=
  s.act fun b =>
    let g := goose b sub.val
    if cfgBit b 0x19 sub.val 0 7 && g.seen && !g.stale && decide (g.expires ≤ now b) then
      raise .gooseStale [w32 sub.val] (onGoose sub.val (fun g => { g with
        stale := true, request := g.request || cfgBit b 0x19 sub.val 0 5 }) b)
    else b

/-! ### Avalanche filter (R358 to R360) -/

/-- The event that a report is without the filter (R358). -/
def reportEvent : AvReport → Block → Block
  | .blocked n c => raise .cellBlocked [w32 n, w32 c]
  | .silent n => raise .cellSilent [w32 n]
  | .fault n k => raise .cellFault [w32 n, w32 k]
  | .rxLost p => raise .linkRxLost [w32 p]

def avWindow (b : Block) : Nat := cfgN b 0x17 0 0 24 19
def avRootsMax (b : Block) : Nat := cfgN b 0x17 0 0 18 16

/-- A report: to the filter, opening an avalanche if none takes it, or as its own event with AV_EN = 0 (R358, R359). -/
def report (r : AvReport) (b : Block) : Block :=
  if !cfgBit b 0x17 0 0 31 then reportEvent r b
  else if b.prot.avs.any fun a => decide (now b < a.s0 + avWindow b) then
    { b with prot.avs := b.prot.avs.map fun a =>
        if now b < a.s0 + avWindow b then { a with reports := a.reports ++ [r] } else a }
  else { b with prot.avs := b.prot.avs ++ [{ s0 := now b, reports := [r] }] }

/-- The cell a report speaks of; none for a port. -/
def AvReport.cell : AvReport → Option Nat
  | .blocked n _ => some n
  | .silent n => some n
  | .fault n _ => some n
  | .rxLost _ => none

/-- A root under construction: rule, cell (0x7FF none), port, cause, MULTI, the reports it takes. -/
structure Root where
  kind : Nat
  cell : Nat
  port : Nat
  cause : Nat
  multi : Bool := false
  takes : List AvReport := []

/-- Cells with a silence report. -/
def silentCells (l : List AvReport) : List Nat :=
  l.filterMap fun r => match r with
    | .silent n => some n
    | _ => none

/-- Own-fault cells in order of the device-wide number, with the kind. -/
def faultCells (l : List AvReport) : List (Nat × Nat) :=
  (List.range 2048).filterMap fun n => l.findSome? fun r => match r with
    | .fault m k => if m = n then some (n, k) else none
    | _ => none

/-- POS at which the run of silent cells ends that reaches the chain's last position (R359 rule 3). -/
def breakRun (b : Block) (p : Nat) (silent : List Nat) : Option Nat :=
  let n := nCells b p
  if silent.contains (64 * p + n - 1) && n != 0 then
    let up := ((List.range n).reverse.takeWhile fun c => silent.contains (64 * p + c))
    up.getLast?.map (64 * p + ·)
  else none

/-- The device root of rule 1: the first stop noted in the window or in the AV_WINDOW strides before it. -/
def deviceStop (b : Block) (a : Avalanche) : Option W32 :=
  (b.prot.stops.reverse.find? fun s =>
    decide (a.s0 ≤ s.1 + avWindow b) && decide (s.1 < a.s0 + avWindow b)).map Prod.snd

/-- Number among own-fault cells of the chain. -/
def faultRank (fs : List (Nat × Nat)) (n : Nat) : Nat := (fs.filter fun x => x.1 / 64 == n / 64 && decide (x.1 < n)).length

/-- The roots of an avalanche, by the rules of R359 in order. -/
def avRoots (b : Block) (a : Avalanche) : List Root :=
  let l := a.reports
  let dev := deviceStop b a
  let isDev : AvReport → Bool := fun r => match r with
    | .blocked _ 1 => dev.isSome
    | _ => false
  let ports := (List.range 32).filter fun p => l.contains (.rxLost p)
  let silent := silentCells l
  let fs := faultCells l
  let maxRoots := avRootsMax b
  let rootCell : Nat → Nat := fun n =>
    if faultRank fs n < maxRoots then n
    else ((fs.find? fun x => x.1 / 64 == n / 64).map Prod.fst).getD n
  let r1 : List Root := match dev with
    | some id => if l.any isDev then [{ kind := 1, cell := 0x7FF, port := 0, cause := bits id 7 0, takes := l.filter isDev }]
      else []
    | none => []
  let r2 : List Root := ports.map fun p => { kind := 2, cell := 0x7FF, port := p, cause := 0, takes := l.filter fun r =>
    match r with
    | .silent n => n / 64 == p
    | _ => false }
  let loose := silent.filter fun n => !ports.contains (n / 64)
  let r3 : List Root := ((List.range 2048).filter loose.contains).filterMap fun n =>
    match breakRun b (n / 64) silent with
    | some m =>
      if n < m then some { kind := 3, cell := n, port := n / 64, cause := 0 }
      else if n = m then some { kind := 3, cell := n, port := n / 64, cause := 0, takes := l.filter fun r =>
        match r with
        | .silent k => k / 64 == n / 64 && decide (n < k)
        | _ => false }
      else none
    | none => some { kind := 3, cell := n, port := n / 64, cause := 0 }
  let r4 : List Root := (fs.filter fun x => rootCell x.1 == x.1).map fun x =>
    { kind := 4, cell := x.1, port := x.1 / 64, cause := x.2
      multi := fs.any fun y => y.1 != x.1 && rootCell y.1 == x.1
      takes := l.filter fun r => match r with
        | .fault n _ => n != x.1 && rootCell n == x.1
        | .blocked n _ => !isDev r && (fs.any fun y => y.1 == n) && rootCell n == x.1
        | _ => false }
  let r5 : List Root := l.filterMap fun r => match r with
    | .blocked n _ => if isDev r || fs.any (fun y => y.1 == n) then none
      else some { kind := 5, cell := n, port := n / 64, cause := 0 }
    | _ => none
  let r5 := (List.range 2048).filterMap fun n => r5.find? fun x => x.cell == n
  r1 ++ r2 ++ r3 ++ r4 ++ r5

/-- The payload of Table 9-13. -/
def Root.payload (id s0 : Nat) (r : Root) : List W32 :=
  let cells := r.takes.filterMap AvReport.cell
  let chain := if r.kind = 1 then 0 else r.port
  let localMap := bitmapOf ((cells.filter fun n => n / 64 == chain).map (· % 64))
  [pack [fld id 31 16, fld r.kind 15 13, flg r.multi 12, fld r.takes.length 11 0]] ++ w64 s0
    ++ [pack [fld r.cell 31 21, fld r.port 20 16, fld r.cause 15 8], w32 (bitmapOf (cells.map (· / 64)))]
    ++ w64 localMap ++ [0]

/-- The window of the oldest avalanche ends: its reports become roots; the bitmap of reporters is kept for the last 256
avalanches (R359, R360). -/
def avalancheClose (b : Block) : Block :=
  match b.prot.avs with
  | [] => b
  | a :: rest =>
    if now b < a.s0 + avWindow b then b
    else
      let map := bitmapWords 2048 (bitmapOf (a.reports.filterMap AvReport.cell))
      { b with prot := { b.prot with
        avs := rest
        avId := (b.prot.avId + 1) % 65536
        avRoots := b.prot.avRoots ++ (avRoots b a).map (Root.payload b.prot.avId a.s0)
        avMaps := ((b.prot.avId, map) :: b.prot.avMaps).take 256 } }

def execAvalancheClose (s : State) : Host.Outcome State Fault Refusal := s.act avalancheClose

/-- R360: one EV_AVALANCHE per root. -/
def execEvAvalanche (s : State) : Host.Outcome State Fault Refusal :=
  s.act fun b => b.prot.avRoots.foldl (fun (b : Block) p => raise .avalanche p b) { b with prot.avRoots := [] }

/-- PROT_AV_READ: the bitmap of reporters of an avalanche that is still kept. -/
def protAvRead (id : W32) (b : Block) : CmdOut :=
  if bits id 31 16 ≠ 0 then badArg 0
  else
    match b.prot.avMaps.find? fun x => x.1 == id.toNat with
    | some x => .ok b x.2
    | none => .fail .overwritten noDetail

def execProtAvRead (h : Hdr) (id : W32) (s : State) : Host.Outcome State Fault Refusal :=
  s.act (runCmd h 0x0305 [] (protAvRead id))

/-! ### Comparator self-test (R361) -/

/-- Start the test of the channel at the head of the queue: its state and routes freeze. -/
def startTest (b : Block) : Block :=
  match b.prot.testQueue with
  | [] => b
  | (c, _) :: _ => onComp c (fun v => { v with testing := true }) b

/-- COMP_SELFTEST, in SERVICE only. -/
def compSelftest (channels : List (Fin 48 × Option (Fin 1024 × Fin 1024))) (b : Block) : CmdOut :=
  if b.md.mode ≠ .service then .fail .wrongMode noDetail
  else if channels = [] then .ok b []
  else
    let q := channels.map fun x => (x.1.val, x.2.map fun y => (y.1.val, y.2.val))
    let first := b.prot.testQueue = []
    let b := { b with prot.testQueue := b.prot.testQueue ++ q }
    .wait (if first then startTest b else b) (channels.map fun x => Obj.cfg 0x14 x.1.val) []

def execCompSelftest (h : Hdr) (channels : List (Fin 48 × Option (Fin 1024 × Fin 1024))) (s : State) :
    Host.Outcome State Fault Refusal :=
  s.act (runCmd h 0x0B01 (channels.map fun x => Obj.cfg 0x14 x.1.val) (compSelftest channels))

/-- Two codes differ by at most `tol`. -/
def near (a b : Int) (tol : Nat) : Bool := decide ((a - b).natAbs ≤ tol)

/-- The judgement of R361. -/
def testPass (hyst : Nat) (expect : Option (Nat × Nat)) (cha chr cla clr : Option (Fin 1024)) : Bool :=
  match cha, chr, cla, clr with
  | some a, some r, some l, some q =>
    near ((a.val : Int) - r.val) hyst 2 && near ((q.val : Int) - l.val) hyst 2 && near a.val l.val 2
      && (match expect with
        | some (e, t) => near a.val e t
        | none => true)
  | _, _, _, _ => false

/-- A code for the event; one that was not found has no stated value (log 2). -/
def codeOrFree (c : Option (Fin 1024)) (b : Block) : W32 × Block :=
  match c with
  | some v => (w32 v.val, b)
  | none => fresh b

/-- The sweep of one channel ends: judged, re-armed, reported; the next starts, and a command whose channels are all done
completes. -/
def testDone (cha chr cla clr : Option (Fin 1024)) (b : Block) : Block :=
  match b.prot.testQueue with
  | [] => b
  | (c, expect) :: rest =>
    let pass := testPass (cfgN b 0x14 c 0 11 6) expect cha chr cla clr
    let b := onComp c (fun v => { v with failed := !pass, passedAt := if pass then some b.time.sec else v.passedAt }) b
    let b := armComp c 0 { b with prot.testQueue := rest }
    let (w1, b) := codeOrFree cha b
    let (w2, b) := codeOrFree chr b
    let (w3, b) := codeOrFree cla b
    let (w4, b) := codeOrFree clr b
    let b := raise .selftest [w32 c, w1, w2, w3, w4, wBool pass] b
    let b := if !pass && compRoute b c 17 then setDegr 6 b else b
    let b := startTest b
    endWaiting (fun w => w.op == 0x0B01 && w.objs.all fun o => !rest.any fun x => o == Obj.cfg 0x14 x.1) .ok [] b

def execCompSelftestChannelDone (cha chr cla clr : Option (Fin 1024)) (s : State) : Host.Outcome State Fault Refusal :=
  s.act (testDone cha chr cla clr)

end Sys2Proof.Machine
end

