-- ==== Sys2Proof/Machine/Shake.lean ====
section
/-! DEFINITION. SHAKE256 of FIPS 202 over bytes, which R445, R448, R557 and R573 name. -/

namespace Sys2Proof.Machine

/-- The bits FIPS 202 draws from the shift register of x^8 + x^6 + x^5 + x^4 + 1, started at 1: the low bit before each
of `n` shifts. -/
def iotaBits : Nat → Nat → List Bool
  | 0, _ => []
  | n + 1, r => r.testBit 0 :: iotaBits n (if 2 * r < 256 then 2 * r else (2 * r).xor 0x171)

/-- The constant a round adds to lane (0, 0): its seven bits stand at 2^j - 1, j from 0 to 6. -/
def iotaWord (bits : List Bool) : W64 :=
  BitVec.ofNat 64 <| bits.zipIdx.foldl (fun v q => if q.1 then v + 2 ^ (2 ^ q.2 - 1) else v) 0

/-- The constants of `n` rounds, seven bits of the register each. -/
def iotaWords : Nat → List Bool → List W64
  | 0, _ => []
  | n + 1, l => iotaWord (l.take 7) :: iotaWords n (l.drop 7)

/-- Five lanes of one y. -/
structure Plane where
  l0 : W64
  l1 : W64
  l2 : W64
  l3 : W64
  l4 : W64
  deriving DecidableEq, Repr

/-- A lane of a plane, x modulo 5. -/
def Plane.at (p : Plane) (x : Nat) : W64 :=
  match x % 5 with
  | 0 => p.l0
  | 1 => p.l1
  | 2 => p.l2
  | 3 => p.l3
  | _ => p.l4

/-- The plane of a function of x. -/
def Plane.of (f : Nat → W64) : Plane := ⟨f 0, f 1, f 2, f 3, f 4⟩

/-- A sponge state: the planes y = 0 to 4. -/
abbrev Sponge := List Plane

/-- Lane (x, y). -/
def Sponge.lane (a : Sponge) (x y : Nat) : W64 := ((a[y % 5]?).getD (Plane.of fun _ => 0)).at x

/-- The state of a function of (x, y). -/
def Sponge.of (f : Nat → Nat → W64) : Sponge := (List.range 5).map fun y => Plane.of fun x => f x y

/-- Theta: every lane takes in the parity of the column before it and of the one after it, that one turned by 1. -/
def Sponge.theta (a : Sponge) : Sponge :=
  let par := Plane.of fun x => a.foldl (fun v p => v ^^^ p.at x) 0
  let mix := Plane.of fun x => par.at (x + 4) ^^^ (par.at (x + 1)).rotateLeft 1
  a.map fun p => Plane.of fun x => p.at x ^^^ mix.at x

/-- Where rho's walk stands after `n` moves (x, y) to (y, 2 x + 3 y) from (1, 0). -/
def rhoWalk : Nat → Nat × Nat
  | 0 => (1, 0)
  | n + 1 => ((rhoWalk n).2, (2 * (rhoWalk n).1 + 3 * (rhoWalk n).2) % 5)

/-- Rho turns the lane after `n` moves of the walk by (n + 1)(n + 2) / 2 and leaves lane (0, 0). -/
def rhoTurn (x y : Nat) : Nat :=
  match (List.range 24).find? fun n => rhoWalk n = (x, y) with
  | some n => (n + 1) * (n + 2) / 2 % 64
  | none => 0

/-- What rho turns the lane by that pi moves to (x, y): 25 numbers, x fastest. -/
def piTurns : List Nat := (List.range 25).map fun i => rhoTurn ((i + 3 * (i / 5)) % 5) (i % 5)

/-- Rho and pi: lane (x, y) comes from (x + 3 y, x), turned. -/
def Sponge.rhoPi (turns : List Nat) (a : Sponge) : Sponge :=
  Sponge.of fun x y => (a.lane (x + 3 * y) x).rotateLeft (turns.getD (x + 5 * y) 0)

/-- Chi along each plane, and iota on lane (0, 0). -/
def Sponge.chiIota (k : W64) (a : Sponge) : Sponge :=
  Sponge.of fun x y =>
    let v := a.lane x y ^^^ ((a.lane (x + 2) y) &&& ~~~ (a.lane (x + 1) y))
    if x + y = 0 then v ^^^ k else v

/-- Keccak-f[1600]: 24 rounds. -/
def Sponge.permute (a : Sponge) : Sponge :=
  let turns := piTurns
  (iotaWords 24 (iotaBits 168 1)).foldl (fun s k => ((s.theta).rhoPi turns).chiIota k) a

/-- A lane of 8 bytes, least significant first. -/
def laneOf (l : List Nat) : W64 := BitVec.ofNat 64 (l.foldr (fun x v => x + 256 * v) 0)

/-- Take in one block of 136 bytes: its 17 lanes in order, the capacity unchanged. -/
def Sponge.take (a : Sponge) (block : List Nat) : Sponge :=
  (Sponge.of fun x y => a.lane x y ^^^ laneOf ((block.drop (8 * (x + 5 * y))).take 8)).permute

/-- Take in `n` blocks. -/
def Sponge.takeAll : Nat → Sponge → List Nat → Sponge
  | 0, a, _ => a
  | n + 1, a, l => Sponge.takeAll n (a.take (l.take 136)) (l.drop 136)

/-- Padding of SHAKE256: 0x1F, zeros, 0x80 in the block's last byte. -/
def shakePad (l : List Nat) : List Nat :=
  let k := 136 - l.length % 136
  if k = 1 then l ++ [0x9F] else l ++ [0x1F] ++ List.replicate (k - 2) 0 ++ [0x80]

/-- `n` bytes squeezed out of a state, `k` blocks of 136 at most. -/
def Sponge.give : Nat → Sponge → Nat → List Nat
  | 0, _, _ => []
  | k + 1, a, n =>
    (((List.range 17).flatMap fun i => (List.range 8).map fun j =>
      ((a.lane (i % 5) (i / 5)).toNat >>> (8 * j)) % 256).take n)
      ++ if n ≤ 136 then [] else Sponge.give k a.permute (n - 136)

/-- The first `n` bytes of SHAKE256. -/
def shake256 (l : List Nat) (n : Nat) : List Nat :=
  let p := shakePad l
  (Sponge.takeAll (p.length / 136) (Sponge.of fun _ _ => 0) p).give (n / 136 + 1) n

/-- Words of bytes, little-endian. -/
def wordsOf (n : Nat) (l : List Nat) : List W32 :=
  (List.range n).map fun i => w32 (((l.drop (4 * i)).take 4).foldr (fun x v => x + 256 * v) 0)

/-- A 64-byte digest of words, as 16 words. -/
def digest64 (l : List W32) : List W32 := wordsOf 16 (shake256 (bytesOf l) 64)

end Sys2Proof.Machine
end

