-- ==== Sys2Proof/Machine/Ledger.lean ====
section
/-! DEFINITION. The ledger unit (chapter 7): slots, energy, identification, loss, temperature, life, derating, history
and checkpoints. Formulas are binary32, evaluated in the order in which they are written (log 12). -/

namespace Sys2Proof.Machine

/-! ### Constants and accessors -/
/-- 10 µs, 80 ps and one half in binary32. -/
def tStride : W32 := ofRat 1 100000
def tUi : W32 := ofRat 80 1000000000000
def fHalf : W32 := 0x3F000000
def fOne : W32 := 0x3F800000

/-- Word k of the ledger slot of cell n (Table 7-1). -/
def lget (b : Block) (n k : Nat) : W32 := Tbl.get 0 b.led.words (64 * n + k)
def lset (n k : Nat) (v : W32) (b : Block) : Block := { b with led.words := Tbl.set 0 b.led.words (64 * n + k) v }
def lsets (n k : Nat) (l : List W32) (b : Block) : Block := { b with led.words := Tbl.setRange 0 b.led.words (64 * n + k) l }
def lflag (b : Block) (n i : Nat) : Bool := bit (lget b n 23) i
def lsetFlag (n i : Nat) (v : Bool) (b : Block) : Block := lset n 23 (setBits (lget b n 23) i i (if v then 1 else 0)) b
def ledCell (b : Block) (n : Nat) : LedCell := Tbl.get {} b.led.cells n
def onLedCell (n : Nat) (f : LedCell → LedCell) (b : Block) : Block := { b with led.cells := Tbl.upd {} b.led.cells n f }
def slCell (b : Block) (n : Nat) : SlCell := Tbl.get {} b.slal.cells n
def onSlCell (n : Nat) (f : SlCell → SlCell) (b : Block) : Block := { b with slal.cells := Tbl.upd {} b.slal.cells n f }
def slLimb (b : Block) (l : Nat) : SlLimb := Tbl.get {} b.slal.limb l
def onSlLimb (l : Nat) (f : SlLimb → SlLimb) (b : Block) : Block := { b with slal.limb := Tbl.upd {} b.slal.limb l f }
def ledLimb (b : Block) (l : Nat) : LedLimb := Tbl.get {} b.led.limb l
def onLedLimb (l : Nat) (f : LedLimb → LedLimb) (b : Block) : Block := { b with led.limb := Tbl.upd {} b.led.limb l f }

/-- LIFE[p] of cell n. -/
def life (b : Block) (n p : Nat) : Nat := join64 (lget b n (44 + 2 * p)) (lget b n (45 + 2 * p))
def setLife (n p v : Nat) (b : Block) : Block := lsets n (44 + 2 * p) (w64 (Nat.min v (2 ^ 64 - 1))) b
/-- L[p] as binary32. -/
def lifeF (v : Nat) : W32 := ofRat v (2 ^ 48)

/-- Word k of the cell's KIND_LEDGER entry (Table 7-5); zero without one. -/
def klW (b : Block) (n k : Nat) : W32 :=
  match kindIndex b 0x0D (dKind (cellDesc b n)) (dRev (cellDesc b n)) with
  | some i => cfgW b 0x0D i k
  | none => 0
/-- The position of a switch index. -/
def posOf (b : Block) (n i : Nat) : Nat := bits (klW b n 1) (2 * i + 1) (2 * i)
/-- Whether some switch of the cell is mapped to position p. -/
def posMapped (b : Block) (n p : Nat) : Bool :=
  (List.range 16).any fun i => (dSwMap (cellDesc b n)).testBit i && posOf b n i == p

/-- Whether the record of the stride in work is fresh (R64). -/
def freshNow (b : Block) (n : Nat) : Bool := !(hub b n).stale && (hub b n).recAt == some (work b)

/-- Cells with a ledger slot, ascending. -/
def ledCells (b : Block) : List Nat := (b.led.cells.filter fun kv => kv.2.has).map Prod.fst

/-! ### Reset of a slot -/

/-- R196: the volt-second entries go to 0 and their magnitudes to VS_DROPPED. -/
def vsDrop (n : Nat) (b : Block) : Block :=
  let vs := (List.range 16).map fun i => lget b n i
  if vs.all (· == 0) then b
  else
    onLedCell n (fun (c : LedCell) => { c with dropped := fadd c.dropped (fsum (vs.map fabs)) })
      (lsets n 0 (List.replicate 16 0) b)

/-- P_INIT of R254. -/
def pInit (b : Block) (n : Nat) : W32 :=
  let q := fdiv (ofRat 1 4) (fmul (dCNom (cellDesc b n)) (cfgW b 0x0E 0 1))
  fmul q q

/-- T_REF of a cell and whether the fallback is in use (R264). -/
def tRef (b : Block) (n : Nat) : W32 × Bool :=
  match bits (klW b n 0) 7 6 with
  | 0 => if (ledCell b n).staleRun ≥ 100000 ∨ !dMapped (cellDesc b n) 20 then (klW b n 3, true)
         else (ofRat (ledCell b n).lastThs 64, false)
  | 1 => let c : Coolant := Tbl.get {} b.led.loops (bits (klW b n 0) 5 4)
         (if c.stale then cfgW b 0x0E 0 4 else c.temp, c.stale)
  | _ => (klW b n 3, false)

/-- T = round(TJ × 64), held in 16 bits. -/
def tj64 (tj : W32) : Int := max (-32768) (min 32767 (s32 (ftoi 6 tj)))

/-- Signed 16-bit reading and writing. -/
def s16 (v : Nat) : Int := if v < 32768 then (v : Int) else (v : Int) - 65536
def u16 (z : Int) : Nat := (z % 65536).toNat

/-- THETA cleared: TJ equals T_REF (R266). -/
def thermClear (n : Nat) (b : Block) : Block :=
  let ref := (tRef b n).1
  lsets n 24 (List.replicate 16 0 ++ List.replicate 4 ref) b

/-- R281: a reset of a slot; stacks empty, rising, X = T (R267); the pipeline is cleared with it (R250). -/
def ledReset (n : Nat) (b : Block) : Block :=
  let b := vsDrop n b
  let b := lsets n 16 ([fdiv fOne (dCNom (cellDesc b n)), pInit b n, 0, 0, 0, 0, 0, 0] ++ List.replicate 40 0) b
  let b := thermClear n b
  let b := lsets n 60 (List.replicate 4 (fld (u16 (tj64 (tRef b n).1)) 31 16)) b
  onLedCell n (fun (c : LedCell) => { c with has := true, h1 := 0, h2 := 0, h3 := 0, lam := 0, staleRun := 0,
                                             lifeInc := [], tjPeak := none }) b

/-- A cell has been enumerated: it has a slot from now on (R248). -/
def ledEnumerated (n : Nat) (b : Block) : Block := if (ledCell b n).has then b else ledReset n b

/-- EV_CELL_RETIRED and the reset on replacement (R281). -/
def ledReplaced (n serial : Nat) (b : Block) : Block :=
  ledReset n (raise .cellRetired (w64 serial ++ (List.range 4).flatMap fun p => w64 (life b n p)) b)

/-! ### Stored energy -/

/-- C of R252. -/
def capOf (b : Block) (n : Nat) : W32 := if lflag b n 31 then fdiv fOne (lget b n 16) else dCNom (cellDesc b n)
/-- ½ × C × V². -/
def energyAt (b : Block) (n : Nat) (v : W32) : W32 := fmul (fmul (fmul fHalf (capOf b n)) v) v
/-- Stored energy of a cell (R252). -/
def energy (b : Block) (n : Nat) : W32 := energyAt b n (if freshNow b n then recVcap b n else lget b n 20)

/-- I of R253: I_PRED of the cell's limb unless it has none, or while a join runs (R418). -/
def iPred (b : Block) (n : Nat) : W32 :=
  let iarm := if freshNow b n then recIarm b n else lget b n 21
  if b.pair.joining.isSome then iarm
  else
    match cellLimb b n with
    | none => iarm
    | some l =>
      match Tbl.get [] b.slal.ref l with
      | [] => iarm
      | r => if fIsNaN (word r 2) then iarm else word r 2

/-- Lane slots whose ledger slot is held (R248). -/
def ledHeld (b : Block) (n : Nat) : Bool :=
  let s := (hub b n).slot
  s == .bypassing || s == .bypassed || s == .unbypassing

/-- E_PRED of one cell (R253). -/
def ePredCell (b : Block) (n : Nat) : W32 :=
  let c := ledCell b n
  let v := if freshNow b n then recVcap b n else lget b n 20
  fadd (energyAt b n v)
    (fmul (fmul (fmul v (iPred b n)) tStride) (fadd (fadd c.h2 c.h1) (fmul fHalf (ofIntF c.lam))))

def ePredUpdate (b : Block) : Block :=
  (ledCells b).foldl (fun (b : Block) n => if ledHeld b n then b else lset n 18 (ePredCell b n) b) b

def execEPredUpdate (s : State) : Host.Outcome State Fault Refusal := s.act ePredUpdate

/-! ### Table lookup -/

/-- Interval of an ascending axis, fraction within it, and whether the coordinate was clamped. -/
def axisPos (ax : List W32) (x : W32) : Nat × W32 × Bool :=
  let n := ax.length
  if flt x (word ax 0) then (0, 0, true)
  else if flt (word ax (n - 1)) x then (n - 2, fOne, true)
  else
    let i := Nat.min (n - 2) (((ax.drop 1).filter fun a => fle a x).length)
    (i, fdiv (fsub x (word ax i)) (fsub (word ax (i + 1)) (word ax i)), false)

/-- a + (b − a) × f. -/
def lerp (a c f : W32) : W32 := fadd a (fmul (fsub c a) f)

/-- Bilinear interpolation in a table whose entry (i, t) stands at `base + 4 i + t`. -/
def bilin (tbl : Nat → W32) (base : Nat) (px pt : Nat × W32 × Bool) : W32 :=
  let at' := fun i t => tbl (base + 4 * i + t)
  lerp (lerp (at' px.1 pt.1) (at' (px.1 + 1) pt.1) px.2.1)
    (lerp (at' px.1 (pt.1 + 1)) (at' (px.1 + 1) (pt.1 + 1)) px.2.1) pt.2.1

/-! ### Loss (R257 to R261) -/

/-- Energies booked to the four positions, and whether a lookup clamped. -/
structure Booked where
  e : List W32 := [0, 0, 0, 0]
  clamp : Bool := false

def Booked.add (k : Booked) (p : Nat) (v : W32) (c : Bool) : Booked :=
  { e := k.e.set p (fadd (word k.e p) v), clamp := k.clamp || c }

/-- A value of the loss table of switch `sw` at |I| and the position's TJ of stride S−1 (R257). `base`: 22 E_ON, 86 E_OFF,
150 E_REC, 214 V_T, 278 V_D. -/
def lossAt (b : Block) (n sw base : Nat) (i : W32) : W32 × Bool :=
  let p := posOf b n sw
  let t := bits (klW b n 2) (4 * p + 19) (4 * p + 16)
  let px := axisPos ((List.range 16).map fun k => cfgW b 0x0B t (2 + k)) (fabs i)
  let pt := axisPos ((List.range 4).map fun k => cfgW b 0x0B t (18 + k)) (lget b n (40 + p))
  (bilin (cfgW b 0x0B t) base px pt, px.2.2 || pt.2.2)

/-- VCAP / V_REF of the switch's loss table. -/
def lossScale (b : Block) (n sw : Nat) (v : W32) : W32 :=
  fdiv v (cfgW b 0x0B (bits (klW b n 2) (4 * posOf b n sw + 19) (4 * posOf b n sw + 16)) 1)

def bookEnergy (b : Block) (n sw base : Nat) (i v : W32) (k : Booked) : Booked :=
  let (x, c) := lossAt b n sw base i
  k.add (posOf b n sw) (fmul x (lossScale b n sw v)) c

/-- Conduction for `ui` UI: V_T or V_D × |I| × time (R259). -/
def bookCond (b : Block) (n sw base : Nat) (i : W32) (ui : Nat) (k : Booked) : Booked :=
  if ui = 0 then k
  else
    let (x, c) := lossAt b n sw base i
    k.add (posOf b n sw) (fmul (fmul x (fabs i)) (fmul (ofNatF ui) tUi)) c

/-- F and X of a leg (R258): diode and transistor switch. -/
def legFX (b : Block) (n j : Nat) (i : W32) : Nat × Nat :=
  let (h, l) := dLeg (cellDesc b n) j
  let pol := match kindIndex b 0x06 (dKind (cellDesc b n)) (dRev (cellDesc b n)) with
    | some k => cfgBit b 0x06 k 2 (8 + j)
    | none => false
  -- I = 0 is positive, so that LEG_POL decides there
  if (if pol then !flt i 0 else flt i 0) then (h, l) else (l, h)

/-- The commutations of one leg in time order, booked from time `t0` with X on or not (R258, R259). -/
def bookLeg (b : Block) (n f x xt dead : Nat) (i v : W32) : List (Nat × Nat) → Nat → Bool → Booked → Booked
  | [], t0, on, k => bookCond b n (if on then x else f) (if on then 214 else 278) i (125000 - t0) k
  | (t, tgt) :: rest, t0, on, k =>
    if tgt = xt then
      if on then bookLeg b n f x xt dead i v rest t0 on k
      else
        let k := bookCond b n f 278 i (t + dead - t0) k
        bookLeg b n f x xt dead i v rest (t + dead) true (bookEnergy b n f 150 i v (bookEnergy b n x 22 i v k))
    else if on then
      bookLeg b n f x xt dead i v rest t false (bookEnergy b n x 86 i v (bookCond b n x 214 i (t - t0) k))
    else bookLeg b n f x xt dead i v rest t0 on k

/-- A list booked from a starting switch state with the current I (R258 to R260). `dead`: whether F conducts through the
dead times. -/
def bookList (b : Block) (n : Nat) (dead : Bool) (i v : W32) (start : Nat) (comms : List (Nat × Nat × Nat)) (k : Booked) :
    Booked :=
  let d := cellDesc b n
  (List.range (dNLegs d)).foldl (fun (k : Booked) j =>
    let (f, x) := legFX b n j i
    let xt := if x = (dLeg d j).1 then 1 else 2
    bookLeg b n f x xt (if dead then deadTime b (dLegKind d j) else 0) i v
      ((comms.filter fun c => c.2.1 == j).map fun c => (c.1, c.2.2)) 0 (start.testBit x) k) k

/-- Commutations at time 0 that lead from one switch state to another, leg by leg. -/
def commsTo (d : List W32) (cur vec : Nat) : List (Nat × Nat × Nat) :=
  (List.range (dNLegs d)).filterMap fun j =>
    let (h, l) := dLeg d j
    if cur.testBit h = vec.testBit h ∧ cur.testBit l = vec.testBit l then none
    else some (0, j, if vec.testBit h then 1 else if vec.testBit l then 2 else 0)

/-- The list issued `k` strides ago; k = 0 is the newest. -/
def issueAt (b : Block) (n k : Nat) : Issue := (slCell b n).hist.getD k {}
/-- The switch state at the end of the previous list (R259); where none has been issued since a join, the state that the
list itself starts from (log 31). -/
def bookStart (b : Block) (n : Nat) : Nat :=
  match (slCell b n).hist.drop 1 with
  | last :: _ => last.stop
  | [] => (issueAt b n 0).start

/-- What the record shows beyond the booked list (R261). A record of stride S shows REPEAT of the list of S−3 (R191); the
first HOLD, one stride on, starts from where the same list, then that of S−4, ended. -/
def bookRecord (b : Block) (n : Nat) (k : Booked) : Booked :=
  if !freshNow b n then k
  else
    let i := recIarm b n
    let v := recVcap b n
    let d := cellDesc b n
    match recLadder b n with
    | 1 => bookList b n true i v (issueAt b n 3).stop (issueAt b n 3).comms k
    | 2 =>
      let held := (issueAt b n 4).stop
      if bits (recW b n 0) 23 17 = 2 then bookList b n false i v held (commsTo d held (dZv d)) k
      else bookList b n false i v (dZv d) [] k
    | 3 => if fIsZero i then k
           else (List.range (dNLegs d)).foldl (fun (k : Booked) j =>
             bookCond b n (legFX b n j i).1 278 i 125000 k) k
    | _ => k

/-- The loss of a cell in stride S: the list of S, then the record (R258 to R261). I_PRED for MODE LIMB. -/
def lossStep (b : Block) (n : Nat) : Booked :=
  let it := issueAt b n 0
  let iarm := if freshNow b n then recIarm b n else lget b n 21
  let i := if b.pair.joining.isSome ∨ (slCell b n).mode ≠ 1 then iarm else iPred b n
  let v := if freshNow b n then recVcap b n else lget b n 20
  let k : Booked := if it.nolist then {} else bookList b n true i v (bookStart b n) it.comms {}
  bookRecord b n k

/-! ### Temperature and life -/

/-- The terms of the series of e^(−n/d) from the k-th on, in units of 2^-96; `t` is the term before them. -/
def expTerms (n d : Nat) : Nat → Nat → Nat → Bool → Int
  | 0, _, _, _ => 0
  | fuel + 1, k, t, neg =>
    let t' := t * n / (d * k)
    (if neg then -(t' : Int) else t') + expTerms n d fuel (k + 1) t' (!neg)

/-- e^x in binary32 for −1 ≤ x ≤ 0, where TAU puts it: a free value next to the rounded result (log 3); 0 for −∞. -/
def fexp (x : W32) : W32 :=
  if fIsInf x && fNeg? x then 0
  else if fIsNaN x || fIsInf x || flt x 0xBF800000 || flt 0 x then Config.expOut x
  else
    let (n, d) := fVal x
    let r := ofRat (2 ^ 96 + expTerms n.natAbs d 32 1 (2 ^ 96) true) (2 ^ 96)
    let c := Config.expOut x
    if (c.toNat : Int) - r.toNat = 1 || (r.toNat : Int) - c.toNat = 1 then c else r

/-- a_k of R263. -/
def thA (tau : W32) : W32 := fexp (fdiv (fneg tStride) tau)

/-- σ_3 of R263. -/
def loopScale (b : Block) (n : Nat) : W32 :=
  if bits (klW b n 0) 7 6 = 1 then
    let c : Coolant := Tbl.get {} b.led.loops (bits (klW b n 0) 5 4)
    if c.stale then cfgW b 0x0E 0 5 else c.scale
  else fOne

/-- The four nodes and TJ of one position after a stride with energy `e` (R263). -/
def thermalPos (b : Block) (n p : Nat) (ref e : W32) : List W32 × W32 :=
  if !posMapped b n p then ([0, 0, 0, 0], ref)
  else
    let pw := fdiv e tStride
    let th := (List.range 4).map fun k =>
      let a := thA (klW b n (9 + 8 * p + 2 * k))
      let sg := if k = 3 then loopScale b n else fOne
      fadd (fmul a (lget b n (24 + 4 * p + k)))
        (fmul (fmul (fmul (klW b n (8 + 8 * p + 2 * k)) sg) (fsub fOne a)) pw)
    (th, th.foldl fadd ref)

/-- 2^(a / d) for a < d, in units of 2^-128, by the binary digits of the fraction: `r` is 2 to the power of the last digit's
place, `acc` what the digits so far make; the digits looked at are those of a binary32 number. -/
def pow2Frac (d : Nat) : Nat → Nat → Nat → Nat → Nat
  | 0, _, _, acc => acc
  | k + 1, a, r, acc =>
    if a = 0 then acc
    else
      let r := isqrt (r * 2 ^ 128)
      if d ≤ 2 * a then pow2Frac d k (2 * a - d) r (acc * r / 2 ^ 128) else pow2Frac d k (2 * a) r acc

/-- floor(2^(e − x) + 0.5) for a binary32 exponent x (R270). -/
def pow2Units (e : Nat) (x : W32) : Nat :=
  let (n, d) := fVal x
  let y : Int := (e * d : Nat) - n
  let z := y / d
  let f := pow2Frac d 40 (y - z * d).toNat (2 * 2 ^ 128) (2 ^ 128)
  if 0 ≤ z then (f * 2 ^ (z.toNat + 1) + 2 ^ 128) / 2 ^ 129
  else (2 * f + 2 ^ (128 + (-z).toNat)) / 2 ^ (129 + (-z).toNat)

/-- Units of life of a counted cycle between two reversals in 1/64 °C, and whether the lookup clamped (R268, R270).
`half`: a half cycle. -/
def cycleLife (b : Block) (n p : Nat) (x y : Int) (half : Bool) : Nat × Bool :=
  let t := bits (klW b n 2) (4 * p + 3) (4 * p)
  let dT := ofRat (x - y).natAbs 64
  let tm := ofRat (x + y) 128
  let ax := (List.range 16).map fun k => cfgW b 0x0C t (1 + k)
  if flt dT (word ax 0) then (0, false)
  else
    let px := axisPos ax dT
    let pt := axisPos ((List.range 4).map fun k => cfgW b 0x0C t (17 + k)) tm
    let nf := bilin (cfgW b 0x0C t) 21 px pt
    (pow2Units (if half then 47 else 48) nf, px.2.2 || pt.2.2)

/-- The rainflow stack of a position while cycles are counted: reversals oldest first, life units, clamp, overflows. -/
structure Rain where
  st : List Int
  add : Nat := 0
  clamp : Bool := false
  ovf : Nat := 0

/-- Full cycles off the top of the stack by the four-point test (R268); `fuel` bounds the removals. -/
def rainFull (b : Block) (n p : Nat) : Nat → Rain → Rain
  | 0, r => r
  | fuel + 1, r =>
    match r.st.reverse with
    | e :: c :: bb :: a :: older =>
      if (bb - c).natAbs ≤ (a - bb).natAbs ∧ (bb - c).natAbs ≤ (c - e).natAbs then
        let (u, cl) := cycleLife b n p bb c false
        rainFull b n p fuel { r with st := (e :: a :: older).reverse, add := r.add + u, clamp := r.clamp || cl }
      else r
    | _ => r

/-- A push and its counting (R268). -/
def rainPush (b : Block) (n p : Nat) (x : Int) (st : List Int) : Rain :=
  let r := rainFull b n p 3 { st := st ++ [x] }
  match r.st with
  | a :: bb :: rest =>
    if r.st.length = 5 then
      let (u, cl) := cycleLife b n p a bb true
      { st := bb :: rest, add := r.add + u, clamp := r.clamp || cl, ovf := 1 }
    else r
  | _ => r

/-- The reversal detector and the count of one position (R267, R268): new stack, X, direction (true falling). -/
def detect (b : Block) (n p : Nat) (t x : Int) (falling : Bool) (st : List Int) : Rain × Int × Bool :=
  let gate := fmul (klW b n 4) (ofNatF 64)
  if !falling then
    let x := if x < t then t else x
    if fle gate (ofIntF (x - t)) then (rainPush b n p x st, t, true) else ({ st := st }, x, false)
  else
    let x := if t < x then t else x
    if fle gate (ofIntF (t - x)) then (rainPush b n p x st, t, false) else ({ st := st }, x, true)

/-- EV_LIFE_WARN and EV_LIFE_END where L[p] first reaches its level (R271). -/
def lifeEvents (n p old new : Nat) (b : Block) : Block :=
  let first : W32 → Bool := fun lvl => fle lvl (lifeF new) && !fle lvl (lifeF old)
  let b := if first (cfgW b 0x0E 0 3) then raise .lifeWarn [w32 n, w32 p, lifeF new] b else b
  if first fOne then raise .lifeEnd [w32 n, w32 p, lifeF new] b else b

/-- LIFE[p] goes from one value to another, with the events of R271. -/
def lifeGrown (n p old new : Nat) (b : Block) : Block :=
  lifeEvents n p old (Nat.min new (2 ^ 64 - 1)) (setLife n p new b)

/-- LIFE_INC[p] grows (R279). -/
def lifeAdded (n p add : Nat) (b : Block) : Block :=
  onLedCell n (fun (c : LedCell) =>
    let inc := (List.range 4).map fun q => Nat.min (2 ^ 64 - 1) (c.lifeInc.getD q 0 + if q = p then add else 0)
    { c with lifeInc := inc }) b

/-- Rainflow and life of one mapped position (R267 to R271). -/
def lifePos (n p : Nat) (b : Block) : Block :=
  if !posMapped b n p then b
  else
    let w := lget b n (60 + p)
    let depth := bits w 14 12
    let st := (List.range depth).map fun k => s16 (bits (lget b n (52 + 2 * p + k / 2)) (16 * (k % 2) + 15) (16 * (k % 2)))
    let t := tj64 (lget b n (40 + p))
    let (r, x, fall) := detect b n p t (s16 (bits w 31 16)) (bit w 15) st
    let e := fun k => u16 (r.st.getD k 0)
    let b := lset n (60 + p) (pack [fld (u16 x) 31 16, flg fall 15, fld r.st.length 14 12]) b
    let b := lsets n (52 + 2 * p) [pack [fld (e 1) 31 16, fld (e 0) 15 0], pack [fld (e 3) 31 16, fld (e 2) 15 0]] b
    let b := if r.ovf = 0 then b else lset n 23 (setBits (lget b n 23) 25 18 (satInc 255 (bits (lget b n 23) 25 18))) b
    let b := if r.clamp then lsetFlag n 27 true b else b
    let old := life b n p
    if r.add = 0 then b else lifeGrown n p old (old + r.add) (lifeAdded n p r.add b)

/-- Loss and thermal step of one cell (R258 to R264). -/
def thermalStep (n : Nat) (b : Block) : Block :=
  let k := lossStep b n
  let b := lset n 22 (fadd (lget b n 22) (fsum k.e)) b
  let b := if k.clamp then lsetFlag n 28 true b else b
  let b := onLedCell n (fun (c : LedCell) =>
    if freshNow b n then { c with staleRun := 0, lastThs := s16 (bits (recW b n 6) 31 16) }
    else { c with staleRun := c.staleRun + 1 }) b
  let (ref, fb) := tRef b n
  let b := lsetFlag n 29 fb b
  (List.range 4).foldl (fun (b : Block) p =>
    let (th, tj) := thermalPos b n p ref (word k.e p)
    let b := lset n (40 + p) tj (lsets n (24 + 4 * p) th b)
    onLedCell n (fun (c : LedCell) => { c with tjPeak := some (match c.tjPeak with
      | some t => fmax t tj
      | none => tj) }) b) b

/-! ### Identification (R254, R255) -/

/-- The record part of the gate: not stale, LADDER = RUN, LIST_SRC ≠ 0, BIB_CONFLICT = 0. -/
def idRecordOk (b : Block) (n : Nat) : Bool :=
  freshNow b n && recLadder b n == 0 && bits (recW b n 9) 26 25 != 0 && !bit (recW b n 0) 9

def identify (n : Nat) (b : Block) : Block :=
  let d := cellDesc b n
  let c := ledCell b n
  let lam := fsub fOne (ofRat 1 (2 ^ cfgN b 0x0E 0 0 18 14))
  let v := recVcap b n
  let i := recIarm b n
  let v0 := lget b n 20
  let dq := fmul (fmul (fmul tStride c.h3) fHalf) (fadd (lget b n 21) i)
  let dv := fsub v v0
  let low := fmul (ofRat 5 100) (dVRated d)
  let gate := lflag b n 26 && idRecordOk b n && fle (cfgW b 0x0E 0 1) (fabs dq) && fle low v && fle low v0
  let g := lget b n 16
  let p := lget b n 17
  let k := fdiv (fmul p dq) (fadd lam (fmul (fmul p dq) dq))
  let b := if gate then
      lset n 23 (setBits (lget b n 23) 17 0 (satInc 262143 (bits (lget b n 23) 17 0)))
        (lsets n 16 [fadd g (fmul k (fsub dv (fmul g dq))), fdiv (fsub p (fmul (fmul k dq) p)) lam] b)
    else b
  let b := lsets n 16 [fclamp (fdiv fOne (fmul (ofRat 3 2) (dCNom d))) (fdiv fOne (fmul fHalf (dCNom d))) (lget b n 16),
                       fmin (lget b n 17) (pInit b n)] b
  if freshNow b n then lsetFlag n 26 (idRecordOk b n) (lsets n 20 [v, i] b) else lsetFlag n 26 false b

/-- CAP_VALID and CAP_DRIFT with its event (R255). -/
def capFlags (n : Nat) (b : Block) : Block :=
  let b := if bits (lget b n 23) 17 0 ≥ 10000 then lsetFlag n 31 true b else b
  if !lflag b n 31 then b
  else
    let g := lget b n 16
    let dev := fabs (fsub (fdiv fOne (fmul g (dCNom (cellDesc b n)))) fOne)
    let warn := cfgW b 0x0E 0 2
    if flt warn dev then
      if lflag b n 30 then b else raise .capDrift [w32 n, fdiv fOne g] (lsetFlag n 30 true b)
    else if flt dev (fmul warn fHalf) then lsetFlag n 30 false b
    else b

/-- S_STRESS (R272). -/
def stressOf (b : Block) (n : Nat) : W32 :=
  let tj := (List.range 4).map fun p => lget b n (40 + p)
  let hot := tj.foldl fmax (word tj 0)
  let lo := klW b n 5
  let sT := fclamp 0 fOne (fdiv (fsub hot lo) (fsub (klW b n 6) lo))
  let ls := (List.range 4).map fun p => life b n p
  let sL := fclamp 0 fOne (fmul (klW b n 7) (lifeF (ls.foldl Nat.max 0)))
  fmax sT sL

/-! ### Volt-second entries (R195, R196, R199) -/

/-- The bound of R195 for switch i at VCAP v. -/
def vsBound (b : Block) (n i : Nat) (v : W32) : W32 :=
  let d := cellDesc b n
  match (List.range (dNLegs d)).find? fun j => (dLeg d j).1 == i || (dLeg d j).2 == i with
  | some j => fmul (fmul (ofNatF (minPulse b (dLegKind d j))) tUi) v
  | none => 0

/-- An entry clamped to its bound, and the magnitude removed. -/
def vsClamp (bound c : W32) : W32 × W32 :=
  if flt bound (fabs c) then (if fNeg? c then fneg bound else bound, fsub (fabs c) bound) else (c, 0)

/-- The entries the list of this stride leaves, then the clamp of R195 and the drops of R196. -/
def vsStep (n : Nat) (b : Block) : Block :=
  let sc := slCell b n
  let v := if freshNow b n then recVcap b n else lget b n 20
  let b := if sc.dropDue then vsDrop n b else b
  let b := sc.vsNew.foldl (fun (b : Block) x => lset n x.1 x.2 b) b
  let b := onLedCell n (fun (c : LedCell) => { c with clipped := fadd c.clipped sc.clipNew }) b
  let b := onSlCell n (fun (c : SlCell) => { c with vsNew := [], clipNew := 0, dropDue := false }) b
  let b := (List.range 16).foldl (fun (b : Block) i =>
    let c := lget b n i
    if c = 0 then b
    else
      let (c', r) := vsClamp (vsBound b n i v) c
      if r = 0 then b
      else onLedCell n (fun (l : LedCell) => { l with clipped := fadd l.clipped r }) (lset n i c' b)) b
  if flt v (fmul (ofRat 5 100) (dVRated (cellDesc b n))) then vsDrop n b else b

/-! ### Derating and limb words (R274, R275) -/

/-- TJ_HOT over the mapped positions of ACTIVE and INTEGRATING cells; none where there is none. -/
def tjHot (b : Block) (l : Nat) : Option W32 :=
  let cs := (limbCells b l).filter fun n => (hub b n).slot == .active || (hub b n).slot == .integrating
  let ts := cs.flatMap fun n => ((List.range 4).filter (posMapped b n)).map fun p => lget b n (40 + p)
  match ts with
  | [] => none
  | t :: rest => some (rest.foldl fmax t)

/-- One stride of Table 7-9. A control fault is cause row 10 of Table 8-4. -/
def derate (l : Nat) (b : Block) : Block :=
  match tjHot b l with
  | none => b
  | some hot =>
    let q := ledLimb b l
    let thr := cfgW b 0x0F l 2
    let maxK := cfgN b 0x0F l 0 25 22
    let below := if flt hot (fsub thr (ofNatF (cfgN b 0x0F l 3 15 8))) then q.below + 1 else 0
    let up := fle thr hot && decide (q.k < maxK) && (decide (cfgN b 0x0F l 0 21 8 ≤ q.since + 1) || q.k == 0)
    let down := decide (cfgN b 0x0F l 3 31 16 ≤ below) && decide (0 < q.k)
    let tjOver := fle (fadd thr (ofNatF (cfgN b 0x0F l 3 7 0))) hot
    let k' := if up then q.k + 1 else if down then q.k - 1 else q.k
    let b := onLedLimb l (fun _ => { k := k', since := if k' = q.k then q.since + 1 else 0
                                     below := if down && !up then 0 else below, hot := hot, tjOver := tjOver }) b
    let b := if k' = q.k then b else raise .tjDerate [w32 l, w32 k'] b
    if tjOver && !q.tjOver then orderlyCause (stopRow 10) (raise .tjFault [w32 l] b) else b

/-- P_LIMIT of a limb: the lesser of 1 − k × STEP and the power factor of the device power cap (R275, R515). -/
def pLimit (factor : W32) (b : Block) (l : Nat) : W32 :=
  fmin (fsub fOne (fmul (ofNatF (ledLimb b l).k) (cfgW b 0x0F l 1))) factor

/-- The four ledger exchange words of a limb (Table 7-10). -/
def limbWords (factor : W32) (b : Block) (l : Nat) : List W32 :=
  let q := ledLimb b l
  let cs := limbCells b l
  let act := cs.filter (isActive b)
  let sMax := (cs.map fun n => lget b n 19).foldl fmax 0
  [ q.hot, pLimit factor b l, fsum (act.map (energy b)),
    pack [fld q.k 31 28, flg q.tjOver 27, fld (s32 (ftoi 0 (fmul sMax (ofNatF 255)))).toNat 23 16,
          fld (cs.filter fun n => lflag b n 30).length 8 0] ]

/-! ### The stride's work (Table 7-2) -/

/-- Everything of one cell in the window of cycles 3,200 to 3,439, and the pipeline shift. -/
def ledgerCell (n : Nat) (b : Block) : Block :=
  let act := isActive b n
  -- entries are dropped as the slot leaves ACTIVE, before a bypass holds it (R196, R248)
  let b := if (ledCell b n).wasActive && !act then vsDrop n b else b
  let b := onLedCell n (fun (c : LedCell) => { c with wasActive := act }) b
  if ledHeld b n then b
  else
    let b := vsStep n b
    let b := thermalStep n b
    let b := (List.range 4).foldl (fun (b : Block) p => lifePos n p b) b
    let b := capFlags n (identify n b)
    let b := lset n 19 (stressOf b n) b
    let it := issueAt b n 0
    onLedCell n (fun (c : LedCell) => { c with h3 := c.h2, h2 := c.h1, h1 := if it.nolist then c.h1 else it.h
                                               lam := if it.nolist then c.lam else it.lam }) b

/-- The ledger step with the power factor in force. -/
def ledgerStep (factor : W32) (b : Block) : Block :=
  let b := (ledCells b).foldl (fun (b : Block) n => ledgerCell n b) b
  (limbs b).foldl (fun (b : Block) l =>
    let b := derate l b
    xwrites (0x0C00 + 4 * l) (limbWords factor b l) b) b

/-! ### Coolant (R265) -/

/-- A loop's report. -/
def coolantReport (loop : Nat) (temp scale : W32) (b : Block) : Block :=
  { b with led.loops := Tbl.upd {} b.led.loops loop fun (c : Coolant) =>
    { c with next := some (temp, scale), lastAt := some (now b) } }

/-- LEDGER_COOLANT: loop, temperature, R_SCALE from 0.5 to 8.0. -/
def coolant (loop temp scale : W32) (b : Block) : CmdOut :=
  if isPartner b then .fail .pairRole noDetail
  else if 3 < loop.toNat then badArg 0
  else if fIsNaN temp ∨ fIsInf temp then badArg 1
  else if !fInRange scale (1, 2) (8, 1) then badArg 2
  else .ok (mirror (now b) 0x0105 [loop, temp, scale] (coolantReport loop.toNat temp scale b)) []

def execLedgerCoolant (h : Hdr) (loop temp scale : W32) (s : State) : Host.Outcome State Fault Refusal :=
  s.act (runCmd h 0x0105 [] (coolant loop temp scale))

/-- The reported values come into use at the next boundary. -/
def coolantBoundary (b : Block) : Block :=
  { b with led.loops := Tbl.mapAll {} b.led.loops fun _ (c : Coolant) =>
    match c.next with
    | some (t, r) => { c with temp := t, scale := r, next := none, stale := false }
    | none => c }

/-- COOL_TIMEOUT passed for a loop: fail values and EV_COOLANT_STALE. -/
def coolantTimeout (loop : Nat) (b : Block) : Block :=
  let c : Coolant := Tbl.get {} b.led.loops loop
  let due := (c.lastAt.getD 0) + cfgN b 0x0E 0 0 13 6 * 100000
  if c.stale ∨ now b < due then b
  else raise .coolantStale [w32 loop]
    { b with led.loops := Tbl.upd {} b.led.loops loop fun (c : Coolant) => { c with stale := true } }

def execCoolantTimeout (loop : Fin 4) (s : State) : Host.Outcome State Fault Refusal :=
  s.act (coolantTimeout loop.val)

/-! ### History (R278) -/

/-- The greatest TJ[p] of a slot. -/
def hottest (b : Block) (n : Nat) : W32 := (List.range 4).foldl (fun m p => fmax m (lget b n (40 + p))) (lget b n 40)

/-- The history record of a cell number (Table 7-11); an EMPTY one has every other field zero. -/
def historyRecord (b : Block) (n : Nat) : List W32 :=
  let c := ledCell b n
  if !c.has then [flg true 20] ++ List.replicate 15 0
  else
    let body :=
      [fld n 31 21] ++ w64 (now b) ++ [fdiv fOne (lget b n 16), lget b n 22, c.tjPeak.getD (hottest b n)]
        ++ ((List.range 8).map fun k => lget b n (44 + k)) ++ [lget b n 23]
    body ++ [crc32 (bytesOf body)]

/-- Whether `len` strides have passed since `t0`, and so they have where nothing stands there or the stride number was
stepped back past it (log 31). -/
def periodOver (t0 : Option Nat) (len t : Nat) : Bool :=
  match t0 with
  | some a => decide (t < a ∨ a + len ≤ t)
  | none => true

/-- HIST_PERIOD in strides (Table 7-8). -/
def histLen (b : Block) : Nat :=
  match cfgN b 0x0E 0 0 31 30 with
  | 0 => 100000
  | 1 => 1000000
  | _ => 6000000

/-- One history set; LOSS_ACC, the sticky flags and the peak start anew, except in a slot that R248 holds. -/
def historySet (b : Block) : Block :=
  let base := 2048 * (b.led.histSets % 8192)
  let h := (List.range 2048).foldl (fun (h : Tbl (List W32)) n => Tbl.set [] h (base + n) (historyRecord b n)) b.led.history
  let b := ddrUse 33 131072 { b with led := { b.led with history := h, histSets := b.led.histSets + 1, histAt := some (now b) } }
  (ledCells b).foldl (fun (b : Block) n =>
    let b := onLedCell n (fun (c : LedCell) => { c with tjPeak := none }) b
    if ledHeld b n then b else lsetFlag n 28 false (lsetFlag n 27 false (lset n 22 0 b))) b

/-- The end of a history period (R278). -/
def historyPeriod (b : Block) : Block := if periodOver b.led.histAt (histLen b) (now b) then historySet b else b

def execLedgerHistoryPeriod (s : State) : Host.Outcome State Fault Refusal := s.act historyPeriod

/-! ### Checkpoints (R279, R280) -/

/-- Words a digest covers. -/
def Ckpt.words (c : Ckpt) : List W32 :=
  w64 (c.at?.getD 0) ++ w64 c.interval ++ [wBool c.orderly] ++ c.cells.flatMap fun x => w32 x.1 :: x.2

/-- The newer valid checkpoint of the two devices. -/
def newestCkpt (b : Block) : Option Ckpt :=
  let ok := ((List.range 2).map fun d => Tbl.get {} b.led.ckpts d).filter fun (c : Ckpt) =>
    c.at?.isSome && digest64 c.words == c.digest
  match ok with
  | [] => none
  | [c] => some c
  | c :: d :: _ => some (if c.at?.getD 0 < d.at?.getD 0 then d else c)

/-- The checkpoint of this moment; its interval runs from the newer checkpoint in flash, 0 where there is none (log 31). -/
def ckptOf (orderly : Bool) (b : Block) : Ckpt :=
  let cells := (ledCells b).map fun n =>
    (n, w64 (((hub b n).info.map EnumInfo.serial).getD 0)
      ++ ((List.range 8).map fun k => lget b n (44 + k)) ++ [lget b n 16, wBool (lflag b n 31)]
      ++ (List.range 4).flatMap fun p => w64 ((ledCell b n).lifeInc.getD p 0))
  let c : Ckpt := { at? := some (now b), interval := now b - ((newestCkpt b).bind Ckpt.at?).getD (now b), orderly := orderly
                    cells := cells }
  { c with digest := digest64 c.words }

/-- A checkpoint write begins, or is held while the supply monitor defers writes (R279, R512). `asked`: for
LEDGER_CHECKPOINT. -/
def checkpoint (deferred asked orderly : Bool) (b : Block) : Block :=
  if deferred ∨ b.led.writing.isSome then
    { b with led.heldCkpt := some (orderly, asked && (b.led.heldCkpt.map Prod.snd).getD true) }
  else { b with led := { b.led with writing := some (ckptOf orderly b), heldCkpt := none } }

/-- The checkpoint written is the one that LIFE_INC counts from. -/
def incFrom (c : Ckpt) (b : Block) : Block :=
  c.cells.foldl (fun (b : Block) x => onLedCell x.1 (fun (l : LedCell) =>
    let inc := (List.range 4).map fun p => l.lifeInc.getD p 0 - join64 (word x.2 (12 + 2 * p)) (word x.2 (13 + 2 * p))
    { l with lifeInc := inc }) b) b

/-- The write ends: the next checkpoint goes to the other device. A failed one is no checkpoint to count from. -/
def checkpointDone (ok : Bool) (b : Block) : Block :=
  match b.led.writing with
  | none => b
  | some c =>
    if ok then incFrom c { b with led := { b.led with writing := none, ckpts := Tbl.set {} b.led.ckpts b.led.nextDev c
                                                      nextDev := 1 - b.led.nextDev } }
    else raise .ledgerCkptFail [w32 b.led.nextDev] { b with led := { b.led with writing := none } }

/-- One POS restored from a checkpoint record, or reset (R280). `dt`: strides charged of an interval not recorded. -/
def ledRestore (c : Option Ckpt) (timed : Bool) (n : Nat) (b : Block) : Block :=
  let serial := ((hub b n).info.map EnumInfo.serial).getD 0
  let hit := match c with
    | some c => c.cells.find? fun (x : Nat × List W32) => x.1 == n && join64 (word x.2 0) (word x.2 1) == serial
    | none => none
  match c, hit with
  | some c, some (_, r) =>
    let b := ledReset n b
    let cap := cfgN b 0x0E 0 0 29 19 * 6000000
    let dt := if timed then Nat.min (now b - c.at?.getD 0) cap else cap
    let b := (List.range 4).foldl (fun (b : Block) p =>
      let base := join64 (word r (2 + 2 * p)) (word r (3 + 2 * p))
      let inc := join64 (word r (12 + 2 * p)) (word r (13 + 2 * p))
      let add := if c.orderly ∨ c.interval = 0 then 0 else (inc * dt + c.interval - 1) / c.interval
      lifeGrown n p base (base + add) (lifeAdded n p add b)) b
    lsetFlag n 31 (word r 11 == 1) (lset n 16 (word r 10) b)
  | _, _ => ledReset n b

/-- R280: a chain is READY for the first time since Lift. -/
def ledChainReady (timed : Bool) (p : Nat) (b : Block) : Block :=
  if Tbl.get false b.led.restored p then b
  else
    let c := newestCkpt b
    let b := (chainCells b p).foldl (fun (b : Block) n => ledRestore c timed n b) b
    { b with led.restored := Tbl.set false b.led.restored p true }

/-- LIFE[0 to 3] of a slot set by the host, with the events of R271. -/
def setLives (n : Nat) (l : List Nat) (b : Block) : Block :=
  (List.range 4).foldl (fun (b : Block) p => lifeGrown n p (life b n p) (l.getD p 0) b) b

/-- LEDGER_RESTORE (R282): cell number, serial, LIFE[0 to 3]. -/
def ledgerRestore (n serial : Nat) (l : List Nat) (b : Block) : CmdOut :=
  let s := (hub b n).slot
  if isPartner b then .fail .pairRole noDetail
  else if (s ≠ .blocked ∧ s ≠ .bypassed) ∨ (hub b n).info.map EnumInfo.serial ≠ some serial then .fail .notReady noDetail
  else
    let old := (List.range 4).flatMap fun p => w64 (life b n p)
    let b := mirror (now b) 0x0B05 (w32 n :: (List.range 4).flatMap fun p => w64 (l.getD p 0)) (setLives n l b)
    .ok (raise .ledgerRestored (old ++ (List.range 4).flatMap fun p => w64 (l.getD p 0)) b) []

def execLedgerRestore (h : Hdr) (cell : Fin 2048) (serial : BitVec 64) (life : List (BitVec 64)) (s : State) :
    Host.Outcome State Fault Refusal :=
  s.act (runCmd h 0x0B05 [.cell cell.val] (ledgerRestore cell.val serial.toNat (life.map BitVec.toNat)))

end Sys2Proof.Machine
end

