-- ==== Sys2Proof/Machine/Slalom.lean ====
section
/-! DEFINITION. The Slalom scheduler (chapter 5): commutations, limb scheduling, DIRECT mode, resynchronisation and the
volt-second ledger. -/

namespace Sys2Proof.Machine

/-! ### A cell while its list is planned -/

/-- One commutation: start, leg, target (0 off, 1 HIGH on, 2 LOW on), the switch that goes off, flags of Table 5-5. -/
structure Comm where
  t : Nat
  leg : Nat
  tgt : Nat
  out : Nat
  flags : Nat

/-- The plan of one cell. `prev`: last commutation start of each leg in the previous list; `vs`: the volt-second entries;
`start`: assumed switch state; `tl`: level changes (time, level), oldest first; `since`: where the on-interval of a base
cell began; `both`: the zero interval is requested too (DIRECT). -/
structure Plan where
  n : Nat
  d : List W32
  pos : Nat
  neg : Nat
  alt : Nat
  pol : Nat
  rot : Bool
  ip : W32
  v : W32
  start : Nat
  sw : Nat
  level : Int
  zeroVec : Nat
  used : Nat := 0
  comms : List Comm := []
  tl : List (Nat × Int) := []
  prev : Nat → Option Nat
  vs : List W32
  clip : W32 := 0
  elig : Bool := false
  rsFlag : Nat := 0
  swapped : Bool := false
  swings : Nat := 0
  since : Option Nat := none
  both : Bool := false
  key : W32 := 0
  s : W32 := 0

/-- Flags of an edge (Table 5-5). -/
def flagComp : Nat := 128
def flagCarry : Nat := 64
def flagExtend : Nat := 32
def flagSwap : Nat := 16
def flagSwing : Nat := 8
def flagResync : Nat := 4

/-- The target of leg j under a switch vector. -/
def legTarget (d : List W32) (vec j : Nat) : Nat :=
  if vec.testBit (dLeg d j).1 then 1 else if vec.testBit (dLeg d j).2 then 2 else 0

/-- The legs whose switches differ between two vectors. -/
def legsDiffer (d : List W32) (v w : Nat) : List Nat :=
  (List.range (dNLegs d)).filter fun j => legTarget d v j != legTarget d w j

/-- The level of a switch state (Table 5-4). -/
def Plan.levelOf (p : Plan) (vec : Nat) : Int :=
  let m := dSwMap p.d
  if vec &&& m = p.pos &&& m then 1
  else if p.neg ≠ 0 ∧ vec &&& m = p.neg &&& m then -1
  else 0

/-- The zero vector a move to level 0 takes (R174). -/
def Plan.zeroFor (p : Plan) : Nat :=
  let z := dZv p.d
  let a := (legsDiffer p.d p.sw z).length
  let c := (legsDiffer p.d p.sw p.alt).length
  if a < c then z else if c < a then p.alt
  else if !p.rot then z else if p.zeroVec = z then p.alt else z

/-- The vector of a level. -/
def Plan.vecOf (p : Plan) (l : Int) : Nat := if l = 1 then p.pos else if l = -1 then p.neg else p.zeroFor

/-- The zero vector in use: the state at level 0, else the one a return would take. -/
def Plan.zeroInUse (p : Plan) : Nat := if p.level = 0 then p.sw else p.zeroFor

/-- Lowest switch that `a` turns on and `c` holds off (R192). -/
def lowestOn (a c : Nat) : Nat :=
  match (List.range 16).find? fun i => a.testBit i && !c.testBit i with
  | some i => i
  | none => ((List.range 16).find? fun i => a.testBit i).getD 0

/-- Requested instant to commutation start (R170), before R172. A commutation that turns its leg fully off has no incoming
switch and is not compensated: DESIGN CHOICE (log 31). -/
def Plan.place (b : Block) (p : Plan) (j tgt : Nat) (tReq : Int) : Int :=
  let k := dLegKind p.d j
  let dead : Nat := deadTime b k
  if tgt = 0 ∨ !cfgBit b 0x05 k 1 30 then tReq
  else if fle (fabs p.ip) (cfgW b 0x05 k 2) then tReq - (dead / 2 : Nat)
  else
    let highConducts := flt 0 p.ip == p.pol.testBit j
    if highConducts == (tgt == 1) then tReq else tReq - dead

/-- R172: the start moved into the stride. -/
def clampStart (b : Block) (p : Plan) (j : Nat) (t : Int) : Nat :=
  (max 0 (min (124999 - (deadTime b (dLegKind p.d j) : Int)) t)).toNat

/-- Earliest start of leg j by R171, from the list so far or the previous list. -/
def Plan.earliest (b : Block) (p : Plan) (j : Nat) : Nat :=
  let mp := minPulse b (dLegKind p.d j)
  match (p.comms.filter fun c => c.leg == j).getLast? with
  | some c => c.t + mp
  | none =>
    match p.prev j with
    | some x => x + mp - 125000
    | none => 0

/-- Latest start of leg j that keeps the wrap-around of R171. -/
def Plan.latest (b : Block) (p : Plan) (j : Nat) : Nat :=
  match p.comms.find? fun c => c.leg == j with
  | some c => c.t + 125000 - minPulse b (dLegKind p.d j)
  | none => 125000

/-! ### Volt-second entries (R192 to R195) -/

/-- The leg of a switch and its VS_MODE (true: extend) and MIN_PULSE. -/
def Plan.kindOf (p : Plan) (i : Nat) : Nat :=
  match (List.range (dNLegs p.d)).find? fun j => (dLeg p.d j).1 == i || (dLeg p.d j).2 == i with
  | some j => dLegKind p.d j
  | none => 0
def Plan.extend (b : Block) (p : Plan) (i : Nat) : Bool := cfgBit b 0x05 (p.kindOf i) 1 31
def Plan.minP (b : Block) (p : Plan) (i : Nat) : Nat := minPulse b (p.kindOf i)

/-- w′ of R193 and R194: the request plus the carry, in UI; at a V of zero or less the carry is left out of account: DESIGN
CHOICE (log 31). -/
def Plan.want (p : Plan) (i w : Nat) : W32 :=
  let c := word p.vs i
  if c = 0 ∨ !flt 0 p.v then ofNatF w else fadd (ofNatF w) (fdiv c (fmul tUi p.v))

/-- Ceiling of a pattern as a natural number. -/
def fceilNat (x : W32) : Nat := (-(ffloor (fneg x))).toNat

/-- Width to emit and the flag of its edges (R193, R194). -/
def Plan.emit (b : Block) (p : Plan) (i w : Nat) : Nat × Nat :=
  let x := p.want i w
  let mp := p.minP b i
  if !p.extend b i then
    if flt x (ofNatF mp) then (0, 0) else ((ffloor x).toNat, if word p.vs i ≠ 0 then flagCarry else 0)
  else if fle x 0 then (0, 0)
  else if flt x (ofNatF mp) then (mp, flagExtend)
  else (fceilNat x, 0)

/-- An entry set to a value in V·s, clamped to the range of R195. -/
def Plan.setVs (b : Block) (p : Plan) (i : Nat) (x : W32) : Plan :=
  let bound := fmul (fmul (ofNatF (p.minP b i)) tUi) p.v
  let lo := if p.extend b i then fneg bound else 0
  let hi := if p.extend b i then 0 else bound
  let y := fclamp lo hi x
  { p with vs := p.vs.set i y, clip := fadd p.clip (fabs (fsub x y)) }

/-- What is left of w′ after `emitted` UI goes into the entry. -/
def Plan.done (b : Block) (p : Plan) (i : Nat) (want : W32) (emitted : Nat) : Plan :=
  p.setVs b i (fmul (fmul (fsub want (ofNatF emitted)) tUi) p.v)

/-! ### Commutations (R169 to R174) -/

/-- What the moves of R172 add to the interval that switch `i` governs, in UI, if the interval begins (`enter`) or ends with
the commutation at `tReq`. -/
def Plan.slip (b : Block) (p : Plan) (vec : Nat) (tReq : Int) (enter : Bool) (i : Nat) : Int :=
  match (legsDiffer p.d p.sw vec).find? fun j => (dLeg p.d j).1 == i || (dLeg p.d j).2 == i with
  | none => 0
  | some j =>
    let t := p.place b j (legTarget p.d vec j) tReq
    let dl := (clampStart b p j t : Int) - t
    if enter then -dl else dl

/-- Volt-seconds that a move of R172 has taken from an interval go into its entry, those it has added come out of it. -/
def Plan.bookSlip (b : Block) (i : Nat) (dl : Int) (p : Plan) : Plan :=
  if dl = 0 then p else p.setVs b i (fadd (word p.vs i) (fmul (fmul (ofIntF (-dl)) tUi) p.v))

/-- Both ends of a commutation's moves: the level left, the level entered, and in DIRECT mode the zero vector (R192). -/
def Plan.bookMoves (b : Block) (p : Plan) (vec : Nat) (tReq : Int) (q : Plan) : Plan :=
  let zeroI := if q.level = 0 then vec else p.zeroInUse
  let gov : Int → Nat := fun l => lowestOn (if l = -1 then p.neg else p.pos) zeroI
  let q := if p.level = 0 ∨ q.level = p.level then q else q.bookSlip b (gov p.level) (p.slip b vec tReq false (gov p.level))
  let q := if q.level = 0 ∨ q.level = p.level then q else q.bookSlip b (gov q.level) (p.slip b vec tReq true (gov q.level))
  if p.both ∧ q.level ≠ p.level ∧ (p.level = 0 ∨ q.level = 0) then
    let i := lowestOn zeroI (if p.level = 0 then vec else p.sw)
    q.bookSlip b i (p.slip b vec tReq (decide (q.level = 0)) i)
  else q

/-- Commutate every leg that differs from `vec` at one requested instant; none where R171 or the budget of R177
forbids it. The moves of R172 are booked. -/
def Plan.move (b : Block) (p : Plan) (vec : Nat) (tReq : Int) (flags : Nat) : Option Plan :=
  let js := legsDiffer p.d p.sw vec
  let ts := js.map fun j => (j, clampStart b p j (p.place b j (legTarget p.d vec j) tReq))
  if dEMax p.d / 2 < p.used + js.length then none
  else if !(ts.all fun x => decide (p.earliest b x.1 ≤ x.2 ∧ x.2 ≤ p.latest b x.1)) then none
  else
    let lvl := p.levelOf vec
    let out : Nat → Nat := fun j => if legTarget p.d p.sw j = 2 then (dLeg p.d j).2 else (dLeg p.d j).1
    let cs := ts.map fun x => { t := x.2, leg := x.1, tgt := legTarget p.d vec x.1, out := out x.1
                                flags := flags + (if cfgBit b 0x05 (dLegKind p.d x.1) 1 30 ∧ legTarget p.d vec x.1 ≠ 0
                                                  then flagComp else 0) : Comm }
    let m := dSwMap p.d
    some (p.bookMoves b vec tReq { p with
      used := p.used + js.length, comms := p.comms ++ cs, sw := vec &&& m
      zeroVec := if lvl = 0 ∧ p.level ≠ 0 then vec else p.zeroVec
      level := lvl
      tl := if js = [] then p.tl else p.tl ++ [((ts.map Prod.snd).foldl Nat.min 125000, lvl)] })

/-- The least tReq ≥ 0 at which the legs to change are free by R171; `fuel` bounds the corrections. -/
def Plan.freeAt (b : Block) (p : Plan) (vec : Nat) : Nat → Nat → Nat
  | 0, t => t
  | fuel + 1, t =>
    let need := (legsDiffer p.d p.sw vec).foldl (fun m j =>
      Nat.max m (p.earliest b j - clampStart b p j (p.place b j (legTarget p.d vec j) t))) 0
    if need = 0 then t else Plan.freeAt b p vec fuel (t + need)

/-- Move at the earliest instant allowed; the plan unchanged where none is. -/
def Plan.moveEarliest (b : Block) (p : Plan) (vec flags : Nat) : Plan :=
  (p.move b vec (p.freeAt b vec 4 0) flags).getD p

/-! ### Intervals of a cell -/

/-- The on-interval of a base cell ends at `t` and enters its entry (R192): R181 fixes both of its ends, so the widest legal
pulse is the one requested, and what was carried stays carried (R193, R194). -/
def Plan.closeBase (b : Block) (t : Nat) (p : Plan) : Plan :=
  match p.since with
  | none => p
  | some t0 =>
    let i := lowestOn (if p.level = -1 then p.neg else p.pos) p.zeroInUse
    { p.done b i (p.want i (t - t0)) (t - t0) with since := none }

/-- A base change or swap at `tReq`: the on-interval that ends enters its entry, one that begins is noted. -/
def Plan.change (b : Block) (p : Plan) (vec : Nat) (tReq : Nat) (flags : Nat) : Option Plan :=
  ((p.closeBase b tReq).move b vec tReq flags).map fun q => { q with since := if q.level = 0 then none else some tReq }

/-- A pulse at `lvl` from t0 to t1, ending at the zero vector. -/
def Plan.pulse (b : Block) (p : Plan) (lvl : Int) (t0 t1 flags : Nat) : Option Plan :=
  match p.move b (p.vecOf lvl) t0 flags with
  | none => none
  | some q => q.move b q.zeroFor t1 flags

/-! ### Inputs (R163 to R167) -/

/-- The committed CELL_CMD of a cell after R166: MODE, and whether CMD_ERR counts. -/
def cmdMode (b : Block) (n : Nat) (hasNeg : Bool) : Nat × Bool :=
  let c := Tbl.get [] b.slal.cmd n
  let m := bits (word c 0) 31 28
  let lv := bits (word c 0) 27 26
  let bad := decide (3 < m) || fIsNaN (word c 1) || (m == 2 && ((lv != 1 && lv != 3) || (lv == 3 && !hasNeg)))
    || (m == 1 && (cellLimb b n).isNone)
  (if bad then 0 else m, bad)

/-- LIMB_CMD of a limb's LIMB_REF (R164); 2 without one. -/
def limbCmd (b : Block) (l : Nat) : Nat :=
  match Tbl.get [] b.slal.ref l with
  | [] => 2
  | r =>
    let c := bits (word r 3) 31 30
    if c = 3 ∨ fIsNaN (word r 0) ∨ fIsNaN (word r 1) ∨ fIsNaN (word r 2) then 2 else c

/-- Slalom overran for a limb in this stride (R198). -/
def overran (b : Block) (l : Nat) : Bool := (slLimb b l).overrunAt == some (work b)

/-- The squad engine of a cell. -/
def squadOf (n : Nat) : Nat := n / 8

/-- Whether the cell's engine, or an engine hosting its limb or the station laws, missed in this stride or is failed
(R68, R69). -/
def missNow (b : Block) (e : Nat) : Bool := (engine b e).failed || (engine b e).missStride == some (work b)
def cellMissed (b : Block) (n : Nat) : Bool :=
  missNow b (squadOf n)
  || (match cellLimb b n with
      | some l => missNow b (limbEngine b l)
      | none => false)
  || (List.range 16).any fun k => hostsStation b (256 + k) && missNow b (256 + k)

/-- Cases in which the cell gets NOLIST (R167), an immediate stop among them (R291). -/
def wantsNolist (b : Block) (n mode : Nat) : Bool :=
  let s := (hub b n).slot
  mode == 0 || !(s == .active || s == .integrating) || cellsOff b || cellMissed b n
  || (kindIndex b 0x06 (dKind (cellDesc b n)) (dRev (cellDesc b n))).isNone
  || (match cellLimb b n with
      | some l => limbCmd b l == 2 || overran b l
      | none => false)

/-- The assumed switch state after the record of this stride (R191), and whether a resynchronisation is due. After LADDER =
BLOCKED every switch counts as off and a resynchronisation is due: DESIGN CHOICE (log 31). -/
def assumed (b : Block) (n : Nat) : Nat × Bool :=
  let c := slCell b n
  if !freshNow b n then (c.sw, false)
  else
    match recLadder b n with
    | 1 => ((c.hist.getD 2 {}).stop, true)
    | 2 => (dZv (cellDesc b n), true)
    | 3 => (0, true)
    | _ => (c.sw, bits (recW b n 9) 26 25 == 0)

/-- The plan of a cell before anything is commanded. -/
def plan0 (b : Block) (n mode : Nat) : Plan :=
  let d := cellDesc b n
  let c := slCell b n
  let k := (kindIndex b 0x06 (dKind d) (dRev d)).getD 0
  let (sw, rs0) := assumed b n
  let rs := rs0 || c.rsDue
  let prevL := c.hist.getD 0 {}
  let cmd := Tbl.get [] b.slal.cmd n
  let ip := match cellLimb b n with
    | some l => if mode = 2 ∨ limbCmd b l = 2 then recIarm b n else word (Tbl.get [] b.slal.ref l) 2
    | none => recIarm b n
  let p : Plan := { n := n, d := d, pos := cfgN b 0x06 k 1 31 16, neg := cfgN b 0x06 k 1 15 0
                    alt := cfgN b 0x06 k 2 31 16, pol := cfgN b 0x06 k 2 15 8, rot := cfgBit b 0x06 k 2 7
                    ip := ip, v := recVcap b n, start := sw, sw := sw, level := c.level, zeroVec := c.zeroVec
                    prev := fun j => (((prevL.comms.filter fun x => x.2.1 == j).map Prod.fst).getLast?)
                    vs := if c.mode = mode then (List.range 16).map fun i => lget b n i else List.replicate 16 0
                    rsFlag := if rs then flagResync else 0
                    s := lget b n 19
                    key := if fIsNaN (word cmd 2) then 0 else word cmd 2 }
  { p with tl := [(0, p.levelOf sw)]
           elig := mode == 1 && (hub b n).slot == .active && decide ((hub b n).slotAt < work b) && freshNow b n
             && recLadder b n == 0 && !rs && decide ((match c.resyncTo with
               | some x => x
               | none => 0) < work b) }

/-! ### DIRECT mode (R188) -/

/-- The pulse of a DIRECT cell (R188). The pulse and the stride's zero interval each go through their entry and book their
own request; what cannot be placed is carried. Where the carry of the pulse changes its width, that decides before the
carry of the zero interval does (DEDUCED, log 31). -/
def direct (b : Block) (p0 : Plan) (lvl : Int) (duty : W32) : Plan :=
  let p := { p0 with both := true }
  let w := (ffloor (fadd (fmul (fclamp 0 fOne duty) (ofNatF 125000)) fHalf)).toNat
  let wz := 125000 - w
  let vec := p.vecOf lvl
  let i := lowestOn vec p.zeroInUse
  let z := lowestOn p.zeroInUse vec
  let (em, fl) := p.emit b i w
  let (ez, fz) := p.emit b z wz
  let book : Nat → Nat → Plan := fun pulse zeroI => (p.done b i (p.want i w) pulse).done b z (p.want z wz) zeroI
  if em = 0 then
    -- the zero vector throughout
    (book 0 ez).moveEarliest b p.zeroFor p.rsFlag
  else if ez = 0 ∨ 125000 ≤ em then
    -- the level throughout, or from the first instant R171 allows; nothing is placed of the zero interval
    let t := if p.sw = vec then 0 else p.freeAt b vec 4 0
    if p.sw = vec then book (Nat.min em 125000) 0
    else ((book (Nat.min em 125000 - t) 0).move b vec t (p.rsFlag + fl)).getD (book 0 0)
  else
    let byZero := decide (em = w)
    let full := if byZero then 125000 - ez else em
    let width := Nat.min full (125000 - p.minP b i)
    let zeroI := if byZero then ez else wz
    let flags := if byZero then fl.lor fz else fl
    let t0 := 62500 - width / 2
    let t1 := t0 + width
    let placed : Nat → Nat := fun x => em - (full - x)
    let whole : Option Plan :=
      if p.sw = vec then
        -- the first part of the zero interval: placed where R171 allows it
        ((book (placed width) zeroI).move b p.zeroFor 0 p.rsFlag).bind fun q => q.pulse b lvl t0 t1 flags
      else ((book (placed width) zeroI).moveEarliest b p.zeroFor p.rsFlag).pulse b lvl t0 t1 flags
    match whole with
    | some q => q
    | none =>
      if p.sw = vec then
        ((book (placed width) (zeroI - t0)).move b p.zeroFor t1 (p.rsFlag + flags)).getD (book em 0)
      else
        -- the widest legal pulse: from the first instant that is free
        let s0 := Nat.max t0 ((p.moveEarliest b p.zeroFor p.rsFlag).freeAt b vec 4 t0)
        (((book (placed (t1 - s0)) zeroI).moveEarliest b p.zeroFor p.rsFlag).pulse b lvl s0 t1 flags).getD (book 0 zeroI)

/-! ### Limb scheduling (R178 to R186) -/

/-- Put `x` into a sorted list. -/
def insertBy {α : Type} (lt : α → α → Bool) (x : α) : List α → List α
  | [] => [x]
  | y :: ys => if lt x y then x :: y :: ys else y :: insertBy lt x ys

def sortBy {α : Type} (lt : α → α → Bool) (l : List α) : List α := l.foldr (insertBy lt) []

/-- Ascending and descending key, ties to the lower cell number (R163). -/
def keyAsc (p q : Plan) : Bool := flt p.key q.key || (!flt q.key p.key && decide (p.n < q.n))
def keyDesc (p q : Plan) : Bool := flt q.key p.key || (!flt p.key q.key && decide (p.n < q.n))

/-- Replace the plan of its cell. -/
def putPlan (p : Plan) (l : List Plan) : List Plan := l.map fun q => if q.n = p.n then p else q

/-- What a limb's scheduling carries from sub-interval to sub-interval. -/
structure LimbRun where
  plans : List Plan
  r : W32
  a : Nat := 0
  satHi : Bool := false
  satLo : Bool := false
  swings : Nat := 0
  swaps : Nat := 0
  noSwing : Nat := 0
  clip : W32 := 0

/-- Move cells of a list, in order, until `k` have moved; a cell that cannot is passed over. -/
def changeUpTo (b : Block) (lvl : Int) (tReq : Nat) : List Plan → Nat → List Plan → List Plan
  | [], _, ps => ps
  | _, 0, ps => ps
  | p :: rest, k + 1, ps =>
    match p.change b (p.vecOf lvl) tReq 0 with
    | some q => changeUpTo b lvl tReq rest k (putPlan q ps)
    | none => changeUpTo b lvl tReq rest (k + 1) ps

/-- Base change of a sub-interval (R181). -/
def baseChange (b : Block) (sgn : Int) (want : Nat) (tReq : Nat) (ps : List Plan) : List Plan :=
  let wrong := sortBy keyAsc (ps.filter fun p => p.elig && p.level == -sgn)
  let ps := changeUpTo b 0 tReq wrong wrong.length ps
  let base := ps.filter fun p => p.elig && p.level == sgn
  if want < base.length then changeUpTo b 0 tReq (sortBy keyAsc base) (base.length - want) ps
  else changeUpTo b sgn tReq (sortBy keyDesc (ps.filter fun p => p.elig && p.level == 0)) (want - base.length) ps

/-- At most one swap (R182): gain against hysteresis and stress. -/
def swapStep (b : Block) (hyst ks : W32) (sgn : Int) (tReq : Nat) (ps : List Plan) : List Plan × Bool :=
  let o? := (sortBy keyAsc (ps.filter fun p => p.elig && p.level == sgn)).find? fun p =>
    (p.change b p.zeroFor tReq flagSwap).isSome
  let n? := (sortBy keyDesc (ps.filter fun p => p.elig && p.level == 0)).find? fun p =>
    (p.change b (p.vecOf sgn) tReq flagSwap).isSome
  match o?, n? with
  | some o, some n =>
    if flt (fadd hyst (fmul ks (fadd n.s o.s))) (fsub n.key o.key) then
      match o.change b o.zeroFor tReq flagSwap, n.change b (n.vecOf sgn) tReq flagSwap with
      | some o', some n' => (putPlan { n' with swapped := true } (putPlan { o' with swapped := true } ps), true)
      | _, _ => (ps, false)
    else (ps, false)
  | _, _ => (ps, false)

/-- A candidate swing: its cell after the pulse, and whether its carry has the sign needed (R183, R184, R193, R194). The
pulse slides back into the sub-interval; its width is at most the sub-interval's. A swing whose width is only carried puts
out no pulse. -/
def swingOf (b : Block) (sgn : Int) (w lo hi : Nat) (centre : Int) (p : Plan) : Option (Plan × Bool) :=
  let vec := p.vecOf sgn
  let i := lowestOn vec p.zeroInUse
  let (em0, fl) := p.emit b i w
  let em := Nat.min em0 (hi - lo)
  let want := p.want i w
  let held := if p.extend b i then flt (word p.vs i) 0 else flt 0 (word p.vs i)
  if p.swapped ∨ dEMax p.d / 2 < p.used + 2 then none
  else if em = 0 then some ({ p with swings := p.swings + 1 }.done b i want 0, held)
  else
    let t0 := (max (lo : Int) (min (centre - (em / 2 : Nat)) ((hi : Int) - em))).toNat
    (({ p with swings := p.swings + 1 }.done b i want em).pulse b sgn t0 (t0 + em) (flagSwing + fl)).map fun q => (q, held)

/-- Choice among the qualifying cells (R183). -/
def pickSwing (rot : W32) (c : List (Plan × Bool)) : Option Plan :=
  let byCell := sortBy (fun (x y : Plan × Bool) => decide (x.1.n < y.1.n)) c
  match byCell.find? Prod.snd with
  | some x => some x.1
  | none =>
    let q : Plan → W32 := fun p => fadd p.s (fmul rot (ofNatF (p.swings - 1)))
    match sortBy (fun (x y : Plan × Bool) => flt (q x.1) (q y.1) || (!flt (q y.1) (q x.1) && decide (x.1.n < y.1.n))) byCell with
    | x :: _ => some x.1
    | [] => none

/-- One sub-interval j of a limb (R181 to R186); `out`: the levels of ACTIVE cells that are ineligible by their MODE (R180). -/
def subInterval (b : Block) (l : Nat) (hasNeg : Bool) (out : List Int) (j : Nat) (L : LimbRun) : LimbRun :=
  let ref := Tbl.get [] b.slal.ref l
  let kSub := cfgN b 0x07 l 0 25 22
  let T := 125000 / kSub
  let n := fadd (fadd (word ref 0) (fdiv (fmul (fsub (word ref 1) (word ref 0)) (ofNatF (2 * j + 1))) (ofNatF (2 * kSub))))
    (fdiv L.r (ofNatF T))
  let low := flt n 0 && !hasNeg
  let sgn : Int := if flt n 0 && hasNeg then -1 else 1
  let a0 := if low then 0 else (ffloor (fmin (fabs n) (ofNatF 1024))).toNat
  let held := (L.plans.filter fun p => !p.elig && p.level == sgn).length + (out.filter (· == sgn)).length
  let cap := (L.plans.filter Plan.elig).length + held
  let hi := decide (cap < a0)
  let a := Nat.min a0 cap
  let f := if low || hi then 0 else fsub (fabs n) (ofNatF a0)
  let tReq := T * j
  let ps := baseChange b sgn (a - held) tReq L.plans
  let (ps, swapped) := swapStep b (cfgW b 0x07 l 4) (cfgW b 0x07 l 3) sgn tReq ps
  let w := (ffloor (fadd (fmul f (ofNatF T)) fHalf)).toNat
  let centre : Int := ((T * (2 * j + 1) / 2 : Nat) : Int) + sbits (cfgW b 0x07 l 1) 31 15
  let window := (sortBy keyDesc (ps.filter fun p => p.elig && p.level == 0)).take (cfgN b 0x07 l 0 21 18)
  let pick := if flt 0 f then pickSwing (cfgW b 0x07 l 5)
      (window.filterMap (swingOf b sgn w (T * j) (T * (j + 1)) centre)) else none
  let ws := if pick.isSome then w else 0
  let r := fsub (fmul f (ofNatF T)) (ofNatF ws)
  let rc := fclamp (fneg (ofNatF T)) (ofNatF T) r
  { plans := match pick with
      | some p => putPlan p ps
      | none => ps
    r := if low || hi then 0 else rc
    a := a
    satHi := L.satHi || hi
    satLo := L.satLo || low
    swings := L.swings + (match pick with
      | some p => if (ps.any fun q => q.n == p.n && decide (q.used < p.used)) then 1 else 0
      | none => 0)
    swaps := L.swaps + (if swapped then 1 else 0)
    noSwing := L.noSwing + (if flt 0 f && pick.isNone then 1 else 0)
    clip := fadd L.clip (fabs (fsub r rc)) }

/-- Insertion keys of the eligible cells (R179); BIAS stands in `key` beforehand. -/
def withKeys (b : Block) (l : Nat) (ps : List Plan) : List Plan :=
  let ref := Tbl.get [] b.slal.ref l
  let es := (ps.filter Plan.elig).map fun p => lget b p.n 18
  let mean := fdiv (fsum es) (ofNatF es.length)
  let x := if flt (fadd (word ref 0) (word ref 1)) 0 then fneg (word ref 2) else word ref 2
  let band := cfgW b 0x07 l 6
  let sg : W32 := if flt band x then fneg fOne else if flt x (fneg band) then fOne else 0
  ps.map fun p =>
    let en := fmul (fmul fHalf (dCNom p.d)) (fmul (dVRated p.d) (dVRated p.d))
    { p with key := fadd (fdiv (fmul (fmul (cfgW b 0x07 l 2) sg) (fsub (lget b p.n 18) mean)) en) p.key }

/-- A limb in RUN: held cells resynchronise, then the sub-intervals in order; at the end of the stride the on-intervals of
base cells enter their entries. -/
def limbRun (b : Block) (l : Nat) (out : List Int) (ps : List Plan) : LimbRun :=
  let ps := ps.map fun p => if p.elig ∨ p.rsFlag = 0 then p else p.moveEarliest b (p.vecOf p.level) flagResync
  let hasNeg := match limbCells b l with
    | n :: _ => match kindIndex b 0x06 (kindAt b n) (revAt b n) with
      | some k => cfgN b 0x06 k 1 15 0 != 0
      | none => false
    | [] => false
  let start : Plan → Plan := fun p => { p with since := if p.elig ∧ p.level ≠ 0 then some 0 else none }
  let L := (List.range (cfgN b 0x07 l 0 25 22)).foldl (fun (L : LimbRun) j => subInterval b l hasNeg out j L)
    { plans := (withKeys b l ps).map start, r := (slLimb b l).r }
  { L with plans := L.plans.map (Plan.closeBase b 125000) }

/-! ### Edge buffers -/

/-- The edges of a plan in the order of R101, as words (Table 5-5). -/
def Plan.edges (b : Block) (p : Plan) : List W32 :=
  let es := p.comms.flatMap fun c =>
    let (h, l) := dLeg p.d c.leg
    let dead := deadTime b (dLegKind p.d c.leg)
    let e : Nat → Nat → Nat → Nat → Nat × Nat × W32 := fun t sw act fl =>
      (t, sw, pack [fld t 31 15, fld sw 14 11, fld act 10 9, fld fl 8 0])
    match c.tgt with
    | 1 => [e c.t l 0 c.flags, e (c.t + dead) h 1 (c.flags + 256)]
    | 2 => [e c.t h 0 c.flags, e (c.t + dead) l 1 (c.flags + 256)]
    | _ => [e c.t c.out 0 c.flags]
  (sortBy (fun (x y : Nat × Nat × W32) => decide (x.1 < y.1 ∨ (x.1 = y.1 ∧ x.2.1 < y.2.1))) es).map fun x => x.2.2

/-- h of R250: the part of the stride at level +1 less the part at −1; levels count from the commutation starts. -/
def hOf (tl : List (Nat × Int)) : W32 :=
  let s := sortBy (fun (x y : Nat × Int) => decide (x.1 < y.1)) tl
  ofRat ((s.zip (s.tail ++ [(125000, 0)])).foldl (fun (z : Int) x => z + x.1.2 * ((x.2.1 : Int) - x.1.1)) 0) 125000

/-- Keep four lists of history besides the newest. -/
def SlCell.push (c : SlCell) (i : Issue) : SlCell := { c with hist := (i :: c.hist).take 5 }

/-- NOLIST into the buffer of a cell; its volt-second entries are dropped (R167, R196). -/
def nolist (n : Nat) (b : Block) : Block :=
  onHub n (fun (h : HubCell) => { h with edgeNolist := true, edges := [], params := [], integrate := false }) b

def issueNolist (n mode : Nat) (b : Block) : Block :=
  let sw := (assumed b n).1
  onSlCell n (fun (c : SlCell) =>
    let last := c.hist.getD 0 {}
    { c.push { at? := some (work b), start := sw, stop := last.stop, h := last.h, lam := last.lam } with
      sw := sw, mode := mode, vsNew := [], clipNew := 0, dropDue := true, rsDue := c.rsDue || (assumed b n).2
      resyncTo := if (assumed b n).2 then some (work b + 1) else c.resyncTo }) (nolist n b)

/-- The list of a finished plan into the buffer (R177), and what the ledger unit takes from it (R199). -/
def issuePlan (mode : Nat) (dropped : Bool) (p : Plan) (b : Block) : Block :=
  let cmd := Tbl.get [] b.slal.cmd p.n
  let integ := (hub b p.n).slot == .integrating
  let b := onHub p.n (fun (h : HubCell) =>
    { h with edgeNolist := false, edges := p.edges b, integrate := integ
             params := if bit (word cmd 0) 25 then (cmd.drop 4).take (dPWords p.d) else []
             flagAt := if integ then some (h.flagAt.getD (work b)) else none }) b
  let old := slCell b p.n
  onSlCell p.n (fun (c : SlCell) =>
    { c.push { at? := some (work b), start := p.start, stop := p.sw, comms := p.comms.map fun x => (x.t, x.leg, x.tgt)
               h := hOf p.tl, lam := p.level, nolist := false } with
      sw := p.sw, level := p.level, zeroVec := p.zeroVec, mode := mode
      dropDue := dropped || old.mode != mode
      vsNew := (List.range 16).map fun i => (i, word p.vs i)
      clipNew := p.clip, rsDue := false
      resyncTo := if p.rsFlag ≠ 0 then some (work b + 1) else c.resyncTo }) b

/-- LIMB_STATUS word 0 (Table 5-7); `eligible`: the eligible cells, which do not depend on LIMB_CMD (R180). -/
def LimbRun.status (eligible : Nat) (L : LimbRun) : W32 :=
  pack [flg L.satHi 31, flg L.satLo 30, fld L.swings 29 26, fld L.swaps 25 22, fld L.noSwing 21 18, fld L.a 17 9,
        fld eligible 8 0]

/-- The levels last commanded of a limb's ACTIVE cells whose MODE is not LIMB (R180). -/
def modeOut (b : Block) (l : Nat) : List Int :=
  ((limbCells b l).filter fun n => (hub b n).slot == .active && (cmdMode b n true).1 != 1).map fun n => (slCell b n).level

/-- One limb: RUN, or ZERO and NOLIST with r = 0 (R185, R187, R189). `b0`: the block before this stride's lists. -/
def buildLimb (b0 : Block) (l : Nat) (b : Block) : Block :=
  let eligible := ((limbCells b0 l).filter fun n => (plan0 b0 n (cmdMode b0 n true).1).elig).length
  let cs := (limbCells b l).filter fun n =>
    let m := (cmdMode b n true).1
    m == 1 && !wantsNolist b n m && (hub b n).slot == .active
  let run := limbCmd b l = 0 ∧ !overran b l
  let L := if run then limbRun b l (modeOut b0 l) (cs.map fun n => plan0 b n 1) else { plans := cs.map fun n => plan0 b n 1, r := 0 }
  let b := if run then L.plans.foldl (fun (b : Block) p => issuePlan 1 false p b) b else b
  let b := onSlLimb l (fun (x : SlLimb) => { x with r := L.r, clip := fadd x.clip L.clip, status0 := L.status eligible }) b
  xwrites (0x0900 + 2 * l) [L.status eligible, L.r] b

/-- A cell outside limb scheduling: NOLIST, INTEGRATING, ZERO or DIRECT (R167, R180, R188, R189). -/
def buildCell (n : Nat) (b : Block) : Block :=
  let k := kindIndex b 0x06 (dKind (cellDesc b n)) (dRev (cellDesc b n))
  let hasNeg := match k with
    | some i => cfgN b 0x06 i 1 15 0 != 0
    | none => false
  let (m, bad) := cmdMode b n hasNeg
  let b := if bad then { b with slal.cmdErr := Tbl.upd 0 b.slal.cmdErr (n / 64) (· + 1) } else b
  if (hub b n).info.isNone then b
  else
  let limbZero := match cellLimb b n with
    | some l => limbCmd b l == 1
    | none => false
  if wantsNolist b n m then issueNolist n m b
  else if (hub b n).slot = .integrating ∨ m = 3 ∨ limbZero = true then
    let p := plan0 b n m
    issuePlan m true ({ p with vs := List.replicate 16 0 }.moveEarliest b p.zeroFor p.rsFlag) b
  else if m = 2 then
    let cmd := Tbl.get [] b.slal.cmd n
    issuePlan m false (direct b (plan0 b n m) (if bits (word cmd 0) 27 26 = 1 then 1 else -1) (word cmd 1)) b
  else b

/-- All edge buffers of the stride, from the committed outputs and references (R163): every lane slot with a cell or a
committed record. -/
def slalomBuild (b : Block) : Block :=
  if !sysRuns b then b
  else
    let known := (b.cells.filter fun kv => kv.2.info.isSome).map Prod.fst
    let cells := known ++ (b.slal.cmd.map Prod.fst).filter fun n => (hub b n).info.isNone
    let b1 := cells.foldl (fun (x : Block) n => buildCell n x) b
    (limbs b).foldl (fun (x : Block) l => buildLimb b l x) b1

def execSlalomBuild (s : State) : Host.Outcome State Fault Refusal := s.act slalomBuild

/-- R198: the buffers of a limb are not complete by cycle 3,439. Two in a row are an engine failure. -/
def slalomOverrun (l : Nat) (b : Block) : Block :=
  let twice := (slLimb b l).overrunAt.map (· + 1) == some (work b)
  let built := fun (n : Nat) => ((slCell b n).hist.getD 0 {}).at? == some (work b)
  let b := onSlLimb l (fun (x : SlLimb) => { x with r := 0, overrunAt := some (work b) }) b
  let b := raise .slalomOverrun ([w32 l] ++ w64 (work b)) b
  let b := (limbCells b l).foldl (fun (b : Block) n =>
    if built n then
      nolist n (onSlCell n (fun (c : SlCell) =>
        let older := c.hist.drop 1
        let last := older.getD 0 {}
        let i := c.hist.getD 0 {}
        { c with hist := { at? := i.at?, start := i.start, stop := last.stop, h := last.h, lam := last.lam } :: older
                 sw := i.start, level := if last.nolist then c.level else last.lam, vsNew := [], clipNew := 0
                 dropDue := true }) b)
    else nolist n b) b
  let b := { b with pair.localFault := true }
  if twice then engineFail (limbEngine b l) b else b

def execSlalomOverrun (limb : Fin 48) (s : State) : Host.Outcome State Fault Refusal := s.act (slalomOverrun limb.val)

end Sys2Proof.Machine
end

