-- ==== Sys2Proof/Machine/Chains.lean ====
section
/-! DEFINITION. The chain manager (chapter 3, Tables 3-3 and 3-10), chain admission (R59, Table 2-2), telemetry records at
the hub (R64, R65, R347), and what the link engine sends on a chain (R110, R132 to R136, R154 to R158). -/

namespace Sys2Proof.Machine

/-! ### Small parts -/

/-- A command of Table 16-8 that a partner refuses (R403), and that only a unit which sends commands carries out. -/
def chainRole (b : Block) : Option Status := if sends b then none else some .pairRole

/-- Move a lane slot (Table 3-10). -/
def slotTo (n : Nat) (s : SlotSt) (b : Block) : Block :=
  onHub n (fun (h : HubCell) => { h with slot := s, slotAt := work b, flagAt := none }) b

/-- Queue a setpoint write (R110). -/
def queueSet (n index : Nat) (v : W32) (b : Block) : Block :=
  onChain (n / 64) (fun (c : Chain) => { c with setQueue := c.setQueue ++ [{ pos := n % 64, index := index, value := v }] }) b

/-- Latched fault in a record: SC, OV or FAULT_KIND. -/
def recFault (b : Block) (n : Nat) : Bool := bit (recW b n 0) 13 || bit (recW b n 0) 12 || bits (recW b n 8) 10 8 != 0

/-- A port that is UP and hears its partner. -/
def hears (p : Port) : Bool := p.st == .up && !p.searching

/-! ### Chain admission (R59, R60, Table 2-2) -/

/-- Downlink load D of a chain in blocks. -/
def dlLoad (b : Block) (p : Nat) : Nat := 2 + ((chainCells b p).map fun n => dPlan (cellDesc b n)).foldl (· + ·) 0

/-- Record blocks that fit between the last start of a record and the fold bound of the port, in blocks of 5.28 ns. -/
def foldRoom (p rttPs : Nat) : Nat := (2 * ((1928 + 2 * p) * 2500 - 150000) - rttPs) / 10560

/-- DL_MAX of Table 2-5: the downlink limit, and in a pair the pair and relay limits. -/
def dlMax (b : Block) (p : Nat) : Nat :=
  let t := (chain b p).rttPs
  let solo := (10000000 - t) / 10560
  let room := foldRoom p t
  let n := nCells b p
  if !pairEn b then solo
  else if room < 7 * n then 0
  else Nat.min solo (265 + room - 7 * n)

/-- Whether the chain meets R59. -/
def chainAdmits (b : Block) (p : Nat) : Bool :=
  let c := chain b p
  c.measured && decide (c.rttPs ≤ 3000000) && decide (7 * nCells b p ≤ foldRoom p c.rttPs)
  && decide (dlLoad b p ≤ dlMax b p)

/-- RTT in units of 160 ps, as reported. -/
def rttUnits (c : Chain) : Nat := Nat.min (c.rttPs / 160) 32767

/-- CHAIN_STRIDE_STATUS (Table 2-5). -/
def chainStatus (b : Block) (p : Nat) : W32 :=
  let c := chain b p
  pack [fld (rttUnits c) 31 17, flg c.admitted 16, fld c.lateRun 15 10, fld (Nat.min (dlMax b p) 662) 9 0]

/-! ### Enumeration (R86 to R91, Table 3-3) -/

/-- Begin enumeration: a HEAD unit sends ENUM and one sweep follows, a TAIL unit collects (R86, R88, R154). `keep`: a chain
that is READY stays READY while it is enumerated again behind a break that healed (R89). The 200 strides of Table 3-3
run from here, also where no link came up. Both: DESIGN CHOICE (log 23). -/
def startEnum (p : Nat) (keep : Bool) (b : Block) : Block :=
  let b := (List.range 64).foldl (fun (b : Block) k => onHub (64 * p + k) (fun (h : HubCell) => { h with segs := [] }) b) b
  let head := chainEnd b p == 1
  let l := cfgN b 0x03 p 0 22 16
  let e := withCrc8 0x66 (l * 2 ^ 42 + p * 2 ^ 37)
  let b := if head then sendFrame p 0x66 e [] b else b
  onChain p (fun (c : Chain) => { c with
    st := if keep then c.st else .enumerating
    linkUpAt := now b, retryAt := none, broken := false
    checkPassed := if keep then c.checkPassed else false
    enumSent := if head then some e else c.enumSent
    sweep := if head then some (nCells b p) else c.sweep }) b

/-- Enumeration on this unit's account: as lead it asks the other unit, which sends ENUM from the head end or collects at
the tail end (R88, R395, R403). -/
def enumerate (p : Nat) (keep : Bool) (b : Block) : Block :=
  startEnum p keep (mirror (now b) cmdEnumerate [w32 p, flg (chain b p).approved 0] b)

/-- The port leaves UP: the chain goes DARK; silence is supervised by R64 (Table 3-3, R89). -/
def chainDown (p : Nat) (b : Block) : Block :=
  onChain p (fun (c : Chain) => { c with st := .dark, broken := true, checkPassed := false, retryAt := none
                                         open? := none, sweep := none, layoutDue := false }) b

/-- The port comes UP: a HEAD unit enumerates. -/
def chainUp (p : Nat) (b : Block) : Block :=
  if chainEnd b p = 1 ∧ (chain b p).st = .dark then startEnum p false b else b

/-- The three segments of a position are there. -/
def segsDone (b : Block) (n : Nat) : Bool :=
  (List.range 3).all fun k => Tbl.get [] (hub b n).segs k != []

/-- Serial, identity and descriptor as the segments of this enumeration give them (R135). -/
def segInfo (b : Block) (n : Nat) : EnumInfo :=
  let s := (hub b n).segs
  let s0 := Tbl.get [] s 0
  { serial := join64 (word s0 0) (word s0 1), firmware := word s0 2, asym := s32 (word s0 4)
    desc := Tbl.get [] s 1 ++ Tbl.get [] s 2 }

/-- TAIL in the latest record of a cell. -/
def tailBit (b : Block) (n : Nat) : Bool := (hub b n).recAt.isSome && bit (recW b n 0) 7

/-- Positions 0 to k have all segments and position k reports TAIL: the k. -/
def enumTail (b : Block) (p : Nat) : Option Nat :=
  ((List.range 64).find? fun k => !segsDone b (64 * p + k) || tailBit b (64 * p + k)).bind fun k =>
    if segsDone b (64 * p + k) then some k else none

/-- A vector that R173 refuses for a descriptor. -/
def vecBad (d : List W32) (v : Nat) : Bool :=
  v &&& dSwMap d != v || (List.range (dNLegs d)).any fun j => v.testBit (dLeg d j).1 == v.testBit (dLeg d j).2

/-- KIND_LEVELS vectors against a descriptor (R173). -/
def levelsBad (w1 w2 : W32) (d : List W32) : Bool :=
  vecBad d (bits w1 31 16) || (bits w1 15 0 != 0 && vecBad d (bits w1 15 0)) || vecBad d (bits w2 31 16)

/-- What a position's descriptor comes to: 0 passes, 1 a mismatch, 2 a bad descriptor (R82, R91, R173, R262). -/
def posCheck (b : Block) (n : Nat) : Nat :=
  let d := (segInfo b n).desc
  if !descOk b (crc32 (bytesOf (d.take 31))) d then 2
  else if dKind d ≠ kindAt b n ∨ dRev d ≠ revAt b n then 1
  else
    match kindIndex b 0x06 (dKind d) (dRev d), kindIndex b 0x0D (dKind d) (dRev d) with
    | some k, some _ => if levelsBad (cfgW b 0x06 k 1) (cfgW b 0x06 k 2) d then 2 else 0
    | _, _ => 1

/-- The serial at a position differs from the one it reported before. -/
def moved (b : Block) (n : Nat) : Bool :=
  match (hub b n).info with
  | some i => i.serial != (segInfo b n).serial
  | none => false

/-- A failing position of the check of chain `p` whose last cell is at `k` (R82, R89, Table 3-3). -/
def posFails (b : Block) (p k i : Nat) : Bool :=
  let n := 64 * p + i
  if nCells b p ≤ i then kindAt b n != 0 || decide (i ≤ k)
  else kindAt b n == 0 || decide (k < i) || posCheck b n != 0
    || (moved b n && !(chain b p).approved && (hub b n).slot != .bypassed)

/-- Take a position's identity; a BYPASSED position with a new serial holds a replaced cell (Table 3-10, R281). -/
def takeIdentity (n : Nat) (b : Block) : Block :=
  let i := segInfo b n
  let replaced := moved b n && (hub b n).slot == .bypassed
  let old := ((hub b n).info.map EnumInfo.serial).getD 0
  let b := onHub n (fun (h : HubCell) => { h with info := some i }) b
  if replaced then
    queueSet n 97 1 (ledReplaced n old (raise .cellReplaced ([w32 n] ++ w64 i.serial) b))
  else ledEnumerated n b

/-- The chain is READY (Table 3-3, R134, R280); the hub takes the new L at the next boundary (R77). `timed`: time has been acquired. -/
def chainReady (timed : Bool) (p : Nat) (b : Block) : Block :=
  let b := onChain p (fun (c : Chain) => { c with
    st := .ready, broken := false, layoutDue := true, everReady := true, silenceNext := some (cfgN b 0x03 p 0 22 16) }) b
  ledChainReady timed p (raise .chainReady [w32 p] b)

/-- A checked chain that is measured becomes READY, or stays with EV_CHAIN_RTT (R59). -/
def admitChain (timed : Bool) (p : Nat) (b : Block) : Block :=
  let c := chain b p
  if c.st ≠ .checking ∨ !c.checkPassed ∨ !c.measured then b
  else
    let ok := chainAdmits b p
    let b := onChain p (fun (c : Chain) => { c with admitted := ok }) b
    if ok then chainReady timed p b else raise .chainRtt [w32 p, w32 (rttUnits c), w32 (dlLoad b p)] b

/-- Whether TAI time has been acquired since Lift (R280): once the servo has been LOCKED or aligned to a lead that is. -/
def timeAcquired (b : Block) : Bool := b.time.acquired

/-- The check of a completely enumerated chain (Table 3-3). -/
def checkChain (p k : Nat) (b : Block) : Block :=
  let b := onChain p (fun (c : Chain) => { c with st := .checking, checkPassed := false }) b
  let bad := (List.range (Nat.min (k + 1) (nCells b p))).filter fun i => posCheck b (64 * p + i) == 2
  let b := bad.foldl (fun (b : Block) i => raise .descriptorBad [w32 p, w32 i] b) b
  match (List.range 64).find? (posFails b p k) with
  | some i =>
    raise .chainMismatch [w32 p, w32 i] (onChain p (fun (c : Chain) => { c with st := .held }) b)
  | none =>
    let b := (chainCells b p).foldl (fun (b : Block) n => takeIdentity n b) b
    let b := (chainCells b p).foldl (fun (b : Block) n =>
      let s := (hub b n).slot
      if s == .bypassed || s == .bypassing || s == .unbypassing then b else slotTo n .blocked b) b
    let b := onChain p (fun (c : Chain) => { c with checkPassed := true, approved := false }) b
    admitChain (timeAcquired b) p b

/-- ENUMERATING with everything there, within 200 strides. -/
def tryCheck (p : Nat) (b : Block) : Block :=
  let c := chain b p
  if c.st = .enumerating ∧ now b ≤ c.linkUpAt + 200 then
    match enumTail b p with
    | some k => checkChain p k b
    | none => b
  else b

/-- The unit sends BLOCK on one chain. -/
def blockChain (p : Nat) (b : Block) : Block :=
  if sends b && laneActive b p then onPort p (fun (q : Port) => { q with blockSlots := q.blockSlots + 16 }) b else b

/-- An identity seen on a READY chain (Table 3-3, Table 3-10). -/
def readyIdentity (n : Nat) (b : Block) : Block :=
  let p := n / 64
  if !moved b n then b
  else if (hub b n).slot = .bypassed then
    match posCheck b n with
    | 0 => onChain p (fun (c : Chain) => { c with layoutDue := true }) (takeIdentity n b)
    | 2 => raise .chainMismatch [w32 p, w32 (n % 64)] (raise .descriptorBad [w32 p, w32 (n % 64)] b)
    | _ => raise .chainMismatch [w32 p, w32 (n % 64)] b
  else
    blockChain p (raise .chainMismatch [w32 p, w32 (n % 64)] (onChain p (fun (c : Chain) => { c with st := .held }) b))

/-- A SEG header of Table 4-4 for cell `n`, its kind and index, with the CRC-32 over its words. -/
def segOk (n kind idxMax : Nat) (p : BitVec 56) (words : List W32) : Bool :=
  pf p 55 50 == n % 64 && pf p 48 48 == kind && decide (pf p 47 44 ≤ idxMax) && words.length == 16
  && crc32 (bytesOf words) == BitVec.ofNat 32 (pf p 31 0)

/-- A control block or frame that fails its check is counted (R128). -/
def ctrlErr (k : Nat) (b : Block) : Block := onPort k (fun (q : Port) => { q with ctrlErr := satInc 255 q.ctrlErr }) b

/-- What has come of a frame at a unit port that hears its partner (R139): the block with the receiver's stack moved on,
and the words of the frame once it is through. -/
def rxFrame (k o : Nat) (pl : BitVec 56) (skip : Nat) (words : List W32) (b : Block) : Block × Option (List W32) :=
  let r := (port b k).rxFrame o pl skip words
  (onPort k (fun _ => r.1) b, r.2)

/-- An enumeration segment arrives (R87, R88, R135). A chain that collects at the tail end begins with the first. -/
def hubSegment (n : Nat) (pl : BitVec 56) (words : List W32) (b : Block) : Block :=
  let p := n / 64
  if !segOk n 0 2 pl words then ctrlErr p b
  else
    let b := if (chain b p).st = .dark ∧ chainEnd b p = 2 then startEnum p false b else b
    let b := onHub n (fun (h : HubCell) => { h with segs := Tbl.set [] h.segs (pf pl 47 44) words }) b
    if (chain b p).st = .ready then (if segsDone b n then readyIdentity n b else b) else tryCheck p b

def execEnumSegment (cell : Fin 2048) (payload : BitVec 56) (skip : Nat) (words : List W32) (s : State) :
    Host.Outcome State Fault Refusal :=
  s.act fun b =>
    if !hears (port b (cell.val / 64)) then b
    else
      match rxFrame (cell.val / 64) 0xCC payload skip words b with
      | (b, some l) => hubSegment cell.val payload l b
      | (b, none) => b

/-- R88: 200 strides after link-up the segments are incomplete. -/
def execEnumTimeout (port : Fin 32) (s : State) : Host.Outcome State Fault Refusal :=
  s.act fun b =>
    let c := chain b port.val
    if c.st = .enumerating ∧ c.linkUpAt + 200 ≤ now b ∧ c.retryAt = none then
      raise .enumTimeout [w32 port.val] (onChain port.val (fun (c : Chain) => { c with retryAt := some (now b + 1000) }) b)
    else b

/-- R88: the retry 1,000 strides later. -/
def execEnumRetry (port : Fin 32) (s : State) : Host.Outcome State Fault Refusal :=
  s.act fun b =>
    let c := chain b port.val
    match c.retryAt with
    | some t => if c.st = .enumerating ∧ t ≤ now b then enumerate port.val false b else b
    | none => b

/-- CHAIN_ENUMERATE of a HELD chain: the integrator takes the cabling as it stands (R89, Table 3-3). -/
def chainEnumerate (p : Nat) (b : Block) : CmdOut :=
  match chainRole b with
  | some st => .fail st noDetail
  | none =>
    if (chain b p).st ≠ .held then .fail .notReady noDetail
    else .ok (enumerate p false (onChain p (fun (c : Chain) => { c with approved := true }) b)) []

def execChainEnumerate (h : Hdr) (port : Fin 32) (s : State) : Host.Outcome State Fault Refusal :=
  s.act (runCmd h 0x0203 [.chain port.val] (chainEnumerate port.val))

/-! ### Telemetry records (R33, R54, R64, R65, R109, R347) -/

/-- The value of a temperature slot in its SLOT_FMT (R93), from 1/64 °C: a binary32 slot holds °C. -/
def tempSlot (d : List W32) (i : Nat) (t : Int) : W32 := if dSlotFmt d i = 0 then ofRat t 64 else ofInt t

/-- The endpoint image takes a record's values: fixed sensors and the rotated slot (R93, R109). -/
def imageRecord (n : Nat) (r : List W32) (b : Block) : Block :=
  let put : Nat → W32 → Block → Block := fun i v b => { b with image := Tbl.set 0 b.image (128 * n + i) v }
  let th := word r 6
  put (bits (word r 10) 6 0) (word r 11) <| put 22 (word r 7) <| put 21 (tempSlot (cellDesc b n) 21 (sbits th 15 0)) <|
    put 20 (tempSlot (cellDesc b n) 20 (sbits th 31 16)) <| put 19 (word r 5) <| put 18 (word r 4) <| put 17 (word r 3) <| put 16 (word r 2) b

/-- The telemetry ring (R545): position of cell n in stride S. -/
def ringKey (s n : Nat) : Nat := 2048 * (s % 21845) + n

/-- The ring writes the strides that shedding leaves (Table 15-8). -/
def ringWrites (b : Block) (s : Nat) : Bool := s % b.sup.ringEvery == 0 && b.sup.ringEvery != 0

def ringPut (n : Nat) (r : List W32) (b : Block) : Block :=
  if ringWrites b (work b) then ddrUse (n / 64) 48 { b with ring := Tbl.set (0, []) b.ring (ringKey (work b) n) (work b, r) } else b

/-- The lane slot leaves ACTIVE (Table 3-10): BLOCKED, with a report to the filter. -/
def cellLeaves (n cause : Nat) (b : Block) : Block :=
  report (.blocked n cause) (slotTo n .blocked b)

/-- Table 3-10 on a record that is there: LADDER and BYPASSED. -/
def slotRecord (n : Nat) (b : Block) : Block :=
  let h := hub b n
  let lad := recLadder b n
  let byp := bit (recW b n 0) 6
  match h.slot with
  | .integrating =>
    (match h.flagAt with
     | none => b
     | some s =>
       if s + 2 ≤ work b ∧ lad = 0 then raise .cellIntegrated [w32 n] (slotTo n .active b)
       else if s + 3 ≤ work b then
         raise .integrateFail [w32 n]
           { slotTo n .blocked b with md.roundFailed := b.md.roundFailed ++ [n] }
       else b)
  | .active => if lad = 3 then cellLeaves n (bits (recW b n 0) 16 14) b else b
  | .bypassing => if byp ∧ work b ≤ h.slotAt + 100 then raise .cellBypassed [w32 n] (slotTo n .bypassed b) else b
  | .unbypassing =>
    if !byp ∧ work b ≤ h.slotAt + 100 then
      endWaiting (fun w => w.op == 0x0207 && w.objs.contains (.cell n)) .ok []
        (raise .cellUnbypassed [w32 n] (slotTo n .blocked b))
    else b
  | _ => b

/-- R347: a FAULT_KIND from 1 to 6 that the previous record did not show. -/
def faultRecord (n : Nat) (b : Block) : Block :=
  let k := bits (recW b n 8) 10 8
  let was := (hub b n).faultKind
  let b := onHub n (fun (h : HubCell) => { h with faultKind := k }) b
  if 1 ≤ k ∧ k ≤ 6 ∧ k ≠ was then
    let b := report (.fault n k) b
    if cfgBit b 0x17 0 0 (24 + k) then { b with prot.want66 := true } else b
  else b

/-- R89: a break shows as TAIL below the last position; it heals when all those cells report TAIL = 0 in one stride. A chain
that is READY stays READY meanwhile: DESIGN CHOICE (log 23); any other enumerates from the start. -/
def breakRecord (p : Nat) (b : Block) : Block :=
  let cs := (List.range (nCells b p - 1)).map fun i => 64 * p + i
  let fresh := fun n => (hub b n).recAt == some (work b)
  if (chain b p).st = .dark then b
  else if cs.any fun n => fresh n && bit (recW b n 0) 7 then onChain p (fun (c : Chain) => { c with broken := true }) b
  else if (chain b p).broken && cs.all fun n => fresh n then
    enumerate p ((chain b p).st == .ready) (onChain p (fun (c : Chain) => { c with broken := false }) b)
  else b

/-- R411: a BIB_HEARD above the own bib ends this unit's commands. -/
def demote (b : Block) : Block :=
  if !sends b ∨ !pairEn b then b
  else raise .pairDemoted [w32 (bib b)] { b with pair := { b.pair with role := 4, inStep := false, matchRun := 0, strikes := 0, handover := none, relinquish := false,
                                                                        dualUntil := some (now b + 1) } }

/-- What a record tells the pair manager (R394, R411, R416). -/
def bibRecord (r : List W32) (b : Block) : Block :=
  let heard := bits (word r 10) 31 8
  let b := { b with pair := { b.pair with
    bibSeen := Nat.max b.pair.bibSeen (heard / 256)
    aliveAt := if bits (word r 0) 25 24 ≠ 3 ∨ heard ≠ 0 then some (now b) else b.pair.aliveAt } }
  if bib b < heard then demote b else b

/-- A record complete in time for its slot. `late`: after the fold bound of R33. -/
def takeRecord (n : Nat) (r : List W32) (late : Bool) (b : Block) : Block :=
  let b := onHub n (fun (h : HubCell) => { h with
    prev := h.record, prevAt := h.recAt, record := r, recAt := some (work b), stale := false
    silence := 0, silent := false, folded := !late }) b
  let b := if late then onChain (n / 64) (fun (c : Chain) => { c with lateNow := true }) b else b
  let b := setLaneWords n 0 (r.take 12) b
  let b := ringPut n r (imageRecord n r b)
  breakRecord (n / 64) (slotRecord n (faultRecord n b))

/-- An UPREC that checks (Table 4-4). -/
def uprecOk (n : Nat) (pl : BitVec 56) (r : List W32) : Bool :=
  pf pl 55 50 == n % 64 && r.length == 12 && crc32 (bytesOf r) == BitVec.ofNat 32 (pf pl 31 0)

/-- A telemetry record at the hub, complete in cycle `cycle` (R33, R64). A partner keeps its own records apart (R402). -/
def uplinkRecord (n : Nat) (pl : BitVec 56) (r : List W32) (cycle : Nat) (b : Block) : Block :=
  let p := n / 64
  if !uprecOk n pl r then ctrlErr p b
  else if 2560 < cycle then b
  else
    let b := bibRecord r b
    if lagging b then onHub n (fun (h : HubCell) => { h with ownRec := r, ownAt := some (now b) }) b
    else tryCheck p (takeRecord n r (decide (1928 + 2 * p < cycle)) b)

def execUplinkRecord (cell : Fin 2048) (payload : BitVec 56) (skip : Nat) (record : List W32) (cycle : Nat) (s : State) :
    Host.Outcome State Fault Refusal :=
  s.act fun b =>
    if !hears (port b (cell.val / 64)) then b
    else
      match rxFrame (cell.val / 64) 0x33 payload skip record b with
      | (b, some l) => uplinkRecord cell.val payload l cycle b
      | (b, none) => b

/-- R64: no record by cycle 2,560. The slot keeps the previous one, the ring stores it with bit 0 of word 0 set. -/
def recordMissing (n : Nat) (b : Block) : Block :=
  let h := hub b n
  if lagging b ∨ h.info.isNone ∨ h.recAt = some (work b) then b
  else
    let b := onHub n (fun (h : HubCell) => { h with stale := true, folded := false, silence := h.silence + 1 }) b
    let b := onChain (n / 64) (fun (c : Chain) => { c with lateNow := true }) b
    let b := ringPut n (match h.record with
      | w :: ws => (w ||| 1) :: ws
      | [] => []) b
    match h.slot, h.flagAt with
    | .integrating, some s =>
      if s + 3 ≤ work b then
        raise .integrateFail [w32 n] { slotTo n .blocked b with md.roundFailed := b.md.roundFailed ++ [n] }
      else b
    | _, _ => b

def execRecordMissing (cell : Fin 2048) (s : State) : Host.Outcome State Fault Refusal :=
  s.act (recordMissing cell.val)

/-- R64: records missing in L consecutive strides; an ACTIVE slot is BLOCKED (Table 3-10). -/
def cellSilent (n : Nat) (b : Block) : Block :=
  let h := hub b n
  if h.silent ∨ h.silence < (chain b (n / 64)).silenceL then b
  else
    let b := report (.silent n) (onHub n (fun (h : HubCell) => { h with silent := true }) b)
    if h.slot = .active then cellLeaves n 2 b else b

def execCellSilent (cell : Fin 2048) (s : State) : Host.Outcome State Fault Refusal := s.act (cellSilent cell.val)

/-- R65: the stride of a chain is judged for lateness. A stride in which two units send commands does not count (R62). -/
def uplinkLate (p : Nat) (b : Block) : Block :=
  let c := chain b p
  let dual := match b.pair.dualUntil with
    | some t => decide (now b ≤ t)
    | none => false
  let b := onChain p (fun (c : Chain) => { c with lateNow := false }) b
  if dual = true then b
  else
    let run := if c.lateNow then satInc 63 c.lateRun else 0
    let b := onChain p (fun (c : Chain) => { c with lateRun := run }) b
    if c.lateNow ∧ run = cfgN b 0x03 p 0 15 12 ∧ c.lateRun ≠ run then raise .uplinkLate [w32 p] b else b

def execUplinkLate (port : Fin 32) (s : State) : Host.Outcome State Fault Refusal := s.act (uplinkLate port.val)

/-! ### Integration and bypass (R115 to R119, R298) -/

/-- The mean of VCAP over a list of cells. -/
def meanVcap (b : Block) (l : List Nat) : W32 := fdiv (fsum (l.map (recVcap b))) (ofNatF l.length)

/-- V_REF of a limb (R298); none where it is undefined. -/
def vRef (b : Block) (l : Nat) : Option W32 :=
  let act := (limbCells b l).filter (isActive b)
  let blk := (limbCells b l).filter fun n => (hub b n).slot == .blocked && (hub b n).info.isSome && !(hub b n).stale
    && !recFault b n
  if act ≠ [] then some (meanVcap b act) else if blk ≠ [] then some (meanVcap b blk) else none

/-- The integration window of a cell (R298); none where it is empty. -/
def intWindow (b : Block) (n : Nat) : Option (W32 × W32) :=
  let top := fmul (ofRat 110 100) (dVRated (cellDesc b n))
  match cellLimb b n with
  | none => some (0, top)
  | some l =>
    (vRef b l).map fun v =>
      let w := cfgW b 0x10 l 1
      (fmax (fmul v (fsub fOne w)) (fmul (cfgW b 0x10 l 2) (dVRated (cellDesc b n))), fmin (fmul v (fadd fOne w)) top)

def inWindow (b : Block) (n : Nat) : Bool :=
  match intWindow b n with
  | some (lo, hi) => fle lo (recVcap b n) && fle (recVcap b n) hi
  | none => false

/-- The cell's records of the two latest strides are fresh and report BLOCKED, the latest without a fault (R116). -/
def restsBlocked (b : Block) (n : Nat) : Bool :=
  let h := hub b n
  !h.stale && (h.recAt == some (work b) || h.recAt == some (work b - 1)) && h.prevAt.map (· + 1) == h.recAt
  && recLadder b n == 3 && bits (word h.prev 0) 25 24 == 3 && !recFault b n

/-- R116 for a BLOCKED slot. -/
def canIntegrate (b : Block) (n : Nat) : Bool :=
  let c := chain b (n / 64)
  c.st == .ready && c.admitted && decide (c.rttPs ≤ 3000000) && (hub b n).slot == .blocked && restsBlocked b n
  && inWindow b n && sends b

/-- The slot is INTEGRATING: the next list carries INTEGRATE. -/
def integrate (n : Nat) (b : Block) : Block := slotTo n .integrating b

/-- Limbs of side `s` (Table 8-5): 0 MV, 1 LV, 2 a DC string. -/
def limbSide (b : Block) (l : Nat) : Nat := cfgN b 0x10 l 0 25 24
def sideLimbs (b : Block) (s : Nat) : List Nat := (limbs b).filter fun l => cfgWritten b 0x10 l && limbSide b l == s

/-- LV_CONNECTED: some LV-side limb has an ACTIVE cell (Table 8-9). -/
def lvConnected (b : Block) : Bool := (sideLimbs b 1).any fun l => (limbCells b l).any (isActive b)

/-- R318: the LV side is LIVE and not connected, and the cell belongs to an LV-side limb. -/
def lvShut (b : Block) (n : Nat) : Bool :=
  (match cellLimb b n with
    | some l => (sideLimbs b 1).contains l
    | none => false)
  && (Tbl.get {} b.md.sides 1).live && !lvConnected b

/-- CELL_INTEGRATE (R284, R116, R318). -/
def cellIntegrate (n : Nat) (b : Block) : CmdOut :=
  if isPartner b then .fail .pairRole noDetail
  else if integrateBarred b then .fail .wrongMode noDetail
  else if lvShut b n then .fail .syncRequired noDetail
  else if (chain b (n / 64)).measured ∧ 3000000 < (chain b (n / 64)).rttPs then .fail .rttExceeded noDetail
  else if canIntegrate b n then .ok (mirror (now b) 0x0205 [w32 n] (integrate n b)) []
  else .fail .notReady noDetail

def execCellIntegrate (h : Hdr) (cell : Fin 2048) (s : State) : Host.Outcome State Fault Refusal :=
  s.act (runCmd h 0x0205 [.cell cell.val] (cellIntegrate cell.val))

/-- CELL_BYPASS (Table 3-10): NOLIST and BYPASS_CMD = 1. -/
def cellBypass (n : Nat) (b : Block) : CmdOut :=
  match chainRole b with
  | some st => .fail st noDetail
  | none =>
    let s := (hub b n).slot
    if (hub b n).info.isNone ∨ !dHasBypass (cellDesc b n) ∨ (s ≠ .active ∧ s ≠ .blocked) then .fail .notReady noDetail
    else .ok (mirror (now b) 0x0206 [w32 n] (queueSet n 97 1 (nolist n (slotTo n .bypassing b)))) []

def execCellBypass (h : Hdr) (cell : Fin 2048) (s : State) : Host.Outcome State Fault Refusal :=
  s.act (runCmd h 0x0206 [.cell cell.val] (cellBypass cell.val))

/-- CELL_UNBYPASS (Table 3-10, R298). -/
def cellUnbypass (n : Nat) (b : Block) : CmdOut :=
  match chainRole b with
  | some st => .fail st noDetail
  | none =>
    let top := match intWindow b n with
      | some (_, hi) => hi
      | none => fmul (ofRat 110 100) (dVRated (cellDesc b n))
    if (hub b n).slot = .bypassed ∧ recLadder b n = 3 ∧ recFault b n = false ∧ fle (recVcap b n) top = true then
      .wait (mirror (now b) 0x0207 [w32 n] (queueSet n 97 0 (slotTo n .unbypassing b))) [.cell n] []
    else .fail .notReady noDetail

def execCellUnbypass (h : Hdr) (cell : Fin 2048) (s : State) : Host.Outcome State Fault Refusal :=
  s.act (runCmd h 0x0207 [.cell cell.val] (cellUnbypass cell.val))

/-- 100 strides after the write. -/
def execBypassTimeout (cell : Fin 2048) (s : State) : Host.Outcome State Fault Refusal :=
  s.act fun b =>
    if (hub b cell.val).slot = .bypassing ∧ (hub b cell.val).slotAt + 100 ≤ now b then
      raise .bypassFail [w32 cell.val] (slotTo cell.val .blocked b)
    else b

def execUnbypassTimeout (cell : Fin 2048) (s : State) : Host.Outcome State Fault Refusal :=
  s.act fun b =>
    if (hub b cell.val).slot = .unbypassing ∧ (hub b cell.val).slotAt + 100 ≤ now b then
      endWaiting (fun w => w.op == 0x0207 && w.objs.contains (.cell cell.val)) .timeout []
        (raise .unbypassFail [w32 cell.val] (queueSet cell.val 97 1 (slotTo cell.val .bypassed b)))
    else b

/-! ### Endpoints (R28, R29, R110) -/

/-- A status with which an endpoint address is refused (R29); `k` is its argument word. -/
def endpointBad (b : Block) (a : W32) (k : Nat) : Option CmdOut :=
  if bits a 31 18 ≠ 0 then some (badArg k)
  else if !dMapped (cellDesc b (bits a 17 7)) (bits a 6 0) then some (.fail .noEndpoint noDetail)
  else none

/-- ENDPOINT_WRITE. -/
def endpointWrite (a v : W32) (b : Block) : CmdOut :=
  match endpointBad b a 0 with
  | some r => r
  | none =>
    if bits a 6 0 < 96 then badArg 0
    else match chainRole b with
      | some st => .fail st noDetail
      | none => .ok (queueSet (bits a 17 7) (bits a 6 0) v b) []

def execEndpointWrite (h : Hdr) (address value : W32) (s : State) : Host.Outcome State Fault Refusal :=
  s.act (runCmd h 0x0104 [.cell (bits address 17 7)] (endpointWrite address value))

/-- ENDPOINT_READ: one value for each address, from the endpoint image (Table 1-4). -/
def endpointRead (l : List W32) (b : Block) : CmdOut :=
  match (List.range l.length).filterMap fun k => endpointBad b (word l k) k with
  | r :: _ => r
  | [] => .ok b (l.map fun a => Tbl.get 0 b.image (128 * bits a 17 7 + bits a 6 0))

def execEndpointRead (h : Hdr) (addresses : List W32) (s : State) : Host.Outcome State Fault Refusal :=
  s.act (runCmd h 0x0302 [] (endpointRead addresses))

/-- PROT_CLEAR with TARGET 3 (R351): SEL_LO is the cell's endpoint address with INDEX 0, SEL_HI zero (Table 9-10). -/
def protClearCell (lo hi : W32) (b : Block) : CmdOut :=
  let n := bits lo 17 7
  if bits lo 31 18 ≠ 0 ∨ bits lo 6 0 ≠ 0 then badArg 1
  else if hi ≠ 0 then badArg 2
  else match chainRole b with
  | some st => .fail st noDetail
  | none =>
    if (hub b n).slot ≠ .blocked ∧ (hub b n).slot ≠ .bypassed then .fail .notReady noDetail
    else .wait (queueSet n 96 1 b) [.cell n] (w64 (now b))

def execProtClearCell (h : Hdr) (rsv : BitVec 29) (lo hi : W32) (s : State) : Host.Outcome State Fault Refusal :=
  s.act (runCmd h 0x0208 [.cell (bits lo 17 7)] (unlessRsv (rsv != 0) 0 (protClearCell lo hi)))

/-- The first record 2 to 8 strides after the write, or none (R351). -/
def protClearCellResult (n : Nat) (b : Block) : Block :=
  let p : Waiting → Bool := fun w => w.op == 0x0208 && w.objs.contains (.cell n)
  match b.host.waiting.find? p with
  | none => b
  | some w =>
    let at' := join64 (word w.data 0) (word w.data 1)
    let queued := (chain b (n / 64)).setQueue.any fun q => q.pos == n % 64 && q.index == 96
    if queued then b
    else if (hub b n).recAt = some (now b) ∧ at' + 2 ≤ now b ∧ now b ≤ at' + 8 then
      if bits (recW b n 8) 10 8 = 7 then endWaiting p .causeActive [] b
      else if recFault b n then b
      else endWaiting p .ok [] b
    else if at' + 8 < now b then endWaiting p .timeout [] b
    else b

def execProtClearCellResult (cell : Fin 2048) (s : State) : Host.Outcome State Fault Refusal :=
  s.act (protClearCellResult cell.val)

/-! ### What the link engine sends (R110, R132 to R136, R154 to R158) -/

/-- A link engine that can send (R38, R39): SYS and the lane's synthesizer are in lock and the die is out of reset. -/
def linkRuns (b : Block) (p : Nat) : Bool := sysRuns b && !laneOut b p

/-- The unit commands on this port: solo or lead, port UP. -/
def drives (b : Block) (p : Nat) : Bool := sends b && linkRuns b p && (port b p).st == .up

/-- The planned sub-lists of a chain, highest position first: cell and block offset (R132, R134). -/
def layoutOf (b : Block) (p : Nat) : List (Nat × Nat) :=
  ((chainCells b p).reverse.foldl (fun (acc : List (Nat × Nat) × Nat) n =>
    (acc.1 ++ [(n, acc.2)], acc.2 + dPlan (cellDesc b n))) ([], 0)).1

/-- The sub-list of a cell with its header (Table 4-6, R133), padded to its planned length. -/
def subList (b : Block) (n : Nat) : List W32 :=
  let h := hub b n
  let body := if h.edgeNolist then [] else h.edges ++ h.params
  let low := pack [fld (n % 64) 15 10, fld (if h.edgeNolist then 31 else h.edges.length) 9 5
                   , fld (if h.edgeNolist then 0 else h.params.length) 4 1, flg (h.integrate && !h.edgeNolist) 0]
  let head := low ||| fld (listCrc (bib b) (now b) low body) 31 16
  let l := head :: body
  l ++ List.replicate (2 * dPlan (cellDesc b n) - l.length) 0

/-- Pair lanes that carry traffic. -/
def upLanes (b : Block) : List Nat := (List.range 4).filter fun k => hears (port b (32 + k))

/-- A frame goes to the next UP lane in turn, in the class of its row of Table 11-3 (`kind`, from 0). TIME and ECHO are as
STRIDE and ECHO of Table 4-4; of another header only the CRC-32 over the data words is stated (log 47). -/
def linkFrame (kind stride key : Nat) (words : List W32) : TxFrame :=
  let hd : Nat × BitVec 56 :=
    if kind = 0 then (0xC3, withCrc5 0xC3 (stride % 2 ^ 32 * 2 ^ 24 + 125000 * 2 ^ 6))
    else if kind = 1 then (0x96, withCrc8 0x96 (Config.pairTurn stride % 2 ^ 24 * 2 ^ 17))
    else (Config.pairOctet kind, BitVec.ofNat 56 ((Config.pairHeader kind stride key).toNat * 2 ^ 32 + (crc32 (bytesOf words)).toNat))
  { cls := 2 + kind, octet := hd.1, payload := hd.2, data := dataFields words }

/-- Puts a frame on the link; what may be asked for again is kept (R399). -/
def linkSend (kind stride key : Nat) (words : List W32) (b : Block) : Block :=
  match upLanes b with
  | [] => b
  | ls =>
    let k := ls.getD (b.pair.laneTurn % ls.length) 0
    let b := onPort (32 + k) (Port.push (linkFrame kind stride key words)) b
    { b with pair := { b.pair with
      laneTurn := b.pair.laneTurn + 1
      sent := if 2 ≤ kind ∧ kind ≤ 7 then b.pair.sent ++ [(kind, stride, key, words)] else b.pair.sent } }

/-- STRIDE with its OFFSET, and on a READY chain the downlink frame (R132, R158); a chain whose feed the lead asks for also goes
over the pair link (Table 11-3, R118). -/
def downlinkSend (p off : Nat) (b : Block) : Block :=
  if !drives b p then b
  else
    let ready := (chain b p).st == .ready
    let words := if ready then (chainCells b p).reverse.flatMap (subList b) else []
    let st := withCrc5 0xC3 (now b % 2 ^ 32 * 2 ^ 24 + off % 2 ^ 18 * 2 ^ 6)
    let hd := withCrc8 0x5A (bib b * 2 ^ 32 + now b % 2 ^ 14 * 2 ^ 18 + words.length / 2 * 2 ^ 8)
    let b := onChain p (fun (c : Chain) => { c with
      sentStride := some st, sentBib := if ready then some hd else none, downlink := words }) b
    let b := sendFrame p 0xC3 st [] b
    let b := if ready then sendFrame p 0x5A hd words b else b
    let b := if ready ∧ b.pair.up = true ∧ b.pair.asked.testBit p = true then linkSend 4 (now b) p words b else b
    { b with pair.cmdAt := some (now b) }

def execDownlinkSend (port : Fin 32) (offset : BitVec 18) (s : State) : Host.Outcome State Fault Refusal :=
  s.act (downlinkSend port.val offset.toNat)

/-- LAYOUT frames to every cell (R134). -/
def layoutSend (p : Nat) (b : Block) : Block :=
  if !drives b p ∨ (chain b p).st ≠ .ready ∨ !(chain b p).layoutDue then b
  else
    let fr := (layoutOf b p).map fun x =>
      let v := pack [fld x.2 31 16, fld (dPlan (cellDesc b x.1)) 15 0]
      (svcMake 1 (x.1 % 64) 0 (bib b) v, v)
    let b := onChain p (fun (c : Chain) => { c with layoutDue := false, sentSvc := c.sentSvc ++ fr }) b
    fr.foldl (fun (b : Block) x => sendFrame p 0x55 x.1 [x.2, 0] b) b

def execLayoutSend (port : Fin 32) (s : State) : Host.Outcome State Fault Refusal := s.act (layoutSend port.val)

/-- At most one setpoint write per chain and stride (R110). The 100 strides of a bypass write run from here. -/
def setpointSend (p : Nat) (b : Block) : Block :=
  let c := chain b p
  match c.setQueue with
  | [] => b
  | w :: rest =>
    if !drives b p ∨ c.lastSet.isSome then b
    else
      let pl := svcMake 0 w.pos w.index (bib b) w.value
      let b := onChain p (fun (c : Chain) => { c with
        setQueue := rest, lastSet := some w, sentSvc := c.sentSvc ++ [(pl, w.value)] }) b
      let b := sendFrame p 0x55 pl [w.value, 0] b
      let n := 64 * p + w.pos
      let s := (hub b n).slot
      let b := if w.index = 97 ∧ (s = .bypassing ∨ s = .unbypassing) then
          onHub n (fun (h : HubCell) => { h with slotAt := now b }) b else b
      if w.index = 96 then
        { b with host.waiting := b.host.waiting.map fun (x : Waiting) =>
            if x.op == 0x0208 && x.objs.contains (.cell n) then { x with data := w64 (now b) } else x }
      else b

def execSetpointSend (port : Fin 32) (s : State) : Host.Outcome State Fault Refusal := s.act (setpointSend port.val)

/-- SNAPSHOT-AT behind the downlink frame of a stride from B−67 to B−4, once in a stride (R112, R136, R553). `inTime`: it leaves
before S+1 +3.6 µs, without which it is no copy of R112. -/
def snapshotAtSend (p : Nat) (inTime : Bool) (b : Block) : Block :=
  let c := chain b p
  match c.snapAt.find? fun B => B ≤ now b + 67 && now b + 4 ≤ B with
  | some B =>
    if !drives b p ∨ c.st ≠ .ready ∨ c.sentBib.isNone ∨ c.sentSnap.isSome then b
    else
      let pl := withCrc8 0xA5 (bib b * 2 ^ 32 + B % 2 ^ 24 * 2 ^ 8)
      sendFrame p 0xA5 pl [] (onChain p (fun (c : Chain) => { c with
        snapSent := if inTime then c.snapSent + 1 else c.snapSent, sentSnap := some pl }) b)
  | none => b

def execSnapshotAtSend (port : Fin 32) (inTime : Bool) (s : State) : Host.Outcome State Fault Refusal :=
  s.act (snapshotAtSend port.val inTime)

/-- D_PREV of "none". -/
def noDelay : Nat := 0xFFFFFF

/-- One MEASURE of a sweep (R154), one a stride: targets N_CELLS − 1 down to 0, then 127 with the last result. `t1` in units
of 2 UI. -/
def measureSend (p t1 : Nat) (b : Block) : Block :=
  let e := chainEnd b p
  let n := nCells b p
  let start := (e == 1 && now b % 1000 == 0) || (e == 2 && now b % 1000 == 500)
  let sw := if start then some n else (chain b p).sweep
  match sw with
  | none => b
  | some k =>
    if (port b p).st ≠ .up ∨ e = 0 ∨ linkRuns b p = false ∨ (chain b p).sentMeasure.isSome then b
    else
      let c := chain b p
      let target := if k = 0 then 127 else k - 1
      let seq := (c.seq + 1) % 256
      let pl := withCrc8 0x69 (target * 2 ^ 49 + seq * 2 ^ 41 + c.lastPos % 64 * 2 ^ 34 + c.lastD.getD noDelay * 2 ^ 10)
      sendFrame p 0x69 pl [] (onChain p (fun (c : Chain) => { c with
        seq := seq
        sweep := if k = 0 then none else some (k - 1)
        open? := if k = 0 then none else some { seq := seq, target := target, t1 := t1 }
        sentMeasure := some pl, lastPos := target, lastD := none }) b)

def execMeasureSend (port : Fin 32) (t1 : Nat) (s : State) : Host.Outcome State Fault Refusal :=
  s.act (measureSend port.val t1)

/-- ASYM of a cell in ps, from the present segments or the last enumeration. -/
def asymPs (b : Block) (n : Nat) : Int :=
  10 * (match Tbl.get [] (hub b n).segs 0, (hub b n).info with
    | [], some i => i.asym
    | [], none => 0
    | s0, _ => s32 (word s0 4))

/-- One-way delay in 10 ps from twice its value in ps, halves away from zero (R156). -/
def delayOf (x : Int) : Nat := if 0 ≤ x then ((x + 10) / 20).toNat else 0

/-- ECHO at the unit (R156, R157, R59, R63). `t4` in units of 2 UI. -/
def echoReceived (p : Nat) (pl : BitVec 56) (t4 : Nat) (b : Block) : Block :=
  let c := chain b p
  if !hears (port b p) then b
  else if !crc8Ok 0x96 pl then onPort p (Port.discard 0x96) b
  else
    let b := onPort p Port.other b
    match c.open? with
    | none => b
    | some m =>
      if pf pl 55 50 ≠ m.target ∨ pf pl 49 42 ≠ m.seq then b
      else if pf pl 41 41 = 1 then onChain p (fun (c : Chain) => { c with open? := none, lastD := none }) b
      else
        let k := m.target
        let n := 64 * p + k
        let rtt : Int := 160 * ((t4 : Int) - m.t1) - 10 * (pf pl 40 17 : Int)
        let head := chainEnd b p == 1
        let as : Int := if head then ((List.range k).map fun j => asymPs b (64 * p + j)).foldl (· + ·) 0
          else -(((List.range (nCells b p)).filter fun j => k < j).map fun j => asymPs b (64 * p + j)).foldl (· + ·) 0
        let d := delayOf (rtt + as)
        let hop := match (hub b n).dly with
          | some x => decide (20 < (x - d) + (d - x))
          | none => false
        let b := onHub n (fun (h : HubCell) => { h with dly := some d, dlyPrev := h.dly }) b
        let b := onChain p (fun (c : Chain) => { c with open? := none, lastD := some d }) b
        let b := if hop then raise .hopDelay [w32 p, w32 k] b else b
        if k = (if head then nCells b p - 1 else 0) then
          let b := onChain p (fun (c : Chain) => { c with rttPs := rtt.toNat, measured := true }) b
          if (chain b p).st = .ready ∧ 3000000 < rtt then raise .chainRtt [w32 p, w32 (rttUnits (chain b p)), w32 (dlLoad b p)] b
          else admitChain (timeAcquired b) p b
        else b

def execEchoReceived (port : Fin 32) (payload : BitVec 56) (t4 : Nat) (s : State) : Host.Outcome State Fault Refusal :=
  s.act (echoReceived port.val payload t4)

/-- R156: no ECHO within 4.0 µs. -/
def execEchoTimeout (port : Fin 32) (s : State) : Host.Outcome State Fault Refusal :=
  s.act (onChain port.val fun (c : Chain) => if c.open?.isSome then { c with open? := none, lastD := none } else c)

/-- At a boundary: what was sent in the last stride is past; LAYOUT again every 1,000 strides (R134). -/
def chainBoundary (b : Block) : Block :=
  { b with chains := Tbl.mapAll {} b.chains fun _ (c : Chain) => { c with
      sentStride := none, sentBib := none, downlink := [], sentSvc := [], sentSnap := none, sentMeasure := none
      lastSet := none
      silenceL := c.silenceNext.getD c.silenceL, silenceNext := none
      snapAt := c.snapAt.filter fun B => now b < B
      layoutDue := c.layoutDue || (now b % 1000 == 0 && c.st == .ready) } }

end Sys2Proof.Machine
end

