-- ==== Sys2Proof/Machine/Ports.lean ====
section
/-! DEFINITION. Link ports (chapter 4): training by Table 4-9, slots of the lanes, electrical idle (R152, R153), keepalives and discarded
control blocks, the block lines at the lanes (R19, R140), PORT_RETRAIN and PORT_LINK_STATUS. -/

namespace Sys2Proof.Machine

/-- Some CHAIN_CONFIG has been written (R151). -/
def anyChainCfg (b : Block) : Bool := (List.range 32).any fun p => cfgWritten b 0x01 p

/-- A port that has no use: a unit port with END = 0 once the host has configured chains (R148, R151), a pair lane 1 to 3
of a solo unit (R396). -/
def portUnused (b : Block) (k : Nat) : Bool :=
  (decide (k < 32) && anyChainCfg b && chainEnd b k == 0) || (decide (33 ≤ k) && decide (k < 36) && !pairEn b)

/-- The BLOCK of R151: a solo unit's port until the first CHAIN_CONFIG. -/
def solo3 (b : Block) (k : Nat) : Bool := decide (k < 32) && !pairEn b && !anyChainCfg b

/-- Power or restart of a port: OFF, or TRAIN with its timer (Table 4-9). A port without use enters idle by its EIDLEs
(R152); `out`: its lane has no clock. Frames that wait are dropped: DESIGN CHOICE (log 47). -/
def Port.start (unused out : Bool) (p : Port) : Port :=
  { p with
    st := if unused then .off else .train
    txIdle := out || (unused && p.txIdle), eidle := if unused && !p.txIdle && !out then 4 else 0
    timer := !unused, rxLock := false, rxIdle := false, searching := false, helloRun := 0, kickRun := 0
    keepalives := 0, wrongEnd := false, helloSeen := false, hdrs := [], stack := [], burst := 0, tx := [], exit := 0 }

/-! ### Slots of the lanes (R126 to R152) -/

/-- What a slot of port `k` depends on (R19, R39, R151, R152; HELLO and BLOCK by Table 4-4). -/
def laneCtx (b : Block) (k : Nat) : LaneCtx :=
  if k < 36 then
    { silent := laneOut b k || b.prot.summitReset, mute := b.prot.sysOut
      line := decide (k < 32) && (b.prot.copyA.line || b.prot.copyB.line), base3 := solo3 b k
      origin := if b.pair.role = 1 then 0 else bib b, role := 2, num := if k < 32 then k else 0
      rank := if k < 32 then bib b else rank b, relay := b.pair.role == 4 && decide (k < 32) }
  else { silent := !(term b (k / 2 - 32)).powered, role := k % 2 }

/-- The next slot of one lane. -/
def portSlot (k : Nat) (b : Block) : Block := onPort k (Port.slot (laneCtx b k)) b

/-- One slot of every lane: what the block does while no command waits (log 47). -/
def laneSlot (b : Block) : Block :=
  let b := (List.range 36).foldl (fun (b : Block) k => portSlot k b) b
  { b with ports := Tbl.mapAll {} b.ports fun k p => if k < 36 then p else p.slot (laneCtx b k) }

/-- A port's error counters (R128, R162); a cell counts what fails its check in CRC_ERR_CNT too (Table 3-9). -/
def blockBad (k o : Nat) (b : Block) : Block :=
  let b := onPort k (Port.discard o) b
  if k < 64 ∨ octetClass o = none then b
  else onTerm (k / 2 - 32) (fun c => { c with crcErrCnt := satInc 255 c.crcErrCnt }) b

/-! ### Lanes of the pair link (R396, R397) -/

/-- Lanes that are UP and hear the other unit. -/
def lanesUp (b : Block) : Nat := ((List.range 4).filter fun k => hears (port b (32 + k))).length

/-- A change of the lane count (R397); without a lane the link is down (R412). -/
def laneCount (b : Block) : Block :=
  let n := lanesUp b
  if n = b.pair.lanes then b
  else
    let b := { b with pair := { b.pair with
      lanes := n, up := b.pair.up && decide (0 < n), held := b.pair.held && decide (0 < n) } }
    if pairEn b then raise .pairLink [0, w32 n] b else b

/-- An event of a link port; cell ports raise none in the unit. -/
def portEvent (e : Ev) (k : Nat) (items : List W32) (b : Block) : Block :=
  if k < 36 then raise e (w32 k :: items) b else b

/-! ### Training (R145 to R150) -/

/-- A restart (R145): a unit port that leaves UP takes its chain down. -/
def portRestart (k : Nat) (b : Block) : Block :=
  let was := (port b k).st
  let b := onPort k (fun (p : Port) => { p.start (portUnused b k) (laneOut b k) with retrains := satInc 127 p.retrains }) b
  let b := if was = .up ∧ k < 32 then chainDown k b else b
  if 32 ≤ k ∧ k < 36 then laneCount b else b

/-- Power of every unit port and pair lane (Table 4-9, R151). -/
def portsPower (b : Block) : Block :=
  (List.range 36).foldl (fun (b : Block) k => onPort k (fun (_ : Port) => Port.start (portUnused b k) (laneOut b k) {}) b) b

def execPortRestart (p : PortId) (s : State) : Host.Outcome State Fault Refusal := s.act (portRestart (portKey p))

/-- PORT_RETRAIN (R145). -/
def execPortRetrain (h : Hdr) (port : Fin 32) (s : State) : Host.Outcome State Fault Refusal :=
  s.act (runCmd h 0x0204 [] fun b => .ok (portRestart port.val b) [])

/-- Traffic starts: EV_LINK_UP, counters from zero (R162), the chain manager hears of it. -/
def portUp (k : Nat) (b : Block) : Block :=
  let fromUp := (port b k).st == .up
  let b := onPort k (fun (p : Port) =>
    { p with st := .up, searching := false, helloRun := 0, kickRun := 0, syncErr := 0, ctrlErr := 0, timer := false }) b
  let b := portEvent .linkUp k [] b
  let b := if k < 32 ∧ fromUp = false then chainUp k b else b
  if 32 ≤ k ∧ k < 36 then laneCount b else b

/-- R146: sync headers; with 64 valid ones in a row and the equalizer converged the receiver gains block lock, and in
idle with 16 (R153). From TRAIN to HELLO; in UP the lock comes back. -/
def lockGained (k : Nat) (conv : Bool) (hs : List (BitVec 2)) (b : Block) : Block :=
  let p := hs.foldl Port.header (port b k)
  let b := onPort k (fun _ => p) b
  if p.rxLock then b
  else
    match p.st with
    | .train =>
      if conv && p.allGood 64 then
        onPort k (fun (p : Port) => { p with st := .hello, rxLock := true, helloRun := 0, wrongEnd := false, helloSeen := false }) b
      else b
    | .up =>
      if (p.rxIdle && p.allGood 16) || (conv && p.allGood 64) then
        onPort k (fun (p : Port) => { p with rxLock := true, rxIdle := false, helloRun := 0 }) b
      else b
    | _ => b

def execBlockLockGained (p : PortId) (converged : Bool) (headers : List (BitVec 2)) (s : State) :
    Host.Outcome State Fault Refusal := s.act (lockGained (portKey p) converged headers)

/-- Receive lost in UP (Table 4-9, R149): the transmitter keeps its traffic; the filter hears of a unit port. -/
def rxLost (k : Nat) (b : Block) : Block :=
  if (port b k).searching then b
  else
    let b := onPort k (fun (p : Port) => { p with
      searching := true, rxLock := false, rxIdle := false, lastFail := 5, helloRun := 0, kickRun := 0, hdrs := [], stack := [] }) b
    let b := portEvent .linkRxLost k [] b
    let b := if k < 32 then report (.rxLost k) b else b
    if 32 ≤ k ∧ k < 36 then laneCount b else b

/-- R146, R148: sync headers of which 16 in 64 are invalid, or loss of signal. In idle a lost signal is the partner's
squelch and the link holds (R153). -/
def lockLost (k : Nat) (signal : Bool) (hs : List (BitVec 2)) (b : Block) : Block :=
  let r := (port b k).headers hs
  let b := onPort k (fun _ => r.1) b
  if signal && !(r.2 && r.1.rxLock) then b
  else
    match r.1.st with
    | .train | .hello => portRestart k b
    | .up => if r.1.rxIdle && !signal then b else rxLost k b
    | _ => b

def execBlockLockLost (p : PortId) (signal : Bool) (headers : List (BitVec 2)) (s : State) :
    Host.Outcome State Fault Refusal := s.act (lockLost (portKey p) signal headers)

/-- ROLE that suits the receiving port (R147, R396). -/
def helloRoleOk (b : Block) (k role : Nat) : Bool :=
  if k < 32 then
    match chainEnd b k with
    | 1 => role == 0
    | 2 => role == 1
    | _ => role == 0 || role == 1
  else if k < 36 then role == 2
  else if k % 2 = 0 then role == 1 || role == 2
  else role == 0 || role == 2

/-- A HELLO (R147, Table 4-4): `sent`: HELLO blocks the port has sent since block lock. -/
def helloReceived (k : Nat) (pl : BitVec 56) (sent : Nat) (b : Block) : Block :=
  let p := port b k
  if !p.rxLock || p.st == .off || p.st == .dark || p.st == .train then b
  else if !crc8Ok 0x3C pl then blockBad k 0x3C b
  else if pf pl 53 46 ≠ 1 then onPort k (fun (p : Port) => { p.other with helloRun := 0 }) b
  else if !helloRoleOk b k (pf pl 55 54) then onPort k (fun (p : Port) => { p.other with helloRun := 0, wrongEnd := true }) b
  else
    let b := onPort k (fun (p : Port) => { p.other with
      helloRun := p.helloRun + 1, helloSeen := true, partnerRole := pf pl 55 54, partnerRank := pf pl 40 33 }) b
    let p := port b k
    if (p.st = .hello ∧ 4 ≤ p.helloRun ∧ 16 ≤ sent) ∨ (p.st = .up ∧ p.searching = true ∧ 4 ≤ p.helloRun) then portUp k b else b

def execHelloReceived (p : PortId) (payload : BitVec 56) (sent : Nat) (s : State) : Host.Outcome State Fault Refusal :=
  s.act (helloReceived (portKey p) payload sent)

/-- A KICK (R145): the burst of an idle exit is not counted. -/
def kickReceived (k : Nat) (pl : BitVec 56) (b : Block) : Block :=
  let p := port b k
  if p.st ≠ .hello ∧ p.st ≠ .up then b
  else if !crc8Ok 0x0F pl then blockBad k 0x0F b
  else if 0 < p.burst then onPort k (fun (p : Port) => { p with burst := p.burst - 1 }) b
  else
    let b := onPort k (fun (p : Port) => { p with kickRun := p.kickRun + 1, kickSeq := pf pl 55 40 }) b
    if (port b k).kickRun < 4 then b
    else
      let b := if p.st = .up then portEvent .linkRetrain k [] b else b
      portRestart k (onPort k (fun (p : Port) => { p with lastFail := 6 }) b)

def execKickReceived (p : PortId) (payload : BitVec 56) (s : State) : Host.Outcome State Fault Refusal :=
  s.act (kickReceived (portKey p) payload)

/-- R153: EIDLE holds frequency lock and settings with the link UP until its exit burst of 32 KICK; a payload that is not
zero does not check (R128). -/
def execEidleReceived (p : PortId) (payload : BitVec 56) (s : State) : Host.Outcome State Fault Refusal :=
  s.act fun b =>
    if payload ≠ 0 then blockBad (portKey p) 0x99 b
    else if (port b (portKey p)).st = .up then
      onPort (portKey p) (fun (q : Port) => { q with rxIdle := true, rxLock := false, hdrs := [], burst := 32, kickRun := 0 }) b
    else b

/-- R153: no lock within 48 blocks of signal detect. -/
def execIdleExitTimeout (p : PortId) (s : State) : Host.Outcome State Fault Refusal :=
  s.act fun b => if (port b (portKey p)).st = .up ∧ (port b (portKey p)).rxIdle = true then rxLost (portKey p) b else b

/-- R148: signal detected restarts a DARK port; a receiver in idle begins to regain its lock (R153). -/
def execSignalDetected (p : PortId) (s : State) : Host.Outcome State Fault Refusal :=
  s.act fun b => if (port b (portKey p)).st = .dark then portRestart (portKey p) b else b

/-- TRAIN_TIMEOUT (Table 4-9): DARK without block lock, or where no HELLO was valid. The lane enters idle (R152). -/
def trainTimeout (k : Nat) (signal : Bool) (b : Block) : Block :=
  let p := port b k
  if !p.timer ∨ (p.st ≠ .train ∧ p.st ≠ .hello) then b
  else if p.st = .hello ∧ p.helloSeen = true then onPort k (fun (p : Port) => { p with timer := false }) b
  else
    let r := if p.st = .train then (if signal then 2 else 1) else if p.wrongEnd then 4 else 3
    portEvent .linkDark k [w32 r] (onPort k (fun (p : Port) => { p with
      st := .dark, eidle := if p.txIdle then 0 else 4, rxLock := false, timer := false, lastFail := r, helloRun := 0, kickRun := 0 }) b)

def execTrainTimeout (p : PortId) (signal : Bool) (s : State) : Host.Outcome State Fault Refusal :=
  s.act (trainTimeout (portKey p) signal)

def execDarkRetry (p : PortId) (s : State) : Host.Outcome State Fault Refusal :=
  s.act fun b => if (port b (portKey p)).st = .dark then portRestart (portKey p) b else b

/-- R144: a keepalive HELLO becomes ready on a port in UP. -/
def execHelloKeepalive (p : PortId) (s : State) : Host.Outcome State Fault Refusal :=
  s.act fun b => if (port b (portKey p)).st = .up then
    onPort (portKey p) (Port.keepalive (laneCtx b (portKey p))) b else b

/-- R128, R129, R139: a control block as its receiver reads it. One that lies within a bit of BLOCK's octet, or is of
Table 4-3 and checks, is not discarded; `data`: the data block behind an SVC. -/
def execControlBlockDiscard (p : PortId) (octet : BitVec 8) (payload : BitVec 56) (data : BitVec 64) (s : State) :
    Host.Outcome State Fault Refusal :=
  s.act fun b =>
    if isBlockOctet octet || ((octetClass octet.toNat).isSome && payloadOk octet.toNat payload data) then b
    else blockBad (portKey p) octet.toNat b

/-! ### Block lines at the lanes (R19, R140, R152) -/

/-- The next slot of every Piste lane. -/
def pisteSlot (b : Block) : Block := (List.range 32).foldl (fun (b : Block) k => portSlot k b) b

/-- The next slot of each lane while the line stands: BLOCK, or on a lane in idle the first KICK of its exit burst. -/
def blockLineAssert (copy : Nat) (b : Block) : Block :=
  if (if copy = 0 then b.prot.copyA.line else b.prot.copyB.line) then pisteSlot b else b

def execBlockLineAssert (copy : Fin 2) (s : State) : Host.Outcome State Fault Refusal := s.act (blockLineAssert copy.val)

/-- R140: with both lines released, the next slot of each lane: the interrupted frames resume. -/
def execBlockLineRelease (s : State) : Host.Outcome State Fault Refusal :=
  s.act fun b => if b.prot.copyA.line || b.prot.copyB.line then b else pisteSlot b

/-- PORT_LINK_STATUS (Table 4-13). -/
def portStatus (b : Block) (k : Nat) : W32 :=
  let p := port b k
  let st := match p.st with
    | .off => 0 | .train => 1 | .hello => 2 | .up => 3 | .dark => 4
  pack [fld st 31 29, flg p.rxLock 28, flg p.rxIdle 27, flg p.txIdle 26, fld p.lastFail 25 23, fld p.retrains 22 16
        , fld p.syncErr 15 8, fld p.ctrlErr 7 0]

end Sys2Proof.Machine
end

