-- ==== Sys2Proof/Machine/DebugPort.lean ====
section
/-! DEFINITION. The debug access port (R577, R595): a test access port of IEEE 1149.1 on DBG_TCK, DBG_TMS, DBG_TDI and
DBG_TDO. The debugger's balls are inputs of which the spec says nothing more: their levels at each look are free (log 48). -/

namespace Sys2Proof.Machine

/-- The state after a rising edge of DBG_TCK with DBG_TMS at `m`. -/
def Tap.next (m : Bool) : Tap → Tap
  | .reset => if m then .reset else .idle
  | .idle | .updateDr | .updateIr => if m then .selectDr else .idle
  | .selectDr => if m then .selectIr else .captureDr
  | .captureDr | .shiftDr => if m then .exit1Dr else .shiftDr
  | .exit1Dr => if m then .updateDr else .pauseDr
  | .pauseDr => if m then .exit2Dr else .pauseDr
  | .exit2Dr => if m then .updateDr else .shiftDr
  | .selectIr => if m then .reset else .captureIr
  | .captureIr | .shiftIr => if m then .exit1Ir else .shiftIr
  | .exit1Ir => if m then .updateIr else .pauseIr
  | .pauseIr => if m then .exit2Ir else .pauseIr
  | .exit2Ir => if m then .updateIr else .shiftIr

/-- The instruction that acts: without an authorization IDCODE and BYPASS only (R577). -/
def DbgInsn.acting (authorized : Bool) (i : DbgInsn) : DbgInsn :=
  match i with
  | .opened _ => if authorized then i else .bypass
  | _ => i

/-- The instruction of a code: IDCODE, BYPASS by all ones, else one that an authorization opens. -/
def dbgDecode (code : List Bool) : DbgInsn :=
  if code = Config.dbgIdcodeInsn then .idcode else if code.all id then .bypass else .opened code

/-- What the data register of an instruction captures, its low bit first. -/
def dbgCapture (i : DbgInsn) : List Bool :=
  match i with
  | .idcode => (List.range 32).map (bit Config.dbgIdcode)
  | _ => [false]

/-- A rising edge of DBG_TCK. -/
def DebugPort.rise (authorized tms tdi : Bool) (d : DebugPort) : DebugPort :=
  let shift := match d.tap with
    | .captureDr => dbgCapture (d.insn.acting authorized)
    | .captureIr => true :: List.replicate (Config.dbgIrBits - 1) false
    | .shiftDr | .shiftIr => d.shift.drop 1 ++ [tdi]
    | _ => d.shift
  let tap := d.tap.next tms
  { d with shift := shift, tap := tap, insn := if tap = .reset then .idcode else d.insn }

/-- A falling edge: DBG_TDO shows the register that shifts and is in high impedance else; a new instruction takes effect. -/
def DebugPort.fall (authorized : Bool) (d : DebugPort) : DebugPort :=
  { d with
    insn := if d.tap = .updateIr then (dbgDecode d.shift).acting authorized else d.insn
    tdo := match d.tap with
      | .shiftIr => d.shift.head?
      | .shiftDr => match d.insn.acting authorized with
        | .opened _ => some (Config.dbgOut d.looks)
        | _ => d.shift.head?
      | _ => none }

/-- One look at the balls. -/
def DebugPort.look (authorized : Bool) (d : DebugPort) : DebugPort :=
  let v := Config.dbgBalls d.looks
  let tck := v.getLsbD 0
  let e := if tck && !d.tck then d.rise authorized (v.getLsbD 1) (v.getLsbD 2)
    else if !tck && d.tck then d.fall authorized else d
  { e with tck := tck, looks := d.looks + 1 }

/-- The port of a device past Base; before it, and in a reset of the whole device, DBG_TDO is in high impedance (R595). -/
def debugLook (b : Block) : Block :=
  if b.sup.stage = 0 then b else { b with dbg := b.dbg.look b.trust.auth.isSome }

/-- What the block does while no command waits: a slot of every lane, a look at the debug access port (log 7, 47, 48). -/
def tick (b : Block) : Block := debugLook (laneSlot b)

end Sys2Proof.Machine
end

