-- ==== Sys2Proof/Machine/Balls.lean ====
section
/-! DEFINITION. The balls when the unit does not run (R595, Table 18-11). -/

namespace Sys2Proof.Machine

/-- The conditions that head the columns of Table 18-11. -/
inductive UnitCond where
  | unpowered
  | beforeBase
  | deviceReset
  | summitReset
  | running
  deriving DecidableEq, Repr

/-- The groups of Table 18-11, its outputs; a transmit group is a Piste, pair, station or PCIe one. -/
inductive BallGroup where
  | transmit
  | clkout
  | leg
  | safetyOut
  | spt
  | syncPps
  | pwake
  | dbgTdo
  deriving DecidableEq, Repr

/-- What Table 18-11 gives a group: a state of its own, or what the rules of the chapter that owns the function give. -/
inductive BallState where
  | undriven
  | idle
  | highZ
  | low
  | open
  | released
  | frameLegsOff
  | perChapter
  deriving DecidableEq, Repr

/-- Table 18-11. -/
def ballState (g : BallGroup) (c : UnitCond) : BallState :=
  match g, c with
  | .transmit, .unpowered | .spt, .unpowered => .undriven
  | .transmit, .running => .perChapter
  | .transmit, _ => .idle
  | .clkout, .running => .perChapter
  | .clkout, _ => .highZ
  | .leg, .running => .perChapter
  | .leg, .summitReset => .frameLegsOff
  | .leg, _ => .low
  | .safetyOut, .running => .perChapter
  | .safetyOut, _ => .open
  | .spt, .running | .spt, .summitReset => .perChapter
  | .spt, _ => .low
  | .syncPps, .running => .perChapter
  | .syncPps, _ => .low
  | .pwake, .running | .pwake, .summitReset => .perChapter
  | .pwake, _ => .released
  | .dbgTdo, .running | .dbgTdo, .summitReset => .perChapter
  | .dbgTdo, _ => .highZ

/-- The condition of a powered unit: the whole device is in reset until its supplies are good (R499). -/
def unitCond (b : Block) : UnitCond :=
  if !b.sup.good then .deviceReset
  else if b.prot.summitReset then .summitReset
  else if b.sup.stage = 0 then .beforeBase
  else .running

/-- PWAKE_N is pulled low: by a latched channel with R_WAKE (R331), in the conditions in which the ball is driven. -/
def pwakeLow (b : Block) : Bool := ballState .pwake (unitCond b) == .perChapter && wakeLow b

/-- DBG_TDO is driven: the port shifts, in a condition that lets it (R577, R595). -/
def tdoDriven (b : Block) : Bool := ballState .dbgTdo (unitCond b) == .perChapter && b.dbg.tdo.isSome

end Sys2Proof.Machine
end

