-- ==== Sys2Proof/Machine/Operands.lean ====
section
/-! DEFINITION. How a Carve instruction reaches its operands: registers and predicates of a lane (R209), enabling
(R214), lane memory names (Table 6-2), the running law and its bindings (R215), and the walk over the lanes. -/

namespace Sys2Proof.Machine

/-! ### The instruction word (R212, Table 6-5) -/

def iOp (w : W32) : Nat := bits w 31 26
def iPrd (w : W32) : Nat := bits w 25 23
def iInv (w : W32) : Bool := bit w 22
def iD (w : W32) : Nat := bits w 21 17
def iA (w : W32) : Nat := bits w 16 12
def iB (w : W32) : Nat := bits w 11 7
def iX (w : W32) : Nat := bits w 6 0
def iImm (w : W32) : Nat := bits w 16 7

def fmtR (w : W32) : FmtR :=
  { pred := Fin.ofNat 8 (iPrd w), pinv := iInv w, d := Fin.ofNat 32 (iD w), a := Fin.ofNat 32 (iA w), b := Fin.ofNat 32 (iB w)
    x := Fin.ofNat 128 (iX w) }
def fmtM (w : W32) : FmtM :=
  { pred := Fin.ofNat 8 (iPrd w), pinv := iInv w, d := Fin.ofNat 32 (iD w), imm := Fin.ofNat 1024 (iImm w), x := Fin.ofNat 128 (iX w) }

/-- The instruction of engine `e` that a word spells (Table 6-6); none: its OP is not in the table. -/
def insnOf (e : Fin 272) (w : W32) : Option Instr :=
  match iOp w with
  | 0x00 => some (.cvNop e (fmtR w))
  | 0x01 => some (.cvFadd e (fmtR w))
  | 0x02 => some (.cvFsub e (fmtR w))
  | 0x03 => some (.cvFmul e (fmtR w))
  | 0x04 => some (.cvFma e (fmtR w))
  | 0x05 => some (.cvFmin e (fmtR w))
  | 0x06 => some (.cvFmax e (fmtR w))
  | 0x07 => some (.cvFabs e (fmtR w))
  | 0x08 => some (.cvFneg e (fmtR w))
  | 0x09 => some (.cvFrcp e (fmtR w))
  | 0x0A => some (.cvFsqrt e (fmtR w))
  | 0x0B => some (.cvFcmp e (fmtR w))
  | 0x10 => some (.cvIadd e (fmtR w))
  | 0x11 => some (.cvIsub e (fmtR w))
  | 0x12 => some (.cvIaddw e (fmtR w))
  | 0x13 => some (.cvIsubw e (fmtR w))
  | 0x14 => some (.cvImulq e (fmtR w))
  | 0x15 => some (.cvIshl e (fmtR w))
  | 0x16 => some (.cvIshr e (fmtR w))
  | 0x17 => some (.cvAnd e (fmtR w))
  | 0x18 => some (.cvOr e (fmtR w))
  | 0x19 => some (.cvXor e (fmtR w))
  | 0x1A => some (.cvIcmp e (fmtR w))
  | 0x1B => some (.cvUcmp e (fmtR w))
  | 0x20 => some (.cvFtoi e (fmtR w))
  | 0x21 => some (.cvItof e (fmtR w))
  | 0x22 => some (.cvSincos e (fmtR w))
  | 0x23 => some (.cvAtan2 e (fmtR w))
  | 0x28 => some (.cvSel e (fmtR w))
  | 0x29 => some (.cvPand e (fmtR w))
  | 0x2A => some (.cvPor e (fmtR w))
  | 0x2B => some (.cvPnot e (fmtR w))
  | 0x2C => some (.cvLsum e (fmtR w))
  | 0x2D => some (.cvLmax e (fmtR w))
  | 0x2E => some (.cvLmin e (fmtR w))
  | 0x2F => some (.cvLget e (fmtR w))
  | 0x31 => some (.cvLd e (fmtM w))
  | 0x32 => some (.cvSt e (fmtM w))
  | 0x33 => some (.cvLdc e (fmtM w))
  | 0x34 => some (.cvXld e (fmtM w))
  | 0x35 => some (.cvXok e (fmtM w))
  | 0x36 => some (.cvXldl e (fmtM w))
  | 0x38 => some (.cvIntg e (fmtR w))
  | 0x39 => some (.cvLim e (fmtR w))
  | 0x3A => some (.cvBump e (fmtR w))
  | 0x3B => some (.cvBumpo e (fmtR w))
  | 0x3C => some (.cvPost e (fmtM w))
  | 0x3D => some (.cvPublish e (fmtR w))
  | 0x3E => some (.cvCommit e (fmtR w))
  | _ => none

/-! ### Registers, predicates and lane memory -/

def Engine.vget (e : Engine) (j r : Nat) : W32 := Tbl.get 0 e.regs (32 * j + r)
/-- Write a register; there is no register past v31. -/
def Engine.vset (e : Engine) (j r : Nat) (v : W32) : Engine :=
  if r < 32 then { e with regs := Tbl.set 0 e.regs (32 * j + r) v } else e

/-- Read a predicate: p0 is 1, p6 is LANE_INFO.FRESH, p7 is LANE_INFO.LIVE (R209). -/
def Engine.pget (e : Engine) (j p : Nat) : Bool :=
  match p with
  | 0 => true
  | 6 => bit (e.mget j 36) 10
  | 7 => bit (e.mget j 36) 9
  | _ => Tbl.get false e.preds (8 * j + p)

/-- Write a predicate; p0, p6 and p7 are fixed. -/
def Engine.pset (e : Engine) (j p : Nat) (v : Bool) : Engine :=
  if p = 0 ∨ p = 6 ∨ p = 7 then e else { e with preds := Tbl.set false e.preds (8 * j + p) v }

/-- Whether an instruction is enabled in a lane (R214). -/
def Engine.enabled (e : Engine) (pred : Nat) (pinv : Bool) (j : Nat) : Bool := e.pget j pred != pinv

/-- The active and the standby bank. -/
def Engine.bank (e : Engine) : Bank := if e.activeB then e.bankB else e.bankA
def Engine.standby (e : Engine) : Bank := if e.activeB then e.bankA else e.bankB

/-- A law of a bank by its LAW_ID. -/
def Bank.law (k : Bank) (id : Nat) : Option Law := k.laws.find? fun l => l.id == id

/-- The law whose section runs. -/
def Engine.runLaw (e : Engine) : Option Law :=
  match e.sect with
  | .shadow => e.shadowLaw.bind e.bank.law
  | _ => e.law.bind e.bank.law

/-- The output integrator `k` is bound to (R215). -/
def Engine.bound (e : Engine) (k : Nat) : Option Nat :=
  match e.runLaw with
  | some l => if l.bindEn.testBit k then some (l.bind.getD k 0) else none
  | none => none

/-- HO_PHASE of the running section (Table 6-3): track for a shadow, none for the tail. -/
def Engine.phase (e : Engine) : Nat :=
  match e.sect with
  | .active => e.hoPhase
  | .shadow => 1
  | _ => 0

/-! Words of integrator `k` and output `o` (Table 6-2). -/
def wState (k : Nat) : Nat := 40 + 3 * k
def wLo (k : Nat) : Nat := 41 + 3 * k
def wHi (k : Nat) : Nat := 42 + 3 * k
def wValue (o : Nat) : Nat := 88 + 4 * o
def wOLo (o : Nat) : Nat := 89 + 4 * o
def wOHi (o : Nat) : Nat := 90 + 4 * o
def wRamp (o : Nat) : Nat := 91 + 4 * o
def wRun (o : Nat) : Nat := 152 + o

/-- SAT_DIR and RAMP_LEFT of OUT_RUN (Table 6-4). -/
def Engine.satDir (e : Engine) (j o : Nat) : Nat := bits (e.mget j (wRun o)) 15 14
def Engine.satRun (e : Engine) (j o : Nat) : Nat := bits (e.mget j (wRun o)) 31 16
def Engine.setRunField (e : Engine) (j o hi lo v : Nat) : Engine :=
  e.mset j (wRun o) (setBits (e.mget j (wRun o)) hi lo v)

/-- The lane counts toward EV_CARVE_NAN (R220). -/
def Engine.nanLane (e : Engine) (j : Nat) : Engine := { e with nanLanes := e.nanLanes ||| (1 <<< j) }

/-- First word and length of the section that runs (Tables 6-11 and 6-12). -/
def Engine.span (e : Engine) : Option (Nat × Nat) :=
  match e.sect with
  | .idle => none
  | .tail => some (e.bank.tailStart, e.bank.tailLen)
  | _ => e.runLaw.map fun l => (l.start, l.len)

/-- The word that the section issues next; none at its end, and between sections. -/
def Engine.codeWord (e : Engine) : Option W32 :=
  match e.span with
  | some (st, n) => if e.pos < n then some (Tbl.get 0 e.bank.words (st + e.pos)) else none
  | none => none

/-- Cycles of an engine's window (Table 6-1). -/
def windowCycles (e : Nat) : Nat := if e < 256 then 640 else 480

/-- The instruction that engine `e` issues next: in its window, in a section of its program (R205, R232), with SYS in
lock (R38). -/
def nextInsn (b : Block) (e : Fin 272) : Option Instr :=
  let g := engine b e.val
  if g.running && !b.prot.sysOut && !b.prot.summitReset && decide (g.cyc < windowCycles e.val) then g.codeWord.bind (insnOf e)
  else none

/-- Issue of an instruction: its first cycle, the cycles it takes (R213), the next word. -/
def Engine.issue (e : Engine) (cost : Nat) : Engine :=
  { e with lastIssue := some e.cyc, cyc := e.cyc + cost, pos := e.pos + 1 }

/-- A row of Table 6-6 acts when it is the instruction that the engine's program issues next. -/
def whenNext (i : Instr) (e : Fin 272) (f : Block → Block) (s : State) : Host.Outcome State Fault Refusal :=
  s.act fun b => if nextInsn b e = some i then f b else b

/-- Run `op` in every enabled lane; `op` gets the engine as it stood when the instruction issued. -/
def overLanes (pred : Nat) (pinv : Bool) (op : Engine → Nat → Engine → Engine) (e : Engine) : Engine :=
  ((List.range 8).filter (e.enabled pred pinv)).foldl (fun acc j => op e j acc) e

/-- A format R instruction of engine `e`: `i` is the row it runs. -/
def runR (i : Instr) (e : Fin 272) (f : FmtR) (cost : Nat) (op : Engine → Nat → Engine → Engine) (s : State) :
    Host.Outcome State Fault Refusal :=
  whenNext i e (onEngine e.val fun g => (overLanes f.pred.val f.pinv op g).issue cost) s

/-- A format M instruction of engine `e`. -/
def runM (i : Instr) (e : Fin 272) (f : FmtM) (cost : Nat) (op : Engine → Nat → Engine → Engine) (s : State) :
    Host.Outcome State Fault Refusal :=
  whenNext i e (onEngine e.val fun g => (overLanes f.pred.val f.pinv op g).issue cost) s

/-- vD = g(vA, vB). -/
def binOp (i : Instr) (e : Fin 272) (f : FmtR) (cost : Nat) (g : W32 → W32 → W32) (s : State) :
    Host.Outcome State Fault Refusal :=
  runR i e f cost (fun e0 j acc => acc.vset j f.d.val (g (e0.vget j f.a.val) (e0.vget j f.b.val))) s

/-- vD = g(vA). -/
def unOp (i : Instr) (e : Fin 272) (f : FmtR) (cost : Nat) (g : W32 → W32) (s : State) : Host.Outcome State Fault Refusal :=
  runR i e f cost (fun e0 j acc => acc.vset j f.d.val (g (e0.vget j f.a.val))) s

/-- pD = c(vA, vB); D[2:0] names pD. -/
def cmpOp (i : Instr) (e : Fin 272) (f : FmtR) (c : W32 → W32 → Bool) (s : State) : Host.Outcome State Fault Refusal :=
  runR i e f 1 (fun e0 j acc => acc.pset j (f.d.val % 8) (c (e0.vget j f.a.val) (e0.vget j f.b.val))) s

/-- pD = c(pA, pB). -/
def predOp (i : Instr) (e : Fin 272) (f : FmtR) (c : Bool → Bool → Bool) (s : State) : Host.Outcome State Fault Refusal :=
  runR i e f 1 (fun e0 j acc => acc.pset j (f.d.val % 8) (c (e0.pget j (f.a.val % 8)) (e0.pget j (f.b.val % 8)))) s

/-- A value formed from vA over the enabled lanes in lane order, written in every enabled lane. -/
def acrossOp (i : Instr) (e : Fin 272) (f : FmtR) (cost : Nat) (g : List W32 → W32) (s : State) :
    Host.Outcome State Fault Refusal :=
  runR i e f cost (fun e0 j acc => acc.vset j f.d.val
    (g (((List.range 8).filter (e0.enabled f.pred.val f.pinv)).map fun k => e0.vget k f.a.val))) s

end Sys2Proof.Machine
end

