-- ==== Sys2Proof/Machine/Flags.lean ====
section
/-! DEFINITION. The computed flags of the Carve engines: the integer conditions of ICMP and UCMP, saturation
(SAT_DIR of LIM, R217), SAT_RUN and its events (R218, R220), the ramps (R243) and the freshness flag of XOK (R225). -/

namespace Sys2Proof.Machine

/-- A condition code of ICMP and UCMP over integers; 6 and 7 are false. -/
def icond (c : Nat) (x y : Int) : Bool :=
  match c with
  | 0 => x == y
  | 1 => x != y
  | 2 => x < y
  | 3 => x ≤ y
  | 4 => y < x
  | 5 => y ≤ x
  | _ => false

/-- Age of a mirrored word in strides, saturating at 255 (R225). -/
def ageOf (b : Block) (a : Aged) : Nat :=
  match a.at? with
  | some t => if m64 (work b + 2 ^ 64 - t) ≤ 255 then m64 (work b + 2 ^ 64 - t) else 255
  | none => 255

/-- One INTG in a lane (R216). -/
def intgLane (k : Nat) (a : W32) (e0 : Engine) (j : Nat) (acc : Engine) : Engine :=
  if fIsNaN a then acc.nanLane j
  else
    let frozen := match e0.bound k with
      | some o => (e0.satDir j o == 1 && flt 0 a) || (e0.satDir j o == 3 && flt a 0)
      | none => false
    if frozen then acc
    else acc.mset j (wState k) (fclamp (e0.mget j (wLo k)) (e0.mget j (wHi k)) (fadd (e0.mget j (wState k)) a))

/-- One LIM in a lane (R217): VALUE, SAT_DIR and vD. -/
def limLane (o d : Nat) (a : W32) (e0 : Engine) (j : Nat) (acc : Engine) : Engine :=
  if fIsNaN a then (acc.vset j d (e0.mget j (wValue o))).nanLane j
  else
    let lo := e0.mget j (wOLo o)
    let hi := e0.mget j (wOHi o)
    let y0 := fadd a (e0.mget j (wRamp o))
    let inv := flt hi lo
    let dir := if inv || flt hi y0 then 1 else if flt y0 lo then 3 else 0
    let v := if inv then lo else fclamp lo hi y0
    let acc := ((acc.mset j (wValue o) v).vset j d v).setRunField j o 15 14 dir
    { acc with limRan := Tbl.set false acc.limRan (16 * j + o) true }

/-- One BUMP in a lane (R240, Table 6-14). -/
def bumpLane (ramp : Nat) (k pair : Nat) (rest : W32) (e0 : Engine) (j : Nat) (acc : Engine) : Engine :=
  let df := fsub (e0.mget j (wValue pair)) rest
  let st := fclamp (e0.mget j (wLo k)) (e0.mget j (wHi k)) df
  match e0.phase with
  | 0 => acc
  | 1 => if fIsNaN df then acc.nanLane j else acc.mset j (wState k) st
  | _ =>
    if fIsNaN df then acc.nanLane j
    else
      let dl := fsub df st
      let acc := acc.mset j (wState k) st
      match e0.bound k with
      | none => acc
      | some o =>
        let acc := (acc.mset j (wRamp o) dl).setRunField j o 13 0 (if fIsZero dl then 0 else ramp)
        { acc with maxDelta := fmax acc.maxDelta (fabs dl) }

/-- One BUMPO in a lane (R240). -/
def bumpoLane (ramp : Nat) (own pair : Nat) (rest : W32) (e0 : Engine) (j : Nat) (acc : Engine) : Engine :=
  if e0.phase ≠ 2 then acc
  else
    let df := fsub (e0.mget j (wValue pair)) rest
    let bare := fsub (e0.mget j (wValue own)) (e0.mget j (wRamp own))
    if fIsNaN df || fIsNaN bare then acc.nanLane j
    else
      let dl := fsub df bare
      let acc := (acc.mset j (wRamp own) dl).setRunField j own 13 0 ramp
      { acc with maxDelta := fmax acc.maxDelta (fabs dl) }

/-- OUT_MASK of the active law. -/
def Engine.outMask (e : Engine) : Nat :=
  match e.law.bind e.bank.law with
  | some l => l.outMask
  | none => 0

/-- SAT_RUN of output `o` in lane `j` after a delivered stride (R218). -/
def nextSatRun (e : Engine) (j o : Nat) : Nat :=
  if !e.outMask.testBit o then 0
  else if !e.pget j 7 || !Tbl.get false e.limRan (16 * j + o) then e.satRun j o
  else if e.satDir j o = 0 then 0
  else satInc 65535 (e.satRun j o)

/-- SAT_RUN of every output and lane (R218). -/
def updateSatRuns (e : Engine) : Engine :=
  (List.range 128).foldl (fun acc i =>
    if acc.satRun (i / 16) (i % 16) = nextSatRun e (i / 16) (i % 16) then acc
    else acc.setRunField (i / 16) (i % 16) 31 16 (nextSatRun e (i / 16) (i % 16))) e

/-- One step of every ramp (R243). -/
def decayRamps (e : Engine) : Engine :=
  (List.range 128).foldl (fun acc i =>
    let j := i / 16
    let o := i % 16
    let n := bits (acc.mget j (wRun o)) 13 0
    if n = 0 then acc
    else (acc.mset j (wRamp o) (fdiv (fmul (acc.mget j (wRamp o)) (ofNatF (n - 1))) (ofNatF n))).setRunField j o 13 0 (n - 1)) e

/-- SUP_CFG[o] of engine `en`. -/
def supCfg (b : Block) (en o : Nat) : W32 := cfgW b 0x09 en (1 + o)

/-- The lanes whose SAT_RUN has just become `n` (n ≠ 0). -/
def lanesReaching (old new : Engine) (o n : Nat) : Nat :=
  if n = 0 then 0 else bitmapOf ((List.range 8).filter fun j => new.satRun j o == n && old.satRun j o != n)

/-- The saturation events of a delivered stride (R220). -/
def satEvents (en : Nat) (old new : Engine) (b : Block) : Block :=
  (List.range 16).foldl (fun b o =>
    let c := supCfg b en o
    let m1 := lanesReaching old new o (bits c 31 18)
    let m2 := lanesReaching old new o (bits c 17 4)
    let b := if m1 = 0 then b else raise .carveSat (w64 (work b) ++ [w32 en, w32 o, w32 m1]) b
    if m2 = 0 then b else raise .carveSatFault (w64 (work b) ++ [w32 en, w32 o, w32 m2]) b) b

/-- Whether a lane of engine `en` holds an output at or above FAULT_N with the ACTION given (R221). -/
def satFault (b : Block) (en action : Nat) (j : Nat) : Bool :=
  (List.range 16).any fun o =>
    let c := supCfg b en o
    bits c 17 4 != 0 && bits c 3 2 == action && decide (bits c 17 4 ≤ (engine b en).satRun j o)

/-- EV_CARVE_NAN at most once per 1,000 strides per engine (R220). -/
def nanEvent (en : Nat) (b : Block) : Block :=
  let e := engine b en
  let due : Bool := match e.nanStride with
    | some t => decide (1000 ≤ m64 (work b + 2 ^ 64 - t))
    | none => true
  if e.nanLanes ≠ 0 ∧ due then
    raise .carveNan [w32 en, w32 e.nanLanes] (onEngine en (fun e => { e with nanStride := some (work b) }) b)
  else b

end Sys2Proof.Machine
end

