-- ==== Sys2Proof/Machine/CarveImage.lean ====
section
/-! DEFINITION. The Carve section of an image (R231) and its admission by the loader (R66, R213, R232, R233, R236). -/

namespace Sys2Proof.Machine

/-- Cycles of an operation (Table 6-6); none: the OP is not in the table. -/
def opCycles (op : Nat) : Option Nat :=
  if op ≤ 0x08 then some (if op = 4 then 2 else 1)
  else if op = 0x09 then some 4
  else if op = 0x0A then some 6
  else if op = 0x0B then some 1
  else if 0x10 ≤ op ∧ op ≤ 0x1B then some (if op = 0x14 then 2 else 1)
  else if op = 0x20 ∨ op = 0x21 then some 1
  else if op = 0x22 then some 6
  else if op = 0x23 then some 8
  else if 0x28 ≤ op ∧ op ≤ 0x2B then some 1
  else if op = 0x2C then some 3
  else if op = 0x2D ∨ op = 0x2E then some 2
  else if op = 0x2F then some 1
  else if 0x31 ≤ op ∧ op ≤ 0x36 then some 1
  else if op = 0x38 then some 1
  else if 0x39 ≤ op ∧ op ≤ 0x3B then some 2
  else if 0x3C ≤ op ∧ op ≤ 0x3E then some 1
  else none

/-- Header fields of Table 6-11. -/
def cKind (l : List W32) : Nat := bits (word l 0) 31 24
def cLaws (l : List W32) : Nat := bits (word l 0) 15 8
def cCode (l : List W32) : Nat := bits (word l 1) 31 21
def cConst (l : List W32) : Nat := bits (word l 1) 20 10
def cInit (l : List W32) : Bool := bit (word l 3) 31

/-- Law entry `i` (Table 6-12). -/
def lawOf (l : List W32) (i : Nat) : Law :=
  let w := fun k => word l (8 + 6 * i + k)
  { id := bits (w 0) 31 28, modes := bits (w 0) 27 20, fromMask := bits (w 0) 19 12
    start := bits (w 1) 31 21, len := bits (w 1) 20 10, cycles := bits (w 1) 9 0
    integMask := bits (w 2) 31 16, outMask := bits (w 2) 15 0
    bind := (List.range 16).map fun k => bits (w (3 + k / 8)) (4 * (k % 8) + 3) (4 * (k % 8))
    bindEn := bits (w 5) 31 16 }

/-- The bank an image section fills. -/
def bankOf (l : List W32) (meas : List W32) : Bank :=
  let n := cLaws l
  let body := (l.drop (8 + 6 * n)).take (cCode l + cConst l)
  { words := Tbl.setRange 0 [] 0 body
    valid := true, summit := cKind l == 2, codeLen := cCode l, constLen := cConst l
    tailStart := bits (word l 2) 31 21, tailLen := bits (word l 2) 20 10, tailCycles := bits (word l 2) 9 0
    laws := (List.range n).map (lawOf l)
    init := if cInit l then some ((l.drop (8 + 6 * n + cCode l + cConst l)).take 216) else none
    meas := meas }

/-- Words `start` to `start + len − 1` of a bank. -/
def codeAt (k : Bank) (start len : Nat) : List W32 := Tbl.range 0 k.words start len

/-- Reserved bits, ranges and length of the section (Tables 6-11 and 6-12). -/
def cRanges (l : List W32) : Bool :=
  bits (word l 0) 7 0 == 0 && bits (word l 0) 23 16 == 1 && decide (1 ≤ cLaws l ∧ cLaws l ≤ 8)
  && bits (word l 1) 9 0 == 0 && decide (1 ≤ cCode l ∧ cCode l ≤ 1024) && decide (cCode l + cConst l ≤ 1024)
  && decide (1 ≤ bits (word l 2) 20 10 ∧ bits (word l 2) 20 10 ≤ 1024) && decide (bits (word l 2) 31 21 ≤ 1023)
  && decide (1 ≤ bits (word l 2) 9 0) && bits (word l 3) 30 0 == 0
  && ([4, 5, 6, 7].all fun k => word l k == 0)
  && ((List.range (cLaws l)).all fun i =>
      let w := fun k => word l (8 + 6 * i + k)
      decide (bits (w 0) 31 28 ≤ 7) && bits (w 0) 11 0 == 0 && decide (bits (w 1) 31 21 ≤ 1023)
      && decide (1 ≤ bits (w 1) 20 10 ∧ bits (w 1) 20 10 ≤ 1024) && decide (1 ≤ bits (w 1) 9 0) && bits (w 5) 15 0 == 0)
  && l.length == 8 + 6 * cLaws l + cCode l + cConst l + (if cInit l then 216 else 0)

/-- Sections of a bank as (start, length): the laws, then the tail. -/
def sections (k : Bank) : List (Nat × Nat) := k.laws.map (fun x => (x.start, x.len)) ++ [(k.tailStart, k.tailLen)]

/-- No two of a list of spans meet. -/
def spansApart : List (Nat × Nat) → Bool
  | [] => true
  | (s, n) :: t => (t.all fun x => decide (s + n ≤ x.1) || decide (x.1 + x.2 ≤ s)) && spansApart t

/-- No repeats. -/
def allDistinct : List Nat → Bool
  | [] => true
  | x :: t => !t.contains x && allDistinct t

/-- Each mode is set in exactly one law. -/
def modesOnce (k : Bank) : Bool := (List.range 8).all fun m => (k.laws.filter fun x => x.modes.testBit m).length == 1

/-- The integrator that lane-memory word `w` belongs to, or the output. -/
def integOf (w : Nat) : Option Nat := if 40 ≤ w ∧ w ≤ 87 then some ((w - 40) / 3) else none
def outOf (w : Nat) : Option Nat := if 88 ≤ w ∧ w ≤ 151 then some ((w - 88) / 4) else none

/-- A word that ST may not name (R233). -/
def stBad (summit : Bool) (w : Nat) : Bool :=
  decide (255 < w) || (!summit && decide (w ≤ 11)) || (decide (24 ≤ w) && decide (w ≤ 39))
  || (decide (152 ≤ w) && decide (w ≤ 167)) || ((outOf w).isSome && (w % 4 == 0 || w % 4 == 3))

/-- One instruction word of a law (its masks), or of the tail (none), as the loader judges it (R233). -/
def insnOk (k : Bank) (masks : Option (Nat × Nat)) (w : W32) : Bool :=
  let op := iOp w
  let integ := fun n => match masks with
    | some m => m.1.testBit n
    | none => false
  let out := fun n => match masks with
    | some m => m.2.testBit n
    | none => false
  (opCycles op).isSome
  && (if op = 0x0B ∨ op = 0x1A ∨ op = 0x1B ∨ op = 0x29 ∨ op = 0x2A ∨ op = 0x2B ∨ op = 0x35 then
        iD w % 8 != 0 && iD w % 8 != 6 && iD w % 8 != 7 else true)
  && (if op = 0x22 then decide (iD w ≤ 30) else true)
  && (if op = 0x3C then k.summit && decide (iImm w + 7 * (if iX w % 2 = 0 then 1 else 8) ≤ 79) else true)
  && (if op = 0x33 then decide (k.codeLen ≤ iImm w) && decide (iImm w < k.codeLen + k.constLen) else true)
  && (if op = 0x36 then decide (iImm w ≤ 1016) else true)
  && (if op = 0x31 then decide (iImm w ≤ 255) else true)
  && (if op = 0x32 then
        !stBad k.summit (iImm w)
        && (match integOf (iImm w) with
          | some n => integ n
          | none => true)
        && (match outOf (iImm w) with
          | some n => out n
          | none => true) else true)
  && (if op = 0x38 ∨ op = 0x3A then integ (iD w % 16) else true)
  && (if op = 0x39 then out (iX w % 16) else true)
  && (if op = 0x3B then out (iB w % 16) else true)

/-- COMMIT of a squad image, PUBLISH of a summit image. -/
def deliverOp (k : Bank) : Nat := if k.summit then 0x3D else 0x3E

/-- The code of a law: no COMMIT and no PUBLISH, BIND within OUT_MASK. -/
def lawOk (k : Bank) (x : Law) : Bool :=
  ((codeAt k x.start x.len).all fun w => insnOk k (some (x.integMask, x.outMask)) w && iOp w != 0x3D && iOp w != 0x3E)
  && ((List.range 16).all fun n => !x.bindEn.testBit n || x.outMask.testBit (x.bind.getD n 0))

/-- The code of the tail: its delivery once, as its last word. -/
def tailOk (k : Bank) : Bool :=
  let c := codeAt k k.tailStart k.tailLen
  (c.all fun w => insnOk k none w)
  && (c.filter fun w => iOp w == 0x3D || iOp w == 0x3E).length == 1
  && iOp (word c (c.length - 1)) == deliverOp k

/-- Every code word, in a section or not, is in Table 6-6 and meets the rules of a word; no mask binds one outside the laws. -/
def codeOk (k : Bank) : Bool := (codeAt k 0 k.codeLen).all (insnOk k (some (0xFFFF, 0xFFFF)))

/-- Words a law writes by ST that two laws may not share. -/
def sharedWrites (k : Bank) (x : Law) : List Nat :=
  ((codeAt k x.start x.len).filter fun w => iOp w == 0x32).map iImm |>.filter fun w =>
    decide (168 ≤ w) || (k.summit && decide (w ≤ 35))

/-- Law b may shadow law a. -/
def pairOk (k : Bank) (a b : Law) : Bool :=
  !b.fromMask.testBit a.id ||
    (a.integMask &&& b.integMask == 0 && a.outMask &&& b.outMask == 0
      && (sharedWrites k b).all fun w => !(sharedWrites k a).contains w)

/-- Cycles of a section by recount. -/
def recount (k : Bank) (start len : Nat) : Nat := ((codeAt k start len).map fun w => (opCycles (iOp w)).getD 0).foldl (· + ·) 0

/-- Cycle limit of the role (R66). -/
def cycleLimit (k : Bank) : Nat := if k.summit then 480 else 640

/-- Declared cycles and the counts of R232. -/
def cyclesOk (k : Bank) : Bool :=
  (k.laws.all fun x => recount k x.start x.len == x.cycles && decide (2 + x.cycles + k.tailCycles ≤ cycleLimit k))
  && recount k k.tailStart k.tailLen == k.tailCycles
  && (k.laws.all fun b => k.laws.all fun a => !b.fromMask.testBit a.id
      || decide (3 + a.cycles + b.cycles + k.tailCycles ≤ cycleLimit k))

/-- INIT words over VALUE, RAMP and OUT_RUN are zero (R236). -/
def initOk (k : Bank) : Bool :=
  match k.init with
  | none => true
  | some l => ((List.range 16).all fun o => word l (48 + 4 * o) == 0 && word l (51 + 4 * o) == 0)
      && ((List.range 16).all fun o => word l (112 + o) == 0)

/-- The status with which the loader refuses a Carve section (R233); `role`: summit or squad target, if one is named. -/
def carveRefused (role : Option Bool) (l : List W32) : Option Status :=
  let k := bankOf l []
  if cKind l = 0 ∨ 2 < cKind l then some .imageBad
  else if role ≠ none ∧ role ≠ some k.summit then some .kindMismatch
  else if !cRanges l then some .imageBad
  else if !((sections k).all fun s => decide (s.1 + s.2 ≤ k.codeLen)) || !spansApart (sections k)
      || !allDistinct (k.laws.map Law.id) || !modesOnce k then some .imageBad
  else if !codeOk k || !(k.laws.all (lawOk k)) || !tailOk k || !initOk k then some .imageBad
  else if k.laws.any fun x => x.fromMask.testBit x.id then some .imageBad
  else if !(k.laws.all fun b => k.laws.all fun a => pairOk k a b) then some .imageBad
  else if !cyclesOk k then some .cyclesExceeded
  else none

/-- Mirror words an image reads by XLD, XOK and XLDL (R227). -/
def mirrorReads (k : Bank) : List Nat :=
  ((sections k).flatMap fun s => codeAt k s.1 s.2).flatMap fun w =>
    match iOp w with
    | 0x34 | 0x35 => [iImm w]
    | 0x36 => (List.range 8).map (iImm w + ·)
    | _ => []

end Sys2Proof.Machine
end

