-- ==== Sys2Proof/Machine/Engines.lean ====
section
/-! DEFINITION. The Carve engines in a stride (chapter 6): mirror and freeze, the windows and sections, hand-over between
laws, delivery, deadline misses and memory errors, limb partials and references on the fabric (R31 to R33, R603). -/

namespace Sys2Proof.Machine

/-! ### The mirror (R32, R223 to R225) -/

/-- SUB[m] of an engine: subscribed, EXCH_ID. -/
def subEn (b : Block) (e m : Nat) : Bool := cfgBit b 0x09 e (17 + m) 0
def subId (b : Block) (e m : Nat) : Nat := cfgN b 0x09 e (17 + m) 29 16

/-- Background variables whose producer writes them within the stride: seen from the next freeze (R224). -/
def lateVar (id : Nat) : Bool := (decide (0x900 ≤ id) && decide (id < 0x960)) || (decide (0xC00 ≤ id) && decide (id < 0xCC0))

/-- The value a mirror word holds at a freeze of this stride (R224). -/
def mirrorValue (b : Block) (id : Nat) : Aged :=
  let x := Tbl.get {} b.fab.xvars id
  if lateVar id && x.cur.at? == some (work b) then x.prev else x.cur

/-- The fabric brings one subscribed word of the back copy up to date. -/
def mirrorFill (e m : Nat) (b : Block) : Block :=
  if subEn b e m then
    onEngine e (fun (g : Engine) => { g with mirBack := Tbl.set {} g.mirBack m (mirrorValue b (subId b e m)) }) b
  else b

/-- The freeze: every subscribed word goes from the back copy to the front copy (R223). -/
def mirrorFreeze (e : Nat) (b : Block) : Block :=
  let subs := (List.range 1024).filter (subEn b e)
  let b := subs.foldl (fun (b : Block) m => mirrorFill e m b) b
  onEngine e (fun (g : Engine) => { g with
    mirFront := subs.foldl (fun (t : Tbl Aged) m => Tbl.set {} t m (Tbl.get {} g.mirBack m)) g.mirFront }) b

def execMirrorFreeze (engine : Fin 272) (s : State) : Host.Outcome State Fault Refusal :=
  s.act (mirrorFreeze engine.val)

/-- Weight of a fabric user (R32). -/
def fabWeight (f : Fabric) (u : Nat) : Nat :=
  match u with
  | 0 => f.wCoach
  | 1 => f.wLedger
  | 2 => f.wSnapshot
  | _ => f.wCarve

/-- The host's weights (R32, Table 1-9). -/
def setWeights (w : Weights) (f : Fabric) : Fabric :=
  { f with
    wCoach := w.coach.val + 1, wLedger := w.ledger.val + 1, wSnapshot := w.snapshot.val + 1, wCarve := w.carve.val + 1
    ddr := { f.ddr with
      wLedger := w.ddrLedger.val + 1, wSnapshot := w.ddrSnapshot.val + 1, wDma := w.ddrDma.val + 1, wCoach := w.ddrCoach.val + 1 } }

/-- The next user of the weighted round robin among those that ask; `fuel` bounds the turns looked at. -/
def fabPick (asks : Nat → Bool) : Nat → Fabric → Fabric
  | 0, f => { f with served := none }
  | n + 1, f =>
    if asks f.turn && f.left != 0 then { f with served := some f.turn, left := f.left - 1 }
    else
      let t := (f.turn + 1) % 4
      fabPick asks n { f with turn := t, left := fabWeight f t }

/-- One background cycle of the fabric (R32): it serves one user; a read of the engines refreshes a mirror word. New
weights count from this cycle. -/
def fabricCycle (coach ledger snapshot : Bool) (carve : Option (Fin 272 × Fin 1024)) (weights : Option Weights) (b : Block) :
    Block :=
  let b := match weights with
    | some w => { b with fab := setWeights w b.fab }
    | none => b
  let asks : Nat → Bool := fun u => match u with
    | 0 => coach
    | 1 => ledger
    | 2 => snapshot
    | _ => carve.isSome
  let b := { b with fab := fabPick asks 5 b.fab }
  match carve with
  | some (e, m) => if b.fab.served = some 3 then mirrorFill e.val m.val b else b
  | none => b

def execFabricBackgroundCycle (coach ledger snapshot : Bool) (carve : Option (Fin 272 × Fin 1024)) (weights : Option Weights)
    (s : State) : Host.Outcome State Fault Refusal :=
  s.act (fabricCycle coach ledger snapshot carve weights)

/-! ### Windows and sections (R209, R232, R236, R239, R242) -/

/-- The law of a bank that is active in a mode. -/
def lawFor (k : Bank) (m : Mode) : Option Law := k.laws.find? fun l => l.modes.testBit m.code

/-- A mode request known in advance that switches at B, accepted in stride `since`, within its track strides (R239). -/
def inTrack (b : Block) (B since : Nat) : Bool :=
  decide (B ≤ work b + cfgN b 0x0A 0 0 31 24) && decide (since + 1 ≤ work b) && decide (work b + 1 ≤ B)

/-- A request for this mode switches at its own boundary: one for SAFE does so in SERVICE alone, for elsewhere it starts a
stop whose end is a forced entry (R242, R292, Table 8-3). -/
def switchesAtB (b : Block) (m : Mode) : Bool := m != .safe || b.md.mode == .service

/-- The mode whose law tracks as shadow: that of a pending request, known to a partner by its mirrored command, or
PREV_MODE in a return from COAST (R239, R313). -/
def tracked (b : Block) : Option Mode :=
  let asked : Option Mode :=
    if isPartner b then
      b.pair.cmds.findSome? fun c =>
        let m := Mode.ofCode (bits (word c.2.2 0) 31 29)
        if c.2.1 = 0x0201 ∧ inTrack b c.1 (join64 (word c.2.2 1) (word c.2.2 2)) ∧ switchesAtB b m then some m else none
    else
      b.host.actions.findSome? fun a => match a.kind with
        | .mode m _ => if inTrack b a.boundary a.since ∧ switchesAtB b m then some m else none
        | _ => none
  match b.md.returnAt with
  | some t => if work b < t then some b.md.prev else asked
  | none => asked

/-- An engine that does not run in this stride: no section, no shadow law. -/
def Engine.rest (g : Engine) : Engine := { g with running := false, delivered := false, sect := .idle, shadowLaw := none, undo := none }

/-- Start of an engine's window: the law of the mode in force, and the shadow law of a mode change that is known. `ramp`:
RAMP_STRIDES for a hand-over that switches now (R238). The track count starts anew with another shadow law. -/
def Engine.open (m : Mode) (next : Option Mode) (ramp : Nat) (g : Engine) : Engine :=
  if g.failed ∨ !g.bank.valid then g.rest
  else
    let new := (lawFor g.bank m).map Law.id
    let switch := g.law.isSome && g.law != new
    let g := { g with
      running := true, delivered := false, sect := .idle, cyc := 0, pos := 0, lastIssue := none, limRan := [], nanLanes := 0
      maxDelta := 0, undo := none
      ramp := if switch || g.law.isNone then ramp else g.ramp
      lastLaw := if switch then g.law else g.lastLaw
      hoPhase := if switch then 2 else g.hoPhase
      trackRun := if switch && g.shadowLaw != new then 0 else g.trackRun
      law := new }
    let shadow := (next.bind (lawFor g.bank)).bind fun (l : Law) =>
      match new with
      | some a => if l.id ≠ a ∧ l.fromMask.testBit a then some l.id else none
      | none => none
    { g with
      shadowLaw := shadow
      trackRun := if (shadow.isNone && !switch && g.hoPhase != 2) || (shadow.isSome && shadow != g.shadowLaw) then 0 else g.trackRun }

/-- The windows of the engines from `lo` open; in roles that do no work nothing runs, and without SYS there is no window. -/
def openWindow (lo n : Nat) (b : Block) : Block :=
  if !sysRuns b then b
  else
    let f := if computes b then Engine.open b.md.mode (tracked b) b.fab.rampWas else Engine.rest
    (List.range n).foldl (fun (b : Block) i => onEngine (lo + i) f b) { b with fab.opened := some (work b) }

def execSummitWindowStart (s : State) : Host.Outcome State Fault Refusal := s.act (openWindow 256 16)
def execSquadWindowStart (s : State) : Host.Outcome State Fault Refusal := s.act (openWindow 0 256)

/-- The section that follows. -/
def Engine.nextSection (g : Engine) : Section :=
  match g.sect with
  | .idle => .active
  | .active => if g.shadowLaw.isSome then .shadow else .tail
  | .shadow => .tail
  | .tail => .idle

/-- LANE_INFO of lane j of engine `e` (Table 6-3). -/
def laneInfo (b : Block) (e : Nat) (g : Engine) (j : Nat) : W32 :=
  let h := hub b (8 * e + j)
  let squad := decide (e < 256)
  pack [fld (work b % 65536) 31 16, fld b.md.mode.code 15 13, fld g.phase 12 11
        , flg (!squad || (!h.stale && h.recAt == some (work b))) 10
        , flg (!squad || h.slot == .active || h.slot == .integrating) 9, fld j 8 6]

/-- One sequencer cycle before a section, once the section before has issued its last word: registers and p1 to p5 zero,
LANE_INFO written (R207, R209, R232). -/
def sectionStart (e : Nat) (b : Block) : Block :=
  let g := engine b e
  if !g.running ∨ g.sect = .tail ∨ g.codeWord.isSome ∨ !sysRuns b then b
  else
    onEngine e (fun (g : Engine) =>
      let g := { g with sect := g.nextSection, regs := [], preds := [], cyc := g.cyc + 1, pos := 0 }
      let g := { g with trackRun := if g.sect = .shadow then g.trackRun + 1 else g.trackRun }
      (List.range 8).foldl (fun (g : Engine) j => g.mset j 36 (laneInfo b e g j)) g) b

def execSectionStart (engine : Fin 272) (s : State) : Host.Outcome State Fault Refusal :=
  s.act (sectionStart engine.val)

/-! ### Misses and memory errors (R68, R69, R245) -/

/-- Cells whose lane slots a miss of engine `e` affects (R68). -/
def affected (b : Block) (e : Nat) : List Nat :=
  if e < 256 then (List.range 8).map (8 * e + ·)
  else if hostsStation b e then List.range 2048
  else (hosted b e).flatMap (limbCells b)

/-- Outputs of the stride are discarded: what a delivery of it changed is put back (R218, R241, R243 to R245). -/
def Engine.discard (g : Engine) : Engine :=
  match g.undo with
  | none => { g with delivered := false }
  | some u => { g with
      delivered := false, undo := none, mem := u.mem, hoPhase := u.hoPhase, trackRun := u.trackRun, maxDelta := u.maxDelta
      lastCycle := u.lastCycle }

/-- A miss with the cycle reached: outputs discarded, NOLIST, EV_DEADLINE_MISS; the second in a row fails the engine. -/
def engineMiss (e cycle : Nat) (b : Block) : Block :=
  let again := (engine b e).missStride == some (m64 (work b + 2 ^ 64 - 1))
  let b := onEngine e (fun (g : Engine) => { g.discard with missStride := some (work b) }) b
  let b := (affected b e).foldl (fun (b : Block) n => nolist n b) b
  let b := raise .deadlineMiss ([w32 e] ++ w64 (work b) ++ [w32 cycle]) { b with pair.localFault := true }
  if again then engineFail e b else b

/-- R68: the engine has not delivered by its last cycle. -/
def deadlineMiss (e : Nat) (b : Block) : Block :=
  let g := engine b e
  if !g.running ∨ g.delivered ∨ g.missStride = some (work b) then b
  else engineMiss e (g.lastIssue.getD 0xFFFF) b

def execDeadlineMiss (engine : Fin 272) (s : State) : Host.Outcome State Fault Refusal :=
  s.act (deadlineMiss engine.val)

/-- R245: an uncorrectable error in the active bank, a lane memory or the mirror during the window. -/
def execEngineEccUncorrectable (engine : Fin 272) (cycle : Fin 640) (s : State) : Host.Outcome State Fault Refusal :=
  s.act fun b =>
    let g := Sys2Proof.Machine.engine b engine.val
    if !g.running ∨ g.missStride = some (work b) then b
    else raise .carveEcc [w32 engine.val] (engineMiss engine.val cycle.val b)

/-- R245: the scrubber corrects and counts; a bad standby bank becomes invalid. `bankBad`: true names bank B. -/
def engineScrub (e corrected : Nat) (bankBad : Option Bool) (b : Block) : Block :=
  let hit : Bool := match bankBad with
    | some bk => bk != (engine b e).activeB
    | none => false
  let b := onEngine e (fun (g : Engine) =>
    let g := { g with eccCe := Nat.min 255 (g.eccCe + corrected) }
    if !hit then g
    else if bankBad = some true then { g with bankB := { g.bankB with valid := false } }
    else { g with bankA := { g.bankA with valid := false } }) b
  if hit then raise .carveEcc [w32 e] b else b

def execEngineScrub (engine : Fin 272) (corrected : Nat) (bankBad : Option Bool) (s : State) :
    Host.Outcome State Fault Refusal :=
  s.act (engineScrub engine.val corrected bankBad)

/-! ### Partials, references, commit (R31, R33, R55, R221, R228, R229, R603) -/

/-- The records of a limb's cells on a chain that are folded in this stride. -/
def foldedCells (b : Block) (p l : Nat) : List Nat :=
  (limbCells b l).filter fun n => n / 64 == p && (hub b n).folded && (hub b n).recAt == some (work b)

/-- The four words of a limb partial (R603). -/
def partialWords (b : Block) (p l : Nat) : List W32 :=
  let c := foldedCells b p l
  ([(31, 28), (27, 24), (23, 20)].map fun f => fsumExact (c.map fun n => recW b n (cfgN b 0x25 l 1 f.1 f.2)))
    ++ [ofNatF c.length]

/-- Squad p posts its limb partials in its closing cycles. -/
def closingRound (p : Nat) (b : Block) : Block :=
  if !computes b then b
  else
    let ls := (chainLimbs b p).take 8
    (List.range ls.length).foldl (fun (b : Block) i => xwrites (32 * p + 4 * i) (partialWords b p (ls.getD i 0)) b) b

def execClosingRoundPost (squad : Fin 32) (s : State) : Host.Outcome State Fault Refusal :=
  s.act (closingRound squad.val)

/-- A lane holds an output at or above FAULT_N with ACTION 1 (R221). -/
def withdrawn (b : Block) (e j : Nat) : Bool := satFault b e 1 j

/-- An engine's outputs of this stride stand. -/
def outputsStand (b : Block) (e : Nat) : Bool :=
  let g := engine b e
  g.running && g.delivered && g.missStride != some (work b)

/-- The reference slots of summit engine 256 + k: post buffer and LIMB_REF of its limbs; then words 0 to 31 are NaN. -/
def referenceSlots (k : Nat) (b : Block) : Block :=
  let e := 256 + k
  if !computes b then b
  else
    let b :=
      if outputsStand b e then
        let post := Tbl.range 0 (engine b e).post 0 80
        let out := (List.range 8).any (withdrawn b e)
        let b := xwrites (0x400 + 80 * k) post b
        let ls := (hosted b e).take 4
        (List.range ls.length).foldl (fun (b : Block) i =>
          let r := (post.drop (8 * i)).take 8
          let r := if out then r.set 3 (setBits (word r 3) 31 30 2) else r
          { b with slal := { b.slal with ref := Tbl.set [] b.slal.ref (ls.getD i 0) r } }) b
      else b
    onEngine e (fun (g : Engine) => { g with post := Tbl.setRange 0 g.post 0 (List.replicate 32 0x7FC00000) }) b

def execReferenceSlots (k : Fin 16) (s : State) : Host.Outcome State Fault Refusal := s.act (referenceSlots k.val)

/-- The committed CELL_CMD records of one squad engine. -/
def commitEngine (e : Nat) (b : Block) : Block :=
  if outputsStand b e then
    let b := (List.range 8).foldl (fun (b : Block) j =>
      let g := engine b e
      let r := (List.range 12).map fun w => g.mget j (12 + w)
      let r := if withdrawn b e j then r.set 0 (setBits (word r 0) 31 28 0) else r
      { b with slal := { b.slal with cmd := Tbl.set [] b.slal.cmd (8 * e + j) r } }) b
    onEngine e (fun (g : Engine) => (List.range 8).foldl (fun (g : Engine) j => g.mset j 12 0) g) b
  else b

/-- Cycle 3,200: the outputs of all squad engines are taken together (R55). -/
def commitTake (b : Block) : Block :=
  if !computes b ∨ !sysRuns b then b
  else (List.range 256).foldl (fun (b : Block) e => commitEngine e b) { b with slal := { b.slal with cmd := [] } }

def execCommitTake (s : State) : Host.Outcome State Fault Refusal := s.act commitTake

/-! ### Banks (R235 to R237) -/

/-- Lane memory from INIT (R236). -/
def initMem (init : List W32) (mem : Tbl W32) : Tbl W32 :=
  (List.range 8).foldl (fun (m : Tbl W32) j =>
    let m := Tbl.setRange 0 m (256 * j + 40) ((List.range 216).map (word init))
    let m := (List.range 16).foldl (fun (m : Tbl W32) o =>
      Tbl.set 0 (Tbl.set 0 m (256 * j + wValue o) 0) (256 * j + wRamp o) 0) m
    Tbl.setRange 0 m (256 * j + 152) (List.replicate 16 0)) mem

/-- An engine starts over as R236 sets out for KEEP_STATE = 0. -/
def Engine.reinit (g : Engine) : Engine :=
  { g with mem := initMem (g.bank.init.getD []) g.mem, law := none, hoPhase := 0, trackRun := 0, shadowLaw := none }

/-- The standby bank becomes active (R235, R237). A miss in the stride before still counts as the first of two (R69). -/
def Engine.swap (keep : Bool) (g : Engine) : Engine :=
  let keep := keep && !g.failed
  let g := { g with activeB := !g.activeB, failed := g.failed && !g.reloaded, missStride := if g.failed then none else g.missStride }
  if keep then { g with lastLaw := g.law, law := none, hoPhase := 2, trackRun := 0, shadowLaw := none } else g.reinit

/-- ENGINE_STATUS (Table 6-16). -/
def engineStatus (b : Block) (e : Nat) : W32 :=
  let g := engine b e
  let st := if g.failed then 2 else if g.bank.valid then 1 else 0
  pack [fld st 31 30, flg g.activeB 29, flg g.standby.valid 28, flg g.shadowLaw.isSome 27, fld (g.law.getD 0) 26 24
        , fld (g.shadowLaw.getD 0) 23 21, fld g.hoPhase 20 19, fld g.lastCycle 18 9, fld g.eccCe 8 1]

end Sys2Proof.Machine
end

