-- ==== Sys2Proof/Machine/Power.lean ====
section
/-! DEFINITION. Declared costs, caps and the shedding ladder (Tables 15-6 and 15-8, R514, R515, R520 to R522). -/

namespace Sys2Proof.Machine

/-! ### The ladder -/

/-- Positions of the ladder: 1 to 4 steps 1 to 4; 5 to 11 the repetitions of step 5; 12 to 14 steps 6 to 8. -/
def shedLast : Nat := 14

/-- The step of Table 15-8 at a position. -/
def shedStep (k : Nat) : Nat := if k ≤ 4 then k else if k ≤ 11 then 5 else k - 6

/-- Rates that Table 14-5 allows, falling; `fifty`: FNOM = 1. -/
def streamRates (fifty classM : Bool) : List Nat :=
  match fifty, classM with
  | true, false => [100, 50, 25, 10]
  | true, true => [50, 25, 10]
  | false, false => [240, 120, 60, 30, 20, 15, 12, 10]
  | false, true => [60, 30, 20, 15, 12, 10]

/-- The rate after `n` lowerings. -/
def lowered (rates : List Nat) (rate n : Nat) : Nat :=
  let l := rates.filter (· ≤ rate)
  l.getD (Nat.min n (l.length - 1)) rate

/-- PMU_STREAM fields: EN, CLASS M, FNOM = 50 Hz, RATE. -/
def pmuEn (b : Block) (k : Nat) : Bool := cfgWritten b 0x1E k && cfgBit b 0x1E k 0 31
def pmuM (b : Block) (k : Nat) : Bool := cfgBit b 0x1E k 0 30
def pmuFifty (b : Block) (k : Nat) : Bool := cfgBit b 0x1E k 0 11

/-- The rate of a stream at a position of the ladder. -/
def rateAt (b : Block) (pos k : Nat) : Nat :=
  lowered (streamRates (pmuFifty b k) (pmuM b k)) (cfgN b 0x1E k 0 29 22) (Nat.min (pos - 4) 7)

/-- The rate at which a stream is sent now. -/
def streamRate (b : Block) (k : Nat) : Nat := rateAt b b.sup.shed k

/-- Shed: the wave ring writer, the feeds of FEED_MASK and FEED_AUTO, the streams, the wave detection. -/
def writerShed (b : Block) : Bool := decide (4 ≤ b.sup.shed)
def feedsShed (b : Block) : Bool := decide (12 ≤ b.sup.shed)
def streamsShed (b : Block) : Bool := decide (13 ≤ b.sup.shed)
def twShed (b : Block) : Bool := decide (14 ≤ b.sup.shed)

/-! ### Costs -/

/-- Whether a station port is enabled: PTP, a PRP pair, a stream, a subscription or its own address names it. -/
def stationEnabled (b : Block) (j : Nat) : Bool :=
  cfgBit b 0x21 0 0 (19 + j)
  || cfgN b 0x21 0 0 24 23 == 1 && decide (j ≤ 1) || cfgN b 0x21 0 0 24 23 == 2 && decide (2 ≤ j)
  || ((List.range 2).any fun k => pmuEn b k && cfgBit b 0x1E k 0 (12 + j))
  || ((List.range 16).any fun k => cfgWritten b 0x19 k && cfgBit b 0x19 k 0 7 && cfgBit b 0x19 k 0 (1 + j))
  || cfgW b 0x24 j 0 != 0

/-- High-speed channels that an enabled TW_LINE names. -/
def hsNamed (b : Block) (h : Nat) : Bool :=
  (List.range 4).any fun k => cfgWritten b 0x1F k && cfgBit b 0x1F k 0 29
    && (cfgN b 0x1F k 0 27 24 == h || cfgN b 0x1F k 0 23 20 == h || cfgN b 0x1F k 0 19 16 == h)

/-- Ports with END ≠ 0. -/
def usedPorts (b : Block) : Nat := ((List.range 32).filter fun p => chainEnd b p != 0).length

/-- Whether an engine holds a program. -/
def holdsProgram (b : Block) (e : Nat) : Bool := (engine b e).bankA.valid || (engine b e).bankB.valid

/-- Feeds by FEED_MASK or FEED_AUTO (R414). -/
def ownFeeds (b : Block) : Nat := (bitList 32 (b.pair.feeding)).length - (bitList 32 (b.pair.feeding &&& b.pair.feedAsk)).length

/-- U: the cost of the functions that cannot be shed (Table 15-6). -/
def costFixed (b : Block) : Nat :=
  23960 + 470 * usedPorts b
  + ((b.eng.filter fun kv => kv.2.bankA.valid || kv.2.bankB.valid).map fun kv => if kv.1 < 256 then 90 else 140).foldl (· + ·) 0
  + (if pairEn b then 1900 else 480)
  + ((List.range 4).map fun j => if stationEnabled b j then (if j ≤ 1 then 1100 else 450) else 0).foldl (· + ·) 0

/-- The cost of the functions that can be shed, at a position of the ladder. -/
def costSheddable (b : Block) (pos : Nat) : Nat :=
  (if 14 ≤ pos then 0 else 300 * ((List.range 12).filter (hsNamed b)).length)
  + (match pos with | 0 => 60 | 1 => 30 | 2 => 6 | _ => 0) * usedPorts b
  + (if 4 ≤ pos then 0 else 800)
  + (if 13 ≤ pos then 0 else ((List.range 2).map fun k => if pmuEn b k then 400 + 2 * rateAt b pos k else 0).foldl (· + ·) 0)
  + (if 12 ≤ pos then 0 else 20 * ownFeeds b)

/-- The declared cost at a position of the ladder, and of the running configuration. -/
def costAt (b : Block) (pos : Nat) : Nat := costFixed b + costSheddable b pos
def cost (b : Block) : Nat := costAt b b.sup.shed

/-! ### Caps, shedding and restoring -/

/-- The thermal cap of R520; below 0 it is 0. -/
def thermalCap (b : Block) : Nat := 78000 - 5000 * b.sup.n
def effectiveCap (b : Block) : Nat := Nat.min b.sup.granted (thermalCap b)

/-- The first position from `pos` on whose cost fits the cap, or the last. -/
def shedTo (b : Block) (cap : Nat) : Nat → Nat → Nat
  | 0, pos => pos
  | fuel + 1, pos => if costAt b pos ≤ cap ∨ shedLast ≤ pos then pos else shedTo b cap fuel (pos + 1)

/-- Back from `pos`, one step at a time, while the cost after restoring fits. -/
def restoreTo (b : Block) (cap : Nat) : Nat → Nat
  | 0 => 0
  | pos + 1 => if costAt b pos ≤ cap then restoreTo b cap pos else pos + 1

/-- Put the ladder at a position: the ring's interval, and CFGCNT of each stream whose rate changes (R521). A stream
that is off keeps rate and CFGCNT. -/
def shedSet (pos : Nat) (b : Block) : Block :=
  let pmu := (List.range 2).foldl (fun (t : Tbl Pmu) k =>
    if pmuEn b k ∧ rateAt b pos k ≠ rateAt b b.sup.shed k then
      Tbl.upd {} t k fun (p : Pmu) => { p with cfgcnt := (p.cfgcnt + 1) % 65536, cfgAt := some (now b) }
    else t) b.pmu
  { b with pmu := pmu, sup := { b.sup with shed := pos, ringEvery := match pos with | 0 => 1 | 1 => 2 | 2 => 10 | _ => 0 } }

/-- Shed until the cost fits the effective cap (R520). -/
def shed (b : Block) : Block := shedSet (shedTo b (effectiveCap b) shedLast b.sup.shed) b

/-- Restore what fits (R521), but only while T is below 110 °C after a shutdown (R526). -/
def restore (b : Block) : Block := if b.sup.afterShut then b else shedSet (restoreTo b (effectiveCap b) b.sup.shed) b

/-- The factor of R522 in tenths: 10 − ceil((U − thermal cap)/5,000), at least 3. -/
def capTenths (b : Block) : Nat :=
  Nat.max 3 (10 - (costFixed b - thermalCap b + 4999) / 5000)

/-- CAP_FACTOR (R522). -/
def capFactor (b : Block) : W32 := if capTenths b = 10 then 0x3F800000 else ofRat (capTenths b) 10

/-- R515: `b'` raises the declared cost above what is granted. -/
def costRefused (b b' : Block) : Bool := decide (cost b < cost b') && decide (b.sup.granted < cost b')

/-- POWER_CAP (R515): refused below what cannot be shed; else granted, and shed or restored at once. -/
def powerCap (cap : W32) (b : Block) : CmdOut :=
  let c := cap.toNat
  if c < 30000 ∨ 78000 < c then badArg 0
  else if c < costFixed b then .fail .powerCap noDetail
  else .ok (restore (shed { b with sup.granted := c })) []

def execPowerCap (h : Hdr) (cap : W32) (s : State) : Host.Outcome State Fault Refusal :=
  s.act (runCmd h 0x0106 [] (powerCap cap))

/-- POWER_STATUS (Table 15-9). -/
def powerStatus (b : Block) : List W32 :=
  let u := b.sup
  let level := if u.hard then 4 else if u.shutdown then 3 else if u.throttle then 2 else if u.warn then 1 else 0
  [pack [fld (u.temp % 65536).toNat 31 16, fld level 15 13, fld u.n 12 8, fld (shedStep u.shed) 7 4, flg u.diodeFault 3],
   w32 (cost b), pack [fld (u.granted / 2) 31 16, fld (effectiveCap b / 2) 15 0], u.capFactor]

end Sys2Proof.Machine
end

