-- ==== Sys2Proof/Machine/Oliward.lean ====
section
/-! DEFINITION. Signed images as the store holds them (Tables 17-2 to 17-5): header, sections, the image store and the
active keyring. -/

namespace Sys2Proof.Machine

/-! ### Image words -/
def iKind (l : List W32) : Nat := bits (word l 1) 23 16
def iSects (l : List W32) : Nat := bits (word l 1) 15 8
def iVersion (l : List W32) : W32 := word l 2
def iSvn (l : List W32) : Nat := bits (word l 3) 31 24
def iLen (l : List W32) : Nat := (word l 4).toNat
def iTarget (l : List W32) : Nat := join64 (word l 5) (word l 6)
/-- KEY_ID, four words. -/
def iKeyId (l : List W32) : List W32 := (l.drop 7).take 4

/-- Section entry i: TYPE, OFFSET, LENGTH in bytes. -/
def sType (l : List W32) (i : Nat) : Nat := bits (word l (16 + 20 * i)) 31 24
def sOffset (l : List W32) (i : Nat) : Nat := (word l (17 + 20 * i)).toNat
def sLength (l : List W32) (i : Nat) : Nat := (word l (18 + 20 * i)).toNat
def sDigest (l : List W32) (i : Nat) : List W32 := (l.drop (20 + 20 * i)).take 16

/-- The manifest: header and section entries. -/
def manifest (l : List W32) : List W32 := l.take (16 + 20 * iSects l)

/-- The measurement of an image (R559). -/
def measurement (l : List W32) : List W32 := digest64 (manifest l)

/-- The signature: 116 bytes after the manifest. -/
def iSignature (l : List W32) : List W32 := (l.drop (16 + 20 * iSects l)).take 29

/-- The words of a section. -/
def sWords (l : List W32) (i : Nat) : List W32 := (l.drop (sOffset l i / 4)).take ((sLength l i + 3) / 4)

/-- The first section of a type. -/
def sectionOf (l : List W32) (ty : Nat) : Option (List W32) :=
  ((List.range (iSects l)).find? fun i => sType l i == ty).map (sWords l)

/-! ### The store (Table 17-7) -/

/-- Key of an image: `dev` is the flash device, or the bank of an A/B kind. -/
def imgKey (kind slot dev : Nat) : Nat := kind * 128 + 2 * slot + dev
def stored (b : Block) (kind slot dev : Nat) : Image := Tbl.get {} b.trust.store (imgKey kind slot dev)
def storeImage (kind slot dev : Nat) (i : Image) (b : Block) : Block :=
  { b with trust := { b.trust with store := Tbl.set {} b.trust.store (imgKey kind slot dev) i } }

/-- The active bank of a kind (0 A, 1 B). -/
def activeBank (b : Block) (kind : Nat) : Nat := if b.trust.active.getLsbD (kind - 1) then 1 else 0
/-- The stored image of the active bank of a kind. -/
def activeImage (b : Block) (kind : Nat) : Image := stored b kind 0 (activeBank b kind)

/-- The KEYS section of the active keyring; none: the device knows the fused keys alone. -/
def keyring (b : Block) : List W32 :=
  if (activeImage b 4).valid then (sectionOf (activeImage b 4).words 5).getD [] else []

def lockCal (b : Block) : Bool := bit (word (keyring b) 0) 27

/-- The records of a RECORDS section: STRUCT, INDEX, words. `fuel` bounds their number. -/
def recordList : Nat → List W32 → List (Nat × Nat × List W32)
  | 0, _ => []
  | _ + 1, [] => []
  | n + 1, w :: ws =>
    let st := bits w 31 24
    let k := if st = 0x81 then 1 else cfgWords st
    (st, bits w 23 8, ws.take k) :: recordList n (ws.drop k)

/-- Whether a RECORDS section is well formed for the structures allowed: word 0 by R549, INDEX in range, whole records. -/
def recordsFit (allowed : Nat → Bool) : Nat → List W32 → Bool
  | 0, l => l.isEmpty
  | _ + 1, [] => true
  | n + 1, w :: ws =>
    let st := bits w 31 24
    let k := if st = 0x81 then 1 else cfgWords st
    allowed st && decide (k ≠ 0) && bits w 7 0 == 0 && decide (bits w 23 8 < cfgCount st) && decide (k ≤ ws.length)
      && recordsFit allowed n (ws.drop k)

end Sys2Proof.Machine
end

