-- ==== Sys2Proof/Machine/CfgCheck.lean ====
section
/-! DEFINITION. The checks that each structure's own rule makes of an entry beyond its field ranges, one for each
structure of Table 16-10 (R77, R82, R124, R168, R173, R178, R219, R227, R256, R262, R269, R273, R296, R303, R324,
R334, R342, R352, R365, R377, R424, R460, R476, R480, R484, R488, R552). A check answers the status and the word of
the entry. -/

namespace Sys2Proof.Machine

/-- What a check answers when it refuses. -/
abbrev Refuse := Option (Status × Nat)

/-- Refuse with ST_BAD_ARG at word `k` when `c` holds. -/
def badIf (c : Bool) (k : Nat) : Refuse := if c then some (.badArg, k) else none

/-- The first refusal of a list. -/
def firstRef (l : List Refuse) : Refuse := l.findSome? id

/-- The block with every accepted entry that still waits for a boundary in force: what later entries are held against. -/
def soonCfg (b : Block) : Block :=
  (b.nextCfg ++ b.prot.writes).foldl (fun (b : Block) (e : Nat × Nat × List W32) => setCfg e.1 e.2.1 e.2.2 b) b

/-- Refusal outside SAFE and SERVICE (R296, R303, R552: ST_BUSY; R334 and the rules of chapters 9 and 10:
ST_WRONG_MODE). -/
def modeGate (b : Block) (st : Nat) : Refuse :=
  if atRest b then none
  else if [0x10, 0x12, 0x25, 0x26].contains st then some (.busy, 0)
  else if [0x15, 0x16, 0x18, 0x19, 0x1A, 0x1B].contains st then some (.wrongMode, 0)
  else none

/-- A word that changes the running word while the chain is busy (R77, R82, R124). -/
def busyIf (b : Block) (p : Nat) (changed : Bool) : Refuse := if changed && chainBusy b p then some (.busy, 0) else none

/-- KIND_ID at a cell's position in CHAIN_KINDS words of one port. -/
def kindIn (b : Block) (p : Nat) (l : List W32) (n : Nat) : Nat :=
  if n / 64 = p then bits (word l (n % 64)) 31 16 else kindAt b n

/-- Whether the cells hold more than one kind; a position of KIND_ID 0 holds none (R178). -/
def mixed (kind : Nat → Nat) (cells : List Nat) : Bool :=
  match (cells.map kind).filter (· ≠ 0) with
  | [] => false
  | k :: ks => ks.any (· ≠ k)

/-- R178: more than 256 cells, or cells of two kinds. -/
def limbSize (b : Block) (cells : List Nat) : Refuse :=
  if 256 < cells.length ∨ mixed (kindAt b) cells = true then some (.limbSize, 0) else none

/-- CHAIN_CONFIG (R82). -/
def ckChain (b : Block) (ix : Nat) (l : List W32) : Refuse := busyIf b ix (word l 0 ≠ cfgW b 0x01 ix 0)

/-- CHAIN_KINDS (R82, R178). -/
def ckKinds (b : Block) (ix : Nat) (l : List W32) : Refuse :=
  firstRef [busyIf b ix ((List.range 64).any fun k => word l k != cfgW b 0x02 ix k),
    if (limbs b).any (fun m => mixed (kindIn b ix l) (limbCells b m)) then some (.limbSize, 0) else none]

/-- CHAIN_TIMING (R77). -/
def ckTiming (b : Block) (ix : Nat) (l : List W32) : Refuse :=
  busyIf b ix (bits (word l 0) 22 16 ≠ cfgN b 0x03 ix 0 22 16)

/-- PORT_LANE_CFG (R124). -/
def ckLane (b : Block) (ix : Nat) (l : List W32) : Refuse :=
  firstRef [badIf (decide (28 < bits (word l 0) 23 20 + bits (word l 0) 19 15)) 0, busyIf b ix (word l 0 ≠ cfgW b 0x04 ix 0)]

/-- The cell uses a leg kind. -/
def usesLegKind (d : List W32) (k : Nat) : Bool := (List.range (dNLegs d)).any fun j => dLegKind d j == k

/-- Cell numbers that enumeration has told of, with their descriptors. -/
def knownCells (b : Block) : List (Nat × List W32) :=
  b.cells.filterMap fun kv => kv.2.info.map fun i => (kv.1, i.desc)

def running (b : Block) (n : Nat) : Bool := (hub b n).slot == .active || (hub b n).slot == .integrating

/-- LEG_KIND_CFG (R168). -/
def ckLegKind (b : Block) (ix : Nat) (l : List W32) : Refuse :=
  let dead := bits (word l 0) 31 16
  let ks := (knownCells b).filter fun c => usesLegKind c.2 ix
  firstRef [badIf (decide (bits (word l 0) 15 0 < dead) || ks.any fun c => decide (dead < dMinGap c.2)) 0,
    if ks.any (fun c => running b c.1) then some (.busy, 0) else none]

/-- KIND_LEVELS (R173). -/
def ckLevels (b : Block) (ix : Nat) (l : List W32) : Refuse :=
  let kind := bits (word l 0) 31 16
  let rev := bits (word l 0) 15 8
  let neg := bits (word l 1) 15 0
  let alt := bits (word l 2) 31 16
  let old := (bits (cfgW b 0x06 ix 0) 31 16, bits (cfgW b 0x06 ix 0) 15 8)
  let hit := fun (d : List W32) => (cfgWritten b 0x06 ix && (dKind d, dRev d) == old)
    || ((kindIndex b 0x06 kind rev).isSome && dKind d == kind && dRev d == rev)
  firstRef [badIf (alt == bits (word l 1) 31 16 || (neg != 0 && alt == neg)) 2,
    badIf ((knownCells b).any fun c => dKind c.2 == kind && dRev c.2 == rev && levelsBad (word l 1) (word l 2) c.2) 1,
    if (knownCells b).any (fun c => running b c.1 && hit c.2) then some (.busy, 0) else none]

/-- LIMB_MOD (R178). -/
def ckLimbMod (b : Block) (ix : Nat) (l : List W32) : Refuse :=
  let k := bits (word l 0) 25 22
  let c := sbits (word l 1) 31 15
  let half : Int := 125000 / (2 * k : Nat)
  firstRef [badIf (!([1, 2, 4, 5, 8].contains k)) 0, badIf (decide (c < -half ∨ half < c)) 1, limbSize b (limbCells b ix)]

/-- Identifiers that Table 6-8 gives a variable; all others are reserved. -/
def exchId (n : Nat) : Bool :=
  decide (n < 0x960) || (decide (0xA00 ≤ n) && decide (n < 0xA04)) || (decide (0xB00 ≤ n) && decide (n < 0xB80))
    || (decide (0xC00 ≤ n) && decide (n < 0xCC0)) || (decide (0x1000 ≤ n) && decide (n < 0x1800))

/-- ENGINE_CFG (R219, R227, Tables 6-8 and 6-9). -/
def ckEngine (b : Block) (ix : Nat) (l : List W32) : Refuse :=
  let g := engine b ix
  let reads := (if g.bankA.valid then mirrorReads g.bankA else []) ++ (if g.bankB.valid then mirrorReads g.bankB else [])
  firstRef (((List.range 16).map fun o =>
      let ev := bits (word l (1 + o)) 31 18
      let fl := bits (word l (1 + o)) 17 4
      badIf (ev != 0 && fl != 0 && decide (fl < ev)) (1 + o))
    ++ ((List.range 1024).map fun m => badIf (!exchId (bits (word l (17 + m)) 29 16)) (17 + m))
    ++ reads.map fun m => badIf (!bit (word l (17 + m)) 0) (17 + m))

/-- Strictly ascending binary32 words. -/
def rising (l : List W32) : Bool := (l.zip l.tail).all fun x => flt x.1 x.2

/-- Loss table (R256). -/
def ckLoss (l : List W32) : Refuse :=
  firstRef [badIf (!rising ((l.drop 2).take 16) || !fIsZero (word l 2)) 2, badIf (!rising ((l.drop 18).take 4)) 18,
    badIf ((l.drop 22).take 320 |>.any fun w => !(fle 0 w) || fIsInf w) 22]

/-- Life table (R269). -/
def ckLife (l : List W32) : Refuse :=
  firstRef [badIf (!rising ((l.drop 1).take 16) || !flt 0 (word l 1)) 1, badIf (!rising ((l.drop 17).take 4)) 17]

/-- KIND_LEDGER (R262): POS_MAP has a position for every switch index, and 0 stands for a switch outside SW_MAP; SW_MAP is
known for cells that have been enumerated (log 31). -/
def ckKindLedger (b : Block) (l : List W32) : Refuse :=
  let outside : List W32 → Bool := fun d =>
    (List.range 16).any fun i => !(dSwMap d).testBit i && bits (word l 1) (2 * i + 1) (2 * i) != 0
  firstRef [
    badIf ((knownCells b).any fun c =>
      dKind c.2 == bits (word l 0) 31 16 && dRev c.2 == bits (word l 0) 15 8 && outside c.2) 1,
    badIf (!flt (word l 5) (word l 6)) 6]

/-- LIMB_DERATE (R273). -/
def ckDerate (l : List W32) : Refuse :=
  firstRef [badIf (flt 0x3F800000 (fmul (ofNatF (bits (word l 0) 25 22)) (word l 1))) 1,
    badIf (!flt (word l 2) (fadd (word l 2) (ofNatF (bits (word l 3) 7 0)))) 3]

/-- LIMB_GRID (R296). -/
def ckLimbGrid (b : Block) (ix : Nat) (l : List W32) : Refuse :=
  badIf (decide ((limbCells b ix).length < bits (word l 0) 23 15)
    || (bits (word l 0) 25 24 == 1 && cfgN b 0x12 1 0 31 30 != 1)) 0

/-- GRID_CFG (R303). -/
def ckGrid (ix : Nat) (l : List W32) : Refuse :=
  let src := bits (word l 0) 31 30
  firstRef [badIf (src == 2 && ix == 1) 0,
    badIf (src == 2 && word l 1 != ofNatF 50 && word l 1 != ofNatF 60) 1, badIf (!fle (word l 5) (word l 6)) 6]

/-- COMP_CFG (R324). -/
def ckComp (b : Block) (ix : Nat) (l : List W32) : Refuse :=
  let hi := bits (word l 0) 31 22
  let lo := bits (word l 0) 21 12
  let hy := bits (word l 0) 11 6
  let enHi := bit (word l 1) 23
  let enLo := bit (word l 1) 22
  let n := bits (word l 1) 31 28
  let k := bits (word l 1) 27 24
  firstRef [badIf (decide (k < Nat.max 3 (n / 2 + 1) ∨ n < k)) 1,
    badIf ((enHi && decide (hi < hy)) || (enLo && decide (1023 < lo + hy)) || (enHi && enLo && decide (hi ≤ lo + hy + hy))) 0,
    if !atRest b && (bit (word l 1) 17 != cfgBit b 0x14 ix 1 17 || n != cfgN b 0x14 ix 1 31 28 || k != cfgN b 0x14 ix 1 27 24)
      then some (.wrongMode, 1) else none]

/-- TRIP_MAP (R334). -/
def ckTripMap (ix : Nat) (l : List W32) : Refuse :=
  badIf ((ix == 65 && word l 0 != 0xC000FFFF) || ((ix == 64 || ix == 69) && !bit (word l 0) 31)) 0

/-- LEG_SC_CFG (R342). -/
def ckLegSc (l : List W32) : Refuse := badIf (decide (bits (word l 0) 21 12 ≤ bits (word l 0) 31 22)) 0

/-- CHOP_CFG (R352). -/
def ckChop (b : Block) (l : List W32) : Refuse :=
  let c := bits (word l 0) 27 22
  firstRef [badIf (!cfgBit b 0x14 c 1 23 || cfgBit b 0x14 c 1 17 || cfgN b 0x1A (bits (word l 0) 31 28) 0 31 30 != 2) 0,
    badIf (fle (word l 3) (word l 4)) 4]

/-- LOCAL_LEG_CFG (R365). -/
def ckLocalLeg (b : Block) (ix : Nat) (l : List W32) : Refuse :=
  let w := word l 0
  firstRef [badIf (bit w 17 && decide (800 * bits w 16 4 < 10 * (2 * bits w 29 18 + bits (word l 1) 31 20))) 0,
    badIf (bits w 31 30 == 2 &&
      decide (2 ≤ ((List.range 16).filter fun k => k ≠ ix && cfgN b 0x1A k 0 31 30 == 2).length)) 0]

/-- DRIVE_CFG (R377). -/
def ckDrive (b : Block) (ix : Nat) (l : List W32) : Refuse :=
  let w := word l 0
  let legs := [bits w 29 26, bits w 25 22, bits w 21 18]
  let cm := fVal (word l 10)
  firstRef [badIf (legs.eraseDups.length != 3 || legs.any (fun g => cfgN b 0x1A g 0 31 30 != 3)
      || (List.range 4).any fun d => d != ix && driveEn b d && (driveLegs b d).any legs.contains) 0,
    badIf (!bit w 30 && flt (word l 10) (fmul (ofRat 5 100) (word l 1))) 10,
    badIf (decide (cm.1 * bits w 16 12 * bits (word l 11) 31 22 < 40000 * cm.2)) 11]

/-- KIND and PHASE of a precision channel c, or of a high-speed channel at 16 + h. -/
def senseKind (b : Block) (c : Nat) : Nat := cfgN b 0x1C c 0 26 24
def sensePhase (b : Block) (c : Nat) : Nat := cfgN b 0x1C c 0 23 22

/-- The three channels of a set of PMU_STREAM words 5 and 6. -/
def pmuSet (l : List W32) (s : Nat) : List Nat :=
  let w := word l (5 + s / 2)
  let sh := if s % 2 = 0 then 20 else 8
  [bits w (sh + 11) (sh + 8), bits w (sh + 7) (sh + 4), bits w (sh + 3) sh]

def isAc (k : Nat) : Bool := k == 1 || k == 2
def isDc (k : Nat) : Bool := k == 3 || k == 4

/-- The channels of a stream suit it (R484): phasors of KIND 1 or 2, analogs of 3 or 4, sets with phases A, B, C. -/
def pmuSuits (b : Block) (l : List W32) : Bool :=
  ((List.range 16).all fun c => (!bit (word l 3) (16 + c) || isAc (senseKind b c)) && (!bit (word l 3) c || isDc (senseKind b c)))
  && (List.range 4).all fun s => !bit (word l 4) (28 + s)
    || ((pmuSet l s).all (fun c => isAc (senseKind b c)) && (pmuSet l s).map (sensePhase b) == [1, 2, 3])

/-- High-speed channels of a line. -/
def twChans (l : List W32) : List Nat := [bits (word l 0) 27 24, bits (word l 0) 23 20, bits (word l 0) 19 16]

/-- The channels of a line have the entry's KIND (R488). -/
def twSuits (b : Block) (l : List W32) : Bool :=
  (twChans l).all fun h => senseKind b (16 + h) == (if bit (word l 0) 28 then 1 else 2)

/-- Every entry that names a channel finds a KIND that suits it (R480). -/
def sensesSuit (b : Block) : Bool :=
  ((List.range 2).all fun s => cfgN b 0x12 s 0 31 30 == 0 ||
    [cfgN b 0x12 s 0 27 24, cfgN b 0x12 s 0 23 20, cfgN b 0x12 s 0 19 16].all fun c => senseKind b c == 1)
  && ((List.range 2).all fun k => !pmuEn b k || pmuSuits b (cfgEntry b 0x1E k))
  && (List.range 4).all fun k => !(cfgWritten b 0x1F k && cfgBit b 0x1F k 0 29) || twSuits b (cfgEntry b 0x1F k)

/-- SENSE_CH_CFG (R480): a change that breaks what another entry needs is refused. -/
def ckSense (b : Block) (ix : Nat) (l : List W32) : Refuse :=
  let changed := bits (word l 0) 26 22 != cfgN b 0x1C ix 0 26 22
  firstRef [badIf (fIsZero (word l 1) || fIsNaN (word l 1)) 1,
    if changed && !atRest b then some (.busy, 0) else none,
    badIf (changed && sensesSuit b && !sensesSuit (setCfg 0x1C ix l b)) 0]

/-- PMU_STREAM (R484, Table 14-5). -/
def ckPmu (b : Block) (ix : Nat) (l : List W32) : Refuse :=
  let w := word l 0
  firstRef [badIf (!(streamRates (bit w 11) (bit w 30)).contains (bits w 29 22)) 0,
    badIf (!bit (word l 4) (28 + bits w 10 9)) 0,
    badIf (!pmuSuits b l) 3,
    badIf (cfgWritten b 0x1E (1 - ix) && cfgN b 0x1E (1 - ix) 1 31 16 == bits (word l 1) 31 16) 1]

/-- TW_LINE (R488). -/
def ckTw (b : Block) (l : List W32) : Refuse :=
  let ds := (twChans l).map fun h => s32 (cfgW b 0x1C (16 + h) 3)
  firstRef [badIf ((twChans l).eraseDups.length != 3 || !twSuits b l) 0,
    badIf (ds.any fun x => ds.any fun y => decide (1000 < x - y)) 0]

/-- TIME_CFG (R460). -/
def ckTime (l : List W32) : Refuse :=
  let r := [bits (word l 0) 31 30, bits (word l 0) 29 28, bits (word l 0) 27 26].filter (· ≠ 0)
  badIf (r.eraseDups.length != r.length) 0

/-- Limit of an output format in Hz (R477). -/
def fmtLimit (f : Nat) : Nat := match f with | 0 | 1 => 800000000 | 2 => 250000000 | _ => 200000000

/-- Whether F_VCO over the DIV of an output word exceeds its format's limit. -/
def overLimit (vco w : W32) : Bool :=
  let v := fVal vco
  bit w 31 && !bit w 26 && decide ((fmtLimit (bits w 30 29) * bits w 25 14 * v.2 : Nat) < v.1)

/-- SAFETY_CFG (R424). -/
def ckSafety (b : Block) (l : List W32) : Refuse := badIf (!pairEn b && bits (word l 0) 7 6 != 3) 0

/-- FIELD0 to FIELD2 name words 2, 3, 4, 5 or 7 (R552). -/
def fieldsOk (w : W32) : Bool := [bits w 31 28, bits w 27 24, bits w 23 20].all fun f => [2, 3, 4, 5, 7].contains f

/-- LIMB_CFG (R26, R27, R59, R178, R552): with EN = 0 nothing more is checked. -/
def ckLimb (b : Block) (ix : Nat) (l : List W32) : Refuse :=
  if !bit (word l 0) 25 then none
  else
    let b' := setCfg 0x25 ix l b
    let cs := limbCells b' ix
    firstRef [badIf (!fieldsOk (word l 1)) 1,
      badIf (decide (4 < (hosted b' (limbEngine b' ix)).length)) 0,
      badIf ((List.range 32).any fun p => decide (8 < (chainLimbs b' p).length)) 2,
      badIf (cs.any fun n => (limbs b).any fun m => m != ix && cfgBit b 0x25 m (2 + n / 32) (n % 32)) 2,
      badIf (cs.any fun n => kindAt b n == 0) 2,
      if cs.any (fun n => (chain b (n / 64)).measured && !chainAdmits b (n / 64)) then some (.rttExceeded, 2) else none,
      limbSize b cs]

/-- The check that the structure's own rule makes. -/
def ownCheck (b : Block) (st ix : Nat) (l : List W32) : Refuse :=
  match st with
  | 0x01 => ckChain b ix l
  | 0x02 => ckKinds b ix l
  | 0x03 => ckTiming b ix l
  | 0x04 => ckLane b ix l
  | 0x05 => ckLegKind b ix l
  | 0x06 => ckLevels b ix l
  | 0x07 => ckLimbMod b ix l
  | 0x09 => ckEngine b ix l
  | 0x0B => ckLoss l
  | 0x0C => ckLife l
  | 0x0D => ckKindLedger b l
  | 0x0F => ckDerate l
  | 0x10 => ckLimbGrid b ix l
  | 0x12 => ckGrid ix l
  | 0x14 => ckComp b ix l
  | 0x15 => ckTripMap ix l
  | 0x16 => ckLegSc l
  | 0x18 => ckChop b l
  | 0x1A => ckLocalLeg b ix l
  | 0x1B => ckDrive b ix l
  | 0x1C => ckSense b ix l
  | 0x1E => ckPmu b ix l
  | 0x1F => ckTw b l
  | 0x21 => ckTime l
  | 0x22 => badIf ((List.range 4).any fun k => overLimit (word l 0) (cfgW b 0x23 k 0)) 0
  | 0x23 => badIf (overLimit (cfgW b 0x22 0 0) (word l 0)) 0
  | 0x25 => ckLimb b ix l
  | 0x26 => badIf (word l 0 == 0) 0
  | 0x80 => ckSafety b l
  | _ => none

/-- Whether an entry is refused: mode, field ranges (R10), the structure's own rule; `b` holds the entries still to take
effect. -/
def cfgRefused (b : Block) (st ix : Nat) (l : List W32) : Refuse :=
  firstRef [modeGate b st, (cfgBadWord st ix l).map fun k => (.badArg, k), ownCheck b st ix l]

end Sys2Proof.Machine
end

