-- ==== Sys2Proof/Machine/Ed448.lean ====
section
/-! DEFINITION. Ed448 pure of RFC 8032, section 5.2, with an empty context (R13, R557, R559): the curve, the coding of its
points, keys, signatures and their check. Bytes are natural numbers, least significant byte first. -/

namespace Sys2Proof.Machine

/-- The field's prime, the curve's d as a residue, and the order of the base point. -/
def goldP : Nat := 2 ^ 448 - 2 ^ 224 - 1
def goldD : Nat := goldP - 39081
def goldL : Nat := 2 ^ 446 - 13818066809895115352007386748515426880336692474882178609894547503885

def gmul (x y : Nat) : Nat := x * y % goldP
def gsub (x y : Nat) : Nat := (x + (goldP - y % goldP)) % goldP

/-- x to the power n, over the `k` low bits of n. -/
def gpow (x : Nat) : Nat → Nat → Nat
  | 0, _ => 1
  | k + 1, n =>
    let h := gpow x k (n / 2)
    let s := gmul h h
    if n % 2 = 1 then gmul s x else s

/-- A point of x² + y² = 1 + d x² y², as (X / Z, Y / Z). -/
structure GoldPt where
  x : Nat
  y : Nat
  z : Nat
  deriving DecidableEq, Repr

def goldZero : GoldPt := ⟨0, 1, 1⟩

def GoldPt.add (p q : GoldPt) : GoldPt :=
  let zz := gmul p.z q.z
  let xx := gmul p.x q.x
  let yy := gmul p.y q.y
  let e := gmul goldD (gmul xx yy)
  let z2 := gmul zz zz
  let f := gsub z2 e
  let g := (z2 + e) % goldP
  let cross := gsub (gsub (gmul (p.x + p.y) (q.x + q.y)) xx) yy
  ⟨gmul (gmul zz f) cross, gmul (gmul zz g) (gsub yy xx), gmul f g⟩

/-- n times a point, over the `k` low bits of n. -/
def GoldPt.times (p : GoldPt) : Nat → Nat → GoldPt
  | 0, _ => goldZero
  | k + 1, n =>
    let h := GoldPt.times p k (n / 2)
    let s := h.add h
    if n % 2 = 1 then s.add p else s

/-- Two points are the same. -/
def GoldPt.same (p q : GoldPt) : Bool := gmul p.x q.z == gmul q.x p.z && gmul p.y q.z == gmul q.y p.z

/-- A number of bytes, and its first `n` bytes. -/
def ofBytes (l : List Nat) : Nat := l.foldr (fun x v => x + 256 * v) 0
def toBytes : Nat → Nat → List Nat
  | 0, _ => []
  | n + 1, v => v % 256 :: toBytes n (v / 256)

/-- 57 bytes: y, and in the top bit the parity of x. -/
def GoldPt.bytes (p : GoldPt) : List Nat :=
  let inv := gpow p.z 448 (goldP - 2)
  toBytes 57 (gmul p.y inv + gmul p.x inv % 2 * 2 ^ 455)

/-- The root of u / v, if there is one. -/
def gRoot (u v : Nat) : Option Nat :=
  let u3v := gmul (gmul u (gmul u u)) v
  let r := gmul u3v (gpow (gmul u3v (gmul u (gmul u (gmul v v)))) 446 ((goldP - 3) / 4))
  if gmul v (gmul r r) = u % goldP then some r else none

/-- The point that 57 bytes name. -/
def goldPoint (l : List Nat) : Option GoldPt :=
  let n := ofBytes l
  let y := n % 2 ^ 455
  let odd := n / 2 ^ 455 % 2
  if l.length ≠ 57 ∨ goldP ≤ y then none
  else
    match gRoot (gsub (gmul y y) 1) (gsub (gmul goldD (gmul y y)) 1) with
    | none => none
    | some x => if x = 0 ∧ odd = 1 then none else some ⟨if x % 2 = odd then x else goldP - x, y, 1⟩

/-- The base point. -/
def goldBase : GoldPt :=
  ⟨224580040295924300187604334099896036246789641632564134246125461686950415467406032909029192869357953282578032075146446173674602635247710
   , 298819210078481492676017930443930673437544040154080242095928241372331506189835876003536878655418784733982303233503462500531545062832660
   , 1⟩

/-- SHAKE256 over the domain of the scheme and bytes, as a number below the order. -/
def goldHash (l : List Nat) : Nat :=
  ofBytes (shake256 ([83, 105, 103, 69, 100, 52, 52, 56, 0, 0] ++ l) 114) % goldL

/-- The secret scalar and the prefix of a private key of 57 bytes. -/
def goldSecret (key : List Nat) : Nat × List Nat :=
  let h := shake256 key 114
  let s := ofBytes (h.take 56)
  (s % 2 ^ 447 - s % 4 + 2 ^ 447, (h.drop 57).take 57)

/-- The public key of a private key. -/
def goldPublic (key : List Nat) : List Nat := (goldBase.times 448 (goldSecret key).1).bytes

/-- The signature of a message, 114 bytes. -/
def goldSign (key msg : List Nat) : List Nat :=
  let (s, pre) := goldSecret key
  let r := goldHash (pre ++ msg)
  let rb := (goldBase.times 446 r).bytes
  let k := goldHash (rb ++ goldPublic key ++ msg)
  rb ++ toBytes 57 ((r + k * s) % goldL)

/-- Whether a signature of 114 bytes over a message verifies under a public key: 4 S B = 4 R + 4 k A. -/
def goldVerify (pub msg sig : List Nat) : Bool :=
  let s := ofBytes (sig.drop 57)
  match goldPoint pub, goldPoint (sig.take 57) with
  | some a, some r =>
    let k := goldHash (sig.take 57 ++ pub ++ msg)
    sig.length == 114 && decide (s < goldL)
      && ((goldBase.times 446 s).times 3 4).same ((r.add (a.times 446 k)).times 3 4)
  | _, _ => false

/-! ### Keys (Table 17-1) -/

/-- KEY_ID of a public key: the first 16 bytes of SHAKE256 over it (R557). -/
def keyId (pub : List Nat) : List W32 := wordsOf 4 (shake256 pub 16)

/-- The bytes of a key of the part. -/
def keyBytes (k : BitVec 456) : List Nat := toBytes 57 k.toNat

/-- The Ranvoath firmware key, public; the identity key, whose private part never leaves the secure store. -/
def firmwareKey : List Nat := keyBytes Config.firmwareKey
def identityKey : List Nat := goldPublic (keyBytes Config.identitySecret)

/-- The identity key's signature over words, 29 words with two zero bytes. -/
def signWords (l : List W32) : List W32 := wordsOf 29 (goldSign (keyBytes Config.identitySecret) (bytesOf l))

end Sys2Proof.Machine
end

