-- ==== Sys2Proof/Machine/Drives.lean ====
section
/-! DEFINITION. Coolant drives of the Patrol die (chapter 10, R377 to R388). Speeds are signed rpm in binary32. What a
row cannot take from the state (crossings, sampled currents and voltages) is an operand of the row. -/

namespace Sys2Proof.Machine

/-! Fields of DRIVE_CFG (Table 10-6). -/
def drvPump (b : Block) (d : Nat) : Bool := cfgBit b 0x1B d 0 30
def drvPoles (b : Block) (d : Nat) : Nat := cfgN b 0x1B d 0 16 12
def drvPwm (b : Block) (d : Nat) : Nat := cfgN b 0x1B d 0 11 3
def drvF (b : Block) (d k : Nat) : W32 := cfgW b 0x1B d k
def catchMin (b : Block) (d : Nat) : W32 := drvF b d 10
def brakeMax (b : Block) (d : Nat) : Nat := cfgN b 0x1B d 11 21 8
def retries (b : Block) (d : Nat) : Nat := cfgN b 0x1B d 11 7 4

/-- A drive commutated by R380: a fan, or a pump that lost its resolver. -/
def sixStep (b : Block) (d : Nat) : Bool := !drvPump b d || (drive b d).sensorless

/-- 10,000 / (POLE_PAIRS × interval): speed of a sector time in ms, or sector time of a speed (R384). -/
def sectorRate (b : Block) (d : Nat) (x : W32) : W32 := fdiv (ofNatF 10000) (fmul (ofNatF (drvPoles b d)) x)

/-- A value with the sign of another. -/
def withSign (neg : Bool) (x : W32) : W32 := if neg then fneg x else x

/-- Recoveries of the last 10 s. -/
def recentRecoveries (b : Block) (d : Nat) : List Nat := (drive b d).recoveries.filter fun t => decide (now b < t + 1000000)

/-- Entry into RECOVER: legs off; FAULT when the recoveries are used up (Table 10-7). -/
def enterRecover (d T : Nat) (b : Block) : Block :=
  let b := driveTo d .recover false (driveOff d T b)
  if (recentRecoveries b d).length ≥ retries b d then raise .driveFault [w32 d] (driveTo d .fault false b) else b

/-- The drive goes to RUN with a reference and a start value of u. -/
def enterRun (d : Nat) (ref u : W32) (b : Block) : Block :=
  onDrive d (fun v => { v with ref := ref, u := u, integ := u }) (driveTo d .run false b)

/-- The speed of a finished catch window (R384): the resolver's, or from three or more crossings. -/
def windowSpeed (b : Block) (d crossings : Nat) (interval : W32) (forward : Bool) : W32 :=
  let v := drive b d
  if drvPump b d && !v.sensorless then v.resSpeed
  else if 3 ≤ crossings then withSign (!forward) (sectorRate b d interval)
  else v.speed

/-- Whether KE lies in its band (R387). -/
def keInBand (b : Block) (d : Nat) (ke : W32) : Bool :=
  let one : W32 := 0x3F800000
  fle (fmul (drvF b d 8) (fsub one (drvF b d 9))) ke && fle ke (fmul (drvF b d 8) (fadd one (drvF b d 9)))

/-- The measurement of KE in a window whose speed is at least CATCH_MIN (R384, R387): KE, and the changed block. -/
def measureKe (d : Nat) (speed peak : W32) (measured : Bool) (b : Block) : Option W32 × Block :=
  if measured && fle (catchMin b d) (fabs speed) then
    let ke := fdiv (fmul peak (ofNatF 1000)) (fabs speed)
    let ok := keInBand b d ke
    let b := onDrive d (fun v => { v with keBad := !ok }) b
    (some ke, if ok then b else raise .driveKe [w32 d, ke] b)
  else (none, b)

/-- The end of a catch window of CATCH_TIME, in CATCH or in BRAKE (Table 10-7). -/
def catchEnd (d T crossings : Nat) (interval : W32) (forward : Bool) (sector : Nat) (peak vdc : W32) (b : Block) : Block :=
  let v := drive b d
  if !v.window ∨ b.prot.frozen ∨ now b < v.phaseAt + cfgN b 0x1B d 11 31 22 * 100 then b
  else
    let pump := drvPump b d
    let seen := decide (3 ≤ crossings)
    let speed := windowSpeed b d crossings interval forward
    let b := onDrive d (fun v => { v with speed := speed, lastCross := crossings, sensorless := v.sensorless || v.sensorlessNext
                                          sensorlessNext := false }) b
    let (ke, b) := measureKe d speed peak ((pump && !v.sensorless) || seen) b
    if (drive b d).keBad && ke.isSome && cfgBit b 0x1B d 0 2 then driveTo d .fault false b
    else if pump then enterRun d speed 0 b
    else if !seen then driveTo d .align false b
    else if fNeg? speed = fNeg? v.setpoint then
      let (u, b) := match ke with
        | some k => (fdiv (fmul k (fabs speed)) (fmul (ofNatF 1000) vdc), b)
        | none => fresh b
      onDrive d (fun v => { v with sector := sector, sectorMs := interval, commAt := T }) (enterRun d speed u b)
    else if v.st = .catch then onDrive d (fun v => { v with lastCross := crossings }) (driveTo d .brake false b)
    else if now b < v.since + brakeMax b d * 1000 then onDrive d (fun v => { v with window := false, phaseAt := now b }) b
    else raise .driveStall [w32 d] (driveTo d .fault false (driveOff d T b))

def execCatchWindowEnd (drive : Fin 4) (offset : Fin 8192) (crossings : Nat) (interval : W32) (forward : Bool)
    (sector : Fin 6) (peak vdc : W32) (s : State) : Host.Outcome State Fault Refusal :=
  s.act fun b => catchEnd drive.val (sampleAt b offset.val) crossings interval forward sector.val peak vdc b

/-- R385: after 20 ms of braking a catch window follows, with all legs off. -/
def brakeEnd (d T : Nat) (b : Block) : Block :=
  let v := drive b d
  if v.st ≠ .brake ∨ v.window = true ∨ b.prot.frozen = true ∨ now b < v.phaseAt + 2000 then b
  else onDrive d (fun v => { v with window := true, phaseAt := now b }) (driveOff d T b)

def execBrakeIntervalEnd (drive : Fin 4) (offset : Fin 8192) (s : State) : Host.Outcome State Fault Refusal :=
  s.act fun b => brakeEnd drive.val (sampleAt b offset.val) b

/-- BRAKE_MAX × 10 ms since entry with at least 3 crossings in the last window (Table 10-7). -/
def execBrakeMaxExpiry (drive : Fin 4) (offset : Fin 8192) (s : State) : Host.Outcome State Fault Refusal :=
  s.act fun b =>
    let v := Sys2Proof.Machine.drive b drive.val
    if v.st = .brake ∧ v.since + brakeMax b drive.val * 1000 ≤ now b ∧ 3 ≤ v.lastCross then
      raise .driveStall [w32 drive.val] (driveTo drive.val .fault false (driveOff drive.val (sampleAt b offset.val) b))
    else b

/-- ALIGN has lasted 100 ms (Table 10-7). -/
def execAlignEnd (drive : Fin 4) (s : State) : Host.Outcome State Fault Refusal :=
  s.act fun b =>
    let v := Sys2Proof.Machine.drive b drive.val
    if v.st = .align ∧ v.since + 10000 ≤ now b ∧ b.prot.frozen = false then
      onDrive drive.val (fun v => { v with forced := 0, sector := 0 }) (driveTo drive.val .openLoop false b)
    else b

/-- R383: CATCH_TIME in RECOVER ends; the recovery counts. -/
def execRecoverEnd (drive : Fin 4) (offset : Fin 8192) (s : State) : Host.Outcome State Fault Refusal :=
  s.act fun b =>
    let v := Sys2Proof.Machine.drive b drive.val
    if v.st = .recover ∧ v.since + cfgN b 0x1B drive.val 11 31 22 * 100 ≤ now b ∧ b.prot.frozen = false then
      let l := now b :: recentRecoveries b drive.val
      startCatch drive.val (sampleAt b offset.val) (onDrive drive.val (fun v => { v with recoveries := l }) b)
    else b

/-- A zero crossing of the floating phase (R380): one inside 0.5 to 1.5 of the last sector time sets the next
commutation; six in a row at CATCH_MIN or more end OPEN_LOOP. -/
def crossing (d T : Nat) (ms : W32) (b : Block) : Block :=
  let v := drive b d
  let half : W32 := 0x3F000000
  let running := v.st = .run ∨ v.st = .openLoop
  let inWin := fle (fmul half v.sectorMs) ms && fle ms (fmul 0x3FC00000 v.sectorMs)
  if ¬running ∨ !sixStep b d ∨ !inWin ∨ b.prot.frozen then b
  else
    let speed := withSign (fNeg? v.setpoint) (sectorRate b d ms)
    let want := sectorRate b d (fabs v.ref)
    let off := flt (fmul 0x3E800000 want) (fabs (fsub ms want))
    let b := onDrive d (fun v => { v with speed := speed, sectorMs := ms, commDue := true, crossAt := T, missRun := 0
                                          crossRun := v.crossRun + 1, disagree := if off then v.disagree + 1 else 0 }) b
    if v.st = .openLoop ∧ 6 ≤ v.crossRun + 1 ∧ fle (catchMin b d) (fabs speed) then
      enterRun d (withSign (fNeg? v.setpoint) v.forced) v.u b
    else b

def execBemfZeroCrossing (drive : Fin 4) (offset : Fin 8192) (interval : W32) (s : State) : Host.Outcome State Fault Refusal :=
  s.act fun b => crossing drive.val (sampleAt b offset.val) interval b

/-- The next of the six sectors, in the direction of rotation. -/
def nextSector (k : Nat) (reverse : Bool) : Nat := if reverse then (k + 5) % 6 else (k + 1) % 6

/-- Samples of `k` half sector times. -/
def halfSectors (v : Drive) (k : Nat) : W32 := fmul v.sectorMs (ofNatF (400000 * k))

/-- Whether the commutation of sample T is due: half a sector time after the crossing, or once the window of 1.5 sector times has
passed without one since the commutation before (R380). -/
def commutes (v : Drive) (T : Nat) : Bool :=
  if v.commDue then fle (halfSectors v 1) (ofNatF (T - v.crossAt)) else fle (halfSectors v 3) (ofNatF (T - v.commAt))

/-- R380: half a sector after the crossing; a sector without one counts as missed. -/
def sectorCommutate (d T : Nat) (b : Block) : Block :=
  if !sixStep b d ∨ b.prot.frozen then b
  else onDrive d (fun v =>
    if v.st = .run ∧ commutes v T = true then
      { v with sector := nextSector v.sector (fNeg? v.setpoint), commDue := false, commAt := T
               missRun := if v.commDue then 0 else v.missRun + 1, crossRun := if v.commDue then v.crossRun else 0 }
    else v) b

def execSectorCommutate (drive : Fin 4) (offset : Fin 8192) (s : State) : Host.Outcome State Fault Refusal :=
  s.act fun b => sectorCommutate drive.val (sampleAt b offset.val) b

/-- Forced commutation from standstill at ACC; at 1.5 × CATCH_MIN without lock the drive recovers (Table 10-7). -/
def forcedStep (d T : Nat) (b : Block) : Block :=
  let v := drive b d
  if v.st ≠ .openLoop ∨ b.prot.frozen then b
  else
    let f := fmul (drvF b d 2) (ofRat (now b - v.since) 100000)
    let b := onDrive d (fun v => { v with forced := f, sectorMs := sectorRate b d f, commDue := false
                                          crossRun := if v.commDue then v.crossRun else 0
                                          sector := nextSector v.sector (fNeg? v.setpoint) }) b
    if fle (fmul 0x3FC00000 (catchMin b d)) f then enterRecover d T b else b

def execForcedCommutation (drive : Fin 4) (offset : Fin 8192) (s : State) : Host.Outcome State Fault Refusal :=
  s.act fun b => forcedStep drive.val (sampleAt b offset.val) b

/-! ### Speed loop (R379, R382) -/

/-- The magnitude of the reference after a PWM period, moving toward a magnitude at ACC or DEC. -/
def rampMag (cur goal up down : W32) : W32 :=
  if flt cur goal then fmin goal (fadd cur up) else fmax goal (fsub cur down)

/-- The reference after a PWM period of dt (R379), and whether a fan or pump has come to its stop. -/
def refNext (b : Block) (d : Nat) (dt : W32) : W32 × Bool :=
  let v := drive b d
  let up := fmul (drvF b d 2) dt
  let down := fmul (drvF b d 3) dt
  let turns := !fIsZero v.setpoint && !fIsZero v.ref && fNeg? v.setpoint != fNeg? v.ref
  if fIsZero v.setpoint || turns then
    let m := rampMag (fabs v.ref) 0 up down
    if drvPump b d then (withSign (fNeg? v.ref) m, fIsZero v.setpoint && fIsZero m)
    else if fle m (catchMin b d) then (0, true) else (withSign (fNeg? v.ref) m, false)
  else (withSign (fNeg? v.setpoint) (rampMag (fabs v.ref) (fabs v.setpoint) up down), false)

/-- A PWM period of F_PWM has passed since the last step of the loop. -/
def periodPassed (b : Block) (d T : Nat) : Bool :=
  match (drive b d).loopAt with
  | some t => decide ((t + 8000000 / drvPwm b d) ≤ T)
  | none => true

/-- One PWM period of the speed loop (R382). -/
def speedLoop (d T : Nat) (current : W32) (b : Block) : Block :=
  let v := drive b d
  if v.st ≠ .run ∨ b.prot.frozen ∨ !periodPassed b d T then b
  else
    let dt := ofRat 1 (drvPwm b d * 100)
    let pump := drvPump b d
    let (ref, stop) := refNext b d dt
    if stop then
      onDrive d (fun v => if v.resValid then { v with ref := 0, sensorless := false, sensorlessNext := false }
          else { v with ref := 0 }) (driveTo d .off false (driveOff d T b))
    else
      let speed := if pump && !v.sensorless then v.resSpeed else v.speed
      let err := if pump then fsub ref speed else fsub (fabs ref) (fabs speed)
      let mag := fabs current
      let regen := !fIsZero v.u && !fIsZero speed && fNeg? v.u != fNeg? speed && pump
      let lim := flt (drvF b d 6) mag || (regen && flt (drvF b d 7) mag)
      let integ := if lim then v.integ else fadd v.integ (fmul (fmul (drvF b d 5) err) dt)
      let one : W32 := 0x3F800000
      let u := if lim then fsub v.u (fdiv v.u (ofNatF 64))
        else fclamp (if pump then fneg one else 0) one (fadd (fmul (drvF b d 4) err) integ)
      onDrive d (fun v => { v with ref := ref, speed := speed, integ := integ, u := u, limNow := v.limNow || lim
                                   peak := fmax v.peak mag, sampled := current, loopAt := some T }) b

def execSpeedLoop (drive : Fin 4) (offset : Fin 8192) (current : W32) (s : State) : Host.Outcome State Fault Refusal :=
  s.act fun b => speedLoop drive.val (sampleAt b offset.val) current b

/-- R386: lock lost by two sectors without a crossing, four that disagree with the reference by more than 25 %, or a
resolver that is lost or has no angle. -/
def observerLoss (d T : Nat) (b : Block) : Block :=
  let v := drive b d
  let lost := if sixStep b d then decide (2 ≤ v.missRun) || decide (4 ≤ v.disagree)
    else !v.resValid || b.prot.summitLost
  if v.st ≠ .run ∨ !lost then b
  else
    let b := raise .driveLock [w32 d, v.speed, v.sampled] b
    let b := onDrive d (fun v => { v with sensorlessNext := v.sensorlessNext || drvPump b d }) b
    enterRecover d T b

def execObserverLoss (drive : Fin 4) (offset : Fin 8192) (s : State) : Host.Outcome State Fault Refusal :=
  s.act fun b => observerLoss drive.val (sampleAt b offset.val) b

/-- R383: a forced-off of a leg sends the drive to HALTED; through HALTED with the resolver valid a pump is sensored
again (R386). -/
def execDriveForced (drive : Fin 4) (offset : Fin 8192) (s : State) : Host.Outcome State Fault Refusal :=
  s.act fun b =>
    let d := drive.val
    let v := Sys2Proof.Machine.drive b d
    if !driveForced b d ∨ v.st = .off ∨ v.st = .fault ∨ v.st = .halted then b
    else onDrive d (fun v => { v with integ := 0 })
      (driveTo d .halted false (driveOff d (sampleAt b offset.val) b))

/-! ### Commands -/

/-- DRIVE_RESET (Table 10-7). -/
def driveReset (d : Nat) (b : Block) : CmdOut :=
  if (drive b d).st ≠ .fault then .fail .notReady noDetail
  else .ok (onDrive d (fun v => { v with recoveries := [] }) (driveTo d .off false b)) []

def execDriveReset (h : Hdr) (drive : Fin 4) (s : State) : Host.Outcome State Fault Refusal :=
  s.act (runCmd h 0x020D [.drive drive.val] (driveReset drive.val))

/-- DRIVE_KE_CHECK (R387). -/
def driveKeCheck (d : Nat) (b : Block) : CmdOut :=
  if (drive b d).st ≠ .run then .fail .notReady noDetail else .ok (startCatch d (now b * 8000) b) []

def execDriveKeCheck (h : Hdr) (drive : Fin 4) (s : State) : Host.Outcome State Fault Refusal :=
  s.act (runCmd h 0x0B02 [.drive drive.val] (driveKeCheck drive.val))

/-- RESOLVER_OFFSET (R381): the offset found, in the response as well; only a pump has a resolver. -/
def resolverOffset (d : Nat) (found : W32) (b : Block) : CmdOut :=
  if !drvPump b d then badArg 0 else .ok (onDrive d (fun v => { v with offset := found }) b) [found]

def execResolverOffset (h : Hdr) (drive : Fin 4) (found : W32) (s : State) : Host.Outcome State Fault Refusal :=
  s.act (runCmd h 0x0B03 [.drive drive.val] (resolverOffset drive.val found))

/-- Electrical angle of a pump: POLE_PAIRS × the resolver angle plus the offset, wrapping (R381). -/
def pumpAngle (b : Block) (d : Nat) : W32 := w32 (drvPoles b d) * (drive b d).angle + (drive b d).offset

/-! ### Setpoints and configuration -/

/-- How Patrol reads a setpoint (R378). -/
def readSetpoint (b : Block) (d : Nat) (x : W32) : W32 :=
  if fIsNaN x then 0
  else
    let m := drvF b d 1
    let y := fclamp (fneg m) m x
    if !drvPump b d && flt (fabs y) (catchMin b d) then 0 else y

/-- A new setpoint; from OFF a non-zero one starts a catch window unless a leg is forced (Table 10-7). -/
def takeSetpoint (d : Nat) (x : W32) (b : Block) : Block :=
  let b := onDrive d (fun v => { v with setpoint := readSetpoint b d x }) b
  let v := drive b d
  if driveEn b d && v.st == .off && !fIsZero v.setpoint && !driveForced b d && !b.prot.frozen then
    startCatch d (now b * 8000) b
  else b

/-- Code of a drive state (Table 10-8). -/
def DriveSt.code : DriveSt → Nat
  | .off => 0
  | .catch => 1
  | .brake => 2
  | .align => 3
  | .openLoop => 4
  | .run => 5
  | .recover => 6
  | .halted => 7
  | .fault => 8

/-- An integer in a range. -/
def clampI (lo hi z : Int) : Int := max lo (min hi z)

/-- DRIVE_STATUS (Table 10-8). -/
def driveStatus (b : Block) (d : Nat) : List W32 :=
  let v := drive b d
  let sp := clampI (-32768) 32767 (s32 (ftoi 0 (fdiv v.speed (ofNatF 2))))
  let cu := clampI 0 65535 (s32 (ftoi 0 (fmul v.current (ofNatF 100))))
  [pack [fld v.st.code 31 28, flg v.sensorless 27, flg v.keBad 26, flg v.limited 25,
      fld (Nat.min 15 (recentRecoveries b d).length) 24 21],
   pack [fld (BitVec.ofInt 16 sp).toNat 31 16, fld cu.toNat 15 0]]

end Sys2Proof.Machine
end

