-- ==== Sys2Proof/Machine/SafeBlock.lean ====
section
/-! DEFINITION. The trip matrix, the frames between Patrol and Summit, safe block, safety outputs and degradations
(chapters 1, 9 and 12). -/

namespace Sys2Proof.Machine

/-! ### Safety outputs (R431 to R435) -/

def safeOut (b : Block) (k : Nat) : SafeOut := Tbl.get {} b.safe.out k
def onOut (k : Nat) (f : SafeOut → SafeOut) (b : Block) : Block := { b with safe.out := Tbl.upd {} b.safe.out k f }
def soInUse (b : Block) (k : Nat) : Bool := bit (cfgW b 0x80 0 0) (6 + k)
def coilMin (b : Block) : Nat := cfgN b 0x80 0 1 13 4

/-- The output opens and leaves the armed state; STATE tells a trip or demand apart (R432, Table 12-5). -/
def SafeOut.opened (o : SafeOut) (byTrip : Bool) : SafeOut :=
  { o with st := if byTrip ∧ (o.armed ∨ o.st = 1 ∨ o.st = 4) then 4 else 0, armed := false, high := false, low := false
           test := none, testLow := false }

/-- Whether a copy has an action of TRIP_MAP set for any input of its cause bitmap (R336). -/
def copyActs (b : Block) (c : MatrixCopy) (actBit : Nat) : Bool :=
  c.tripped && (List.range 72).any fun i => c.cause.getLsbD i && cfgBit b 0x15 i 0 actBit

/-- A copy with ACT_SO holds its switch of each output open, which disarms the output (R336, R432). -/
def applySo (b : Block) : Block :=
  if copyActs b b.prot.copyA 30 || copyActs b b.prot.copyB 30 then
    [0, 1].foldl (fun (b : Block) k => onOut k (fun o => if o.st = 0 then o else o.opened true) b) b
  else b

/-! ### Trip matrix (R333 to R340) -/

/-- Active inputs that are mapped. -/
def mappedActive (b : Block) : BitVec 72 :=
  b.prot.inputs &&& BitVec.ofNat 72 (bitmapOf ((List.range 72).filter fun i => cfgW b 0x15 i 0 ≠ 0))

/-- One copy takes the active mapped inputs (R335). -/
def MatrixCopy.take (c : MatrixCopy) (act : BitVec 72) : MatrixCopy :=
  if act &&& ~~~c.cause = 0 then c
  else { c with tripped := true, cause := c.cause ||| act, first := if c.tripped then c.first else act }

/-- Capture records of the inputs from 64 on that have become active since the last sample (R329). -/
def captureOthers (offset : Nat) (b : Block) : Block :=
  let b' := (List.range 8).foldl (fun (b : Block) i =>
    if b.prot.inputs.getLsbD (64 + i) && !b.prot.seen.getLsbD (64 + i) then capture (64 + i) offset true false b else b) b
  { b' with prot.seen := b'.prot.inputs }

/-- EV_TRIP (R340): TRIP_ID, the capture record of the tripping sample, FIRST, the copies that tripped. -/
def tripEvent (offset : Nat) (first : BitVec 72) (copies : Nat) (b : Block) : Block :=
  let i := ((List.range 72).find? fun i => first.getLsbD i).getD 0
  let under := decide (i < 48) && !(comp b i).fHi
  let id := w32 b.prot.tripId
  let b := { b with prot.tripId := b.prot.tripId + 1 }
  raise .trip ([id] ++ captureRec b i offset true under ++ bitmapWords 72 first.toNat ++ [w32 copies]) (recNote 2 id.toNat (noteStop id b))

/-- The sample in which mapped inputs are active: both copies act, unless one has failed (R335, R336, R340). -/
def matrixTrip (offset : Nat) (copies : BitVec 2) (b : Block) : Block :=
  let act := mappedActive b
  let b := captureOthers offset b
  let a' := if copies.getLsbD 0 then b.prot.copyA.take act else b.prot.copyA
  let b' := if copies.getLsbD 1 then b.prot.copyB.take act else b.prot.copyB
  if a' = b.prot.copyA ∧ b' = b.prot.copyB then b
  else
    let newA := a'.tripped && !b.prot.copyA.tripped
    let newB := b'.tripped && !b.prot.copyB.tripped
    let first := if newA then a'.first else b'.first
    let b := { b with prot := { b.prot with copyA := a', copyB := b' } }
    let la := copyActs b a' 31
    let lb := copyActs b b' 31
    let b := { b with prot := { b.prot with
      burst := if la || lb then some (sampleAt b offset) else none
      differAt := if a'.tripped = b'.tripped then none else some (b.prot.differAt.getD (sampleAt b offset))
      copyA := { a' with line := la || b.prot.lossLine }, copyB := { b' with line := lb || b.prot.lossLine } } }
    let b := applySo (applyHolds (sampleAt b offset) b)
    let b := if newA || newB then tripEvent offset first (newA.toNat + 2 * newB.toNat) b else b
    immediateStop (stopRow 0) b

def execTripMatrixTrip (offset : Fin 8192) (copies : BitVec 2) (s : State) : Host.Outcome State Fault Refusal :=
  s.act (matrixTrip offset.val copies)

/-- The block lines fall until the next boundary: 64 slots after the tripping sample, 16 slots after a boundary (R336), unless
Patrol holds them for the loss of the Summit die (R42). -/
def burstEnd (offset : Nat) (b : Block) : Block :=
  let past : Bool := match b.prot.burst with
    | some t => decide (t + 268 ≤ sampleAt b offset)
    | none => decide (66 ≤ offset)
  if !past then b
  else { b with prot := { b.prot with burst := none, copyA.line := b.prot.lossLine, copyB.line := b.prot.lossLine } }

def execBlockBurstEnd (offset : Fin 8192) (s : State) : Host.Outcome State Fault Refusal := s.act (burstEnd offset.val)

/-- Force a copy to TRIPPED with input 69 in its cause bitmap (R337). -/
def MatrixCopy.force (c : MatrixCopy) : MatrixCopy :=
  if c.tripped then c else { c with tripped := true, cause := c.cause ||| (1#72 <<< 69), first := 1#72 <<< 69, line := true }

/-- The copies have differed for more than 16 samples (R337). -/
def matrixDisagree (offset : Nat) (b : Block) : Block :=
  if b.prot.copyA.tripped = b.prot.copyB.tripped ∨ sampleAt b offset ≤ b.prot.differAt.getD 0 + 16 then b
  else
    let b := { b with prot := { b.prot with
      matrixFault := true, differAt := none, burst := some (sampleAt b offset), copyA := b.prot.copyA.force, copyB := b.prot.copyB.force } }
    let b := applySo (applyHolds (sampleAt b offset) (setInput 69 true b))
    let b := setDegr 5 (raise .matrixFault [] b)
    immediateStop (stopRow 0) b

def execMatrixDisagree (offset : Fin 8192) (s : State) : Host.Outcome State Fault Refusal :=
  s.act (matrixDisagree offset.val)

/-- Once per stride: the CRC of each copy's TRIP_MAP and COMP_CFG (R337). -/
def matrixCrc (bad : Bool) (b : Block) : Block :=
  let was := b.prot.crcBad
  let agree := b.prot.copyA.tripped == b.prot.copyB.tripped
  let b := { b with prot := { b.prot with crcBad := bad, matrixFault := bad || !agree } }
  let b := setInput 69 (bad || !agree || b.prot.pcfgBad) b
  if bad && !was then setDegr 5 (raise .matrixFault [] b) else b

def execMatrixCrcCheck (badA badB : Bool) (s : State) : Host.Outcome State Fault Refusal :=
  s.act (matrixCrc (badA || badB))

/-- Inputs that refuse a clear of the matrix: active mapped inputs, and mapped comparators latched with LATCH = 0
(R350). -/
def clearRefused (b : Block) : List Nat :=
  (List.range 72).filter fun i =>
    cfgW b 0x15 i 0 ≠ 0 && (b.prot.inputs.getLsbD i
      || (decide (i < 48) && compRoute b i 17 && (comp b i).latched && !cfgBit b 0x14 i 1 21))

/-- Legs that a matrix copy holds off. -/
def matrixLegs (b : Block) : Nat :=
  bitmapOf ((List.range 16).filter fun n => copyHolds b b.prot.copyA n || copyHolds b b.prot.copyB n)

/-- PROT_CLEAR of the trip matrix: EN of its legs returns at the next boundary (R350). -/
def protClearMatrix (lo hi : W32) (b : Block) : CmdOut :=
  if lo ≠ 0 then badArg 1
  else if hi ≠ 0 then badArg 2
  else if !atRest b then .fail .wrongMode noDetail
  else
    let r := bitmapOf (clearRefused b)
    if r = 0 then
      .ok { b with prot := { b.prot with
        burst := none, differAt := none, clearLegs := BitVec.ofNat 16 (matrixLegs b)
        copyA := { line := b.prot.lossLine }, copyB := { line := b.prot.lossLine } } } [0, 0, 0]
    else .part b .causeActive [w32 ((r / 2 ^ 64) * 2 ^ 24), w32 r, w32 (r / 2 ^ 32)]

def execProtClearMatrix (h : Hdr) (rsv : BitVec 29) (lo hi : W32) (s : State) : Host.Outcome State Fault Refusal :=
  s.act (runCmd h 0x0208 [] (unlessRsv (rsv != 0) 0 (protClearMatrix lo hi)))

/-! ### The local-leg frame (Table 1-2, R57, R369) -/

/-- The Summit completes the frame of its stride: role, edges, setpoints, angles, writes and trip requests. -/
def frameSend (edges setpoints : List W32) (resolvers : List (Option (W32 × W32))) (b : Block) : Block :=
  if !sysRuns b then b
  else
    let f : LegFrame := { stride := now b, role := b.pair.role, edges := edges.take 64, setpoints := setpoints.take 4
                          resolvers := resolvers.take 2, writes := b.prot.writes
                          trip66 := b.prot.want66 || b.prot.therm66
                          trip67 := b.prot.goose.any fun kv => kv.2.request && cfgBit b 0x19 kv.1 0 7 }
    { b with prot := { b.prot with sent := some f, writes := [], want66 := false } }

def execLocalLegFrameSend (edges setpoints : List W32) (resolvers : List (Option (W32 × W32))) (s : State) :
    Host.Outcome State Fault Refusal :=
  s.act (frameSend edges setpoints resolvers)

/-- Edges of leg `n` in a frame. -/
def legEdgesOf (l : List W32) (n : Nat) : List W32 := l.filter fun e => bits e 18 15 == n

/-- TIMEs strictly ascending. -/
def ascending (l : List W32) : Bool := (l.zip l.tail).all fun (x : W32 × W32) => decide (bits x.1 31 19 < bits x.2 31 19)

/-- Whether all edges of leg `n` are accepted (R369). -/
def legEdgesOk (b : Block) (l : List W32) (n : Nat) : Bool :=
  let es := legEdgesOf l n
  let src := match legFunc b n with
    | 1 => true
    | 2 => match chopOf b n with
      | some k => chopMode b k == 2 && !(chop b k).requested
      | none => false
    | _ => false
  decide (es.length ≤ 8) && ascending es && es.all (fun e => bits e 14 13 != 3) && (src || es == [])

/-- Patrol receives the frame of its stride. -/
def frameReceive (b : Block) : Block :=
  match b.prot.sent with
  | none => b
  | some f =>
    if f.stride ≠ now b then b
    else
      let bad := (List.range 16).filter fun n => !legEdgesOk b f.edges n
      let b := bad.foldl (fun (b : Block) n => onLeg n (fun l => { l with rejects := satInc 255 l.rejects }) b) b
      let edges := f.edges.filter fun e => !bad.contains (bits e 18 15)
      let b := { b with prot := { b.prot with shadow := { f with edges := edges }, got := true, missed := 0, sent := none
                                              role := f.role } }
      setInput 67 f.trip67 (setInput 66 f.trip66 b)

def execLocalLegFrame (s : State) : Host.Outcome State Fault Refusal := s.act frameReceive

/-- The frame is missing or fails its CRC: the edges of the stride before are repeated, and pumps have no angle (R57,
R370). -/
def execLocalLegFrameMissing (s : State) : Host.Outcome State Fault Refusal :=
  s.act fun b =>
    if b.prot.got ∨ b.prot.missAt = some (now b) then b
    else { b with prot := { b.prot with missed := b.prot.missed + 1, missAt := some (now b), sent := none } }

/-- Patrol makes a written entry run: a comparator re-arms, a disabled drive goes OFF, an unused leg is held off, an output no
longer in use opens (R431). -/
def patrolApply (st ix : Nat) (words : List W32) (b : Block) : Block :=
  let b := setCfg st ix words b
  match st with
  | 0x14 =>
    let b := armComp ix 0 b
    if (comp b ix).failed && compRoute b ix 17 then setDegr 6 b else b
  | 0x80 => [0, 1].foldl (fun (b : Block) k => if soInUse b k then b else onOut k (fun o => o.opened false) b) b
  | 0x1A => if legFunc b ix = 0 then legCommand ix 0 (now b * 8000) b else b
  | 0x1B => if driveEn b ix then b else driveTo ix .off false (driveOff ix (now b * 8000) b)
  | _ => b

/-- Speed setpoints and resolver angles of the loaded frame (R378, R381). -/
def loadDrives (f : LegFrame) (b : Block) : Block :=
  (List.range 4).foldl (fun (b : Block) d =>
    let r := (f.resolvers.getD (cfgBit b 0x1B d 0 17).toNat none)
    let b := onDrive d (fun v => match r with
      | some (a, w) => { v with angle := a, resSpeed := w, resValid := true }
      | none => { v with resValid := false }) b
    takeSetpoint d (word f.setpoints d) b) b

/-- What a boundary does to one leg: STATE of the last boundary and the run of strides with a refresh (R375, R376). -/
def Leg.boundary (l : Leg) : Leg :=
  { l with atBoundary := if l.len then (if l.lp then 2 else 1) else 0, refreshed := false
           starveRun := if l.refreshed then l.starveRun + 1 else 0
           starveTold := l.starveTold && l.refreshed }

/-- Every unit lane is in electrical idle and nothing waits to leave: the Summit die is in reset, its SYS clock absent (R17,
R42, R152). -/
def lanesIdle (b : Block) : Block :=
  (List.range 36).foldl (fun (b : Block) k => onPort k (fun p => { p with txIdle := true, exit := 0, eidle := 0, tx := [], blockSlots := 0 }) b)
    { b with prot.ownOsc := true }

/-- Patrol's work at a boundary (R57, R328, R336): the frame's edges and writes take effect, latches of one stride clear,
a standing trip sends its 16 slots, a due Summit reset is asserted. -/
def patrolBoundary (b : Block) : Block :=
  let f := b.prot.shadow
  let b := if b.prot.got then
      let b := { b with prot := { b.prot with legEdges := f.edges, got := false, shadow := { f with writes := [] } } }
      loadDrives f (f.writes.foldl (fun (b : Block) w => patrolApply w.1 w.2.1 w.2.2 b) b)
    else b
  let b := b.safe.commitDue.foldl (fun (b : Block) w =>
      if cfgEntry b (w.1 / 65536) (w.1 % 65536) = w.2 then b else patrolApply (w.1 / 65536) (w.1 % 65536) w.2 b)
    { b with safe.commitDue := [] }
  let b := (List.range 48).foldl (fun (b : Block) c =>
    if cfgBit b 0x14 c 1 21 && (comp b c).latched && !(comp b c).filt then
      onComp c (fun v => { v with latched := false }) b else b) b
  let b := { b with prot := { b.prot with
    legs := Tbl.mapAll {} b.prot.legs fun _ l => l.boundary
    chops := Tbl.mapAll {} b.prot.chops fun _ c => { c with rest := false }
    drives := Tbl.mapAll {} b.prot.drives fun _ v => { v with current := v.peak, peak := 0, limited := v.limNow, limNow := false }
    burst := none, clearLegs := 0 } }
  let la := copyActs b b.prot.copyA 31
  let lb := copyActs b b.prot.copyB 31
  let due : Bool := match b.prot.resetAt with
    | some t => decide (t ≤ now b)
    | none => false
  let b := { b with prot := { b.prot with copyA := { b.prot.copyA with line := la || b.prot.lossLine }
                                          copyB := { b.prot.copyB with line := lb || b.prot.lossLine }
                                          summitReset := b.prot.summitReset || due
                                          resetAt := if due then none else b.prot.resetAt } }
  if due then lanesIdle b else b

def execPatrolBoundary (s : State) : Host.Outcome State Fault Refusal := s.act patrolBoundary

/-- R42, R43: by the role of the last valid frame the block lines; EN of legs that serve no chopper and no drive; both
outputs; Summit reset one stride after the lines, or at once: as partner or relay, or where a rail's reset acts (`atOnce`). -/
def loseSummit (atOnce : Bool) (b : Block) : Block :=
  let lead := treatedLead b.prot.role
  let now? := atOnce || !lead
  let b := { b with prot := { b.prot with
    summitLost := true, lossLine := lead
    copyA := { b.prot.copyA with line := lead || b.prot.copyA.line }
    copyB := { b.prot.copyB with line := lead || b.prot.copyB.line }
    summitReset := now?
    resetAt := if now? then none else some (now b + 1) } }
  let b := (List.range 16).foldl (fun (b : Block) n =>
    if legFunc b n = 2 ∨ legFunc b n = 3 then b else legCommand n 0 (now b * 8000) b) b
  let b := [0, 1].foldl (fun (b : Block) k => onOut k (fun o => o.opened false) b) b
  if now? then lanesIdle b else b

/-- R21: two frames missing, or SYS out of lock for two strides. -/
def summitLost (b : Block) : Block :=
  if b.prot.summitLost ∨ b.prot.frozen ∨ (b.prot.missed < 2 ∧ !b.prot.sysOut) then b else loseSummit false b

def execSummitLost (s : State) : Host.Outcome State Fault Refusal := s.act summitLost

/-- The words of Patrol's status frame: LEG_STATUS (R376), DRIVE_STATUS (R388), DEGR (R437), the dip state of each rail
(R508). -/
def statusWords (b : Block) : List W32 :=
  (List.range 16).map (legStatus b) ++ (List.range 4).flatMap (driveStatus b) ++ [w32 b.safe.degr.toNat
    , w32 (bitmapOf ((List.range 16).filter fun r => (Tbl.get {} b.sup.rails r).dipAt.isSome))]

/-- R22: Patrol's status frame of a stride arrives; one that passes its CRC shows that Patrol is present, one that fails it
counts as missing. -/
def patrolStatus (crcOk : Bool) (b : Block) : Block :=
  if crcOk then
    { b with prot := { b.prot with patrolLost := false, statusMissed := 0, statusAt := now b, status := statusWords b } }
  else { b with prot.statusMissed := satInc 2 b.prot.statusMissed }

def execPatrolStatusFrame (crcOk : Bool) (s : State) : Host.Outcome State Fault Refusal := s.act (patrolStatus crcOk)

/-- R22, R44: two status frames missing, those of the two strides behind the one in which the last good frame came. The legs are low by their pull-downs, the outputs open for want of supply; BLOCK on
every active lane in every role, and SAFE. Not within the first 10 ms of a commanded Patrol restart (R569). -/
def patrolLost (b : Block) : Block :=
  let restarting : Bool := match b.prot.restartAt with
    | some t => decide (now b < t + 1000)
    | none => false
  if restarting ∨ b.prot.patrolLost = true ∨ now b < b.prot.statusAt + 2 then b
  else
    let b := { b with prot := { b.prot with patrolLost := true, statusMissed := 2
                                            legs := Tbl.mapAll {} b.prot.legs fun _ l => { l with len := false, onAt := none } } }
    let b := [0, 1].foldl (fun (b : Block) k => onOut k (fun o => o.opened false) b) b
    let b := if sends b ∧ b.md.mode ≠ .safe ∧ b.md.imm.isNone then b else sendBlock 16 b
    immediateStop (stopRow 1) b

def execPatrolLost (s : State) : Host.Outcome State Fault Refusal := s.act patrolLost

/-! ### Safe-block inputs (R423 to R430) -/

/-- A safe-block demand (R427): input 65, EV_SAFE_BLOCK unless one stands already. -/
def setDemand (cause offset : Nat) (b : Block) : Block :=
  if b.safe.demand then b
  else
    let b := setInput 65 true { b with safe := { b.safe with demand := true, coreDemand := cause == 3 } }
    raise .safeBlock ([w32 cause] ++ w64 (now b) ++ [w32 offset, wBool b.safe.filtA, wBool b.safe.filtB]) b

/-- A filtered state takes the level that its ball has held without a break for SPB_FILT, `held` in 0.1 ms (R425). -/
def spbTakes (b : Block) (old : Bool) (x : Option (Bool × Nat)) : Option Bool :=
  match x with
  | some (v, held) => if v != old && decide (cfgN b 0x80 0 0 31 24 ≤ held) then some v else none
  | none => none

/-- The filtered states of the channels change in a sample. -/
def spbChange (a c : Option (Bool × Nat)) (offset : Nat) (b : Block) : Block :=
  let a := spbTakes b b.safe.filtA a
  let c := spbTakes b b.safe.filtB c
  let fellA := b.safe.filtA && a == some false
  let fellB := b.safe.filtB && c == some false
  let b := { b with safe := { b.safe with
    filtA := a.getD b.safe.filtA, filtAAt := if a.isSome then now b else b.safe.filtAAt
    filtB := c.getD b.safe.filtB, filtBAt := if c.isSome then now b else b.safe.filtBAt } }
  if fellA && fellB then setDemand 2 offset b
  else if fellA then setDemand 0 offset b
  else if fellB then setDemand 1 offset b
  else b

def execSpbFilterChange (a b : Option (Bool × Nat)) (offset : Fin 8192) (s : State) : Host.Outcome State Fault Refusal :=
  s.act (spbChange a b offset.val)

def execCoreDisagree (offset : Fin 8192) (s : State) : Host.Outcome State Fault Refusal :=
  s.act (setDemand 3 offset.val)

/-- One check of a channel in a test pulse: two failures in a row set its fault (R426). -/
def pulseCheck (chan : Nat) (ok : Bool) (b : Block) : Block :=
  let high := if chan = 0 then b.safe.filtA else b.safe.filtB
  if !high then b
  else if chan = 0 then
    let b := { b with safe := { b.safe with failA := if ok then 0 else b.safe.failA + 1, passA := if ok then b.safe.passA + 1 else 0 } }
    if 2 ≤ b.safe.failA then setDegr 0 b else b
  else
    let b := { b with safe := { b.safe with failB := if ok then 0 else b.safe.failB + 1, passB := if ok then b.safe.passB + 1 else 0 } }
    if 2 ≤ b.safe.failB then setDegr 1 b else b

/-- A pulse is due: 100 ms ± 1 ms after the last on the output, that of SPT_B 50 ms after that of SPT_A (R426). -/
def pulseDue (b : Block) (chan : Nat) : Bool :=
  let since : Option Nat → Nat → Bool := fun t n => match t with
    | some t => decide (t + n ≤ now b)
    | none => true
  if chan = 0 then since b.safe.sptA 9900 else b.safe.sptA.isSome && since b.safe.sptA 4900 && since b.safe.sptB 9900

/-- A pulse on one SPT output: its own ball must follow, the other must stay high (R426). -/
def execSptTestPulse (channel : Fin 2) (own other : Bool) (s : State) : Host.Outcome State Fault Refusal :=
  s.act fun b =>
    if cfgBit b 0x80 0 0 23 || !pulseDue b channel.val then b
    else
      let b := if channel.val = 0 then { b with safe.sptA := some (now b) } else { b with safe.sptB := some (now b) }
      pulseCheck (1 - channel.val) other (pulseCheck channel.val own b)

/-- R428: one channel low for DISC_TIME while the other has stayed high. -/
def execSpbDiscrepancy (s : State) : Host.Outcome State Fault Refusal :=
  s.act fun b =>
    let t := cfgN b 0x80 0 0 22 13 * 100
    let long := decide (b.safe.filtAAt + t ≤ now b) && decide (b.safe.filtBAt + t ≤ now b)
    if b.safe.filtA != b.safe.filtB && long then setDegr 2 b else b

/-! ### Arming and tests of the outputs (R432 to R434) -/

def pairMember (b : Block) : Bool := pairEn b

/-- An output is stuck off: opened, disarmed; a solo unit stops, a pair member is degraded (R433, R434). -/
def stuckOff (k sw : Nat) (b : Block) : Block :=
  let b := onOut k (fun o => { (o.opened false) with stuckOff := true }) b
  let b := raise .soFault [w32 k, w32 sw, 1] b
  if pairMember b then setDegr 4 { b with safe.degrItem4 := w32 (2 * k + sw) } else immediateStop 9 b

/-- The next output in use that is not armed starts its sequence (Table 12-2). -/
def armNext (b : Block) : Block :=
  match [0, 1].find? fun k => soInUse b k && !(safeOut b k).armed with
  | some k => onOut k (fun o => { o with st := 1, armStep := 1, stepAt := now b, armFail := 0, high := false, low := true }) b
  | none => b

/-- SAFETY_ARM (R432). -/
def safetyArm (b : Block) : CmdOut :=
  if !atRest b then .fail .wrongMode noDetail
  else if b.prot.copyA.tripped || b.prot.copyB.tripped || b.safe.demand || b.prot.pcfgBad
      || (b.safe.backstop && b.safe.degr != 0) then .fail .notReady noDetail
  else if [0, 1].all fun k => !soInUse b k || (safeOut b k).armed then .ok b []
  else .wait (armNext b) [.safetyOut 0, .safetyOut 1] []

def execSafetyArm (h : Hdr) (s : State) : Host.Outcome State Fault Refusal :=
  s.act (runCmd h 0x020A [.safetyOut 0, .safetyOut 1] safetyArm)

/-- The next step of the sequence, or the closed output. -/
def SafeOut.advance (S : Nat) (o : SafeOut) : SafeOut :=
  match o.armStep with
  | 1 => { o with armStep := 2, stepAt := S, high := true, low := false }
  | 2 => { o with armStep := 3, stepAt := S, high := true, low := true }
  | _ => { o with st := 2, armStep := 0, armed := true, stuckOff := false }

/-- A step of the arming sequence ends with the measured current in mA: the first two after 1 ms, the last within 10 ms
(Table 12-2). -/
def armStep (current : Nat) (b : Block) : Block :=
  match [0, 1].find? fun k => (safeOut b k).st == 1 with
  | none => endWaiting (fun w => w.op == 0x020A) .soFault [] b
  | some k =>
    let o := safeOut b k
    let hold := b.prot.copyA.tripped || b.prot.copyB.tripped || b.safe.demand
    let pass := !hold && (if o.armStep = 3 then decide (coilMin b ≤ current) else decide (current < 5))
    let early := !hold && (if o.armStep = 3 then !pass && decide (now b < o.stepAt + 1000) else decide (now b < o.stepAt + 100))
    if early then b
    else if pass then
      let b := onOut k (SafeOut.advance (now b)) b
      if o.armStep = 3 then
        let b := armNext b
        if [0, 1].any fun k => (safeOut b k).st == 1 then b else endWaiting (fun w => w.op == 0x020A) .ok [] b
      else b
    else
      endWaiting (fun w => w.op == 0x020A) .soFault []
        (onOut k (fun o => { (o.opened false) with armFail := o.armStep, armStep := 0 }) b)

def execSafetyArmStep (current : Nat) (s : State) : Host.Outcome State Fault Refusal := s.act (armStep current)

/-- SAFETY_DISARM (R432). -/
def execSafetyDisarm (h : Hdr) (s : State) : Host.Outcome State Fault Refusal :=
  s.act (runCmd h 0x020B [.safetyOut 0, .safetyOut 1] fun b =>
    .ok ([0, 1].foldl (fun (b : Block) k => onOut k (fun o => o.opened false) b) b) [])

/-- R433: a test falls due every 2.5 s ± 0.1 s, in rotation, only on a closed output. -/
def execSoTestStart (s : State) : Host.Outcome State Fault Refusal :=
  s.act fun b =>
    let early : Bool := match b.safe.testAt with
      | some t => decide (now b < t + 240000)
      | none => false
    if b.prot.restartAt.isSome || early then b else
    let k := b.safe.nextTest / 2
    let sw := b.safe.nextTest % 2
    let b := { b with safe := { b.safe with nextTest := (b.safe.nextTest + 1) % 4, testAt := some (now b) } }
    if (safeOut b k).st = 2 then
      onOut k (fun o => { o with st := 3, stepAt := now b, test := some sw, testLow := false
                                 high := o.high && sw == 1, low := o.low && sw == 0 }) b
    else b

/-- Table 12-3: the check 50 µs after the switch opens, and the one within 1 ms after it closes, SO_PULSE after the start. -/
def testCheck (closed : Bool) (current : Nat) (b : Block) : Block :=
  match [0, 1].find? fun k => (safeOut b k).st == 3 with
  | none => b
  | some k =>
    let o := safeOut b k
    let sw := o.test.getD 0
    let shut := o.stepAt + cfgN b 0x80 0 0 12 8
    if !closed then
      if now b < o.stepAt + 5 ∨ shut ≤ now b then b
      else if current < 5 then onOut k (fun o => { o with testLow := true }) b
      else
        let b := onOut k (fun o => if sw = 0 then { o with hFault := true, hPassed := false }
          else { o with lFault := true, lPassed := false }) b
        raise .soFault [w32 k, w32 sw, 0] (setDegr 3 { b with safe.degrItem := w32 (2 * k + sw) })
    else if now b < shut then b
    else if current < coilMin b then
      if now b < shut + 100 then onOut k (fun o => { o with high := true, low := true }) b else stuckOff k sw b
    else onOut k (fun o =>
      let o := { o with st := 2, test := none, testLow := false, high := true, low := true }
      if (safeOut b k).testLow then
        { o with testCnt := satInc 65535 o.testCnt, hPassed := o.hPassed || sw == 0, lPassed := o.lPassed || sw == 1 }
      else o) b

def execSoTestCheck (closed : Bool) (current : Nat) (s : State) : Host.Outcome State Fault Refusal :=
  s.act (testCheck closed current)

/-- Outside a test, the current of a closed output is too low for 1 ms (Table 12-3). -/
def execSoCoilLow (output : Fin 2) (current strides : Nat) (s : State) : Host.Outcome State Fault Refusal :=
  s.act fun b =>
    if (safeOut b output.val).st = 2 ∧ current < coilMin b ∧ 100 ≤ strides then stuckOff output.val 0 b else b

/-- SO_STATUS (Table 12-5). -/
def soStatus (b : Block) (k : Nat) : W32 :=
  let o := safeOut b k
  pack [fld o.st 31 29, flg o.hFault 28, flg o.lFault 27, flg o.stuckOff 26, fld o.armFail 25 24, fld o.testCnt 15 0]

/-! ### Degradations and PLOUGH timers (R437 to R443) -/

def ploughStrides (b : Block) : Nat := cfgN b 0x80 0 1 31 23 * 6000000

/-- PLOUGH_LEFT in seconds (Table 12-6). -/
def ploughLeft (b : Block) : Nat :=
  let t := cfgN b 0x80 0 1 31 23 * 60
  match b.safe.degrSince with
  | none => t
  | some s => t - (now b - s) / 100000

/-- R439. -/
def execPloughExpired (s : State) : Host.Outcome State Fault Refusal :=
  s.act fun b =>
    match b.safe.degrSince with
    | none => b
    | some t => if t + ploughStrides b ≤ now b ∧ !b.safe.expired then
        raise .ploughExpired [] { b with safe.expired := true } else b

/-- R442: Patrol's own count reaches PLOUGH_TIME + 60 s. -/
def execPloughBackstop (s : State) : Host.Outcome State Fault Refusal :=
  s.act fun b =>
    match b.safe.degrSince with
    | none => b
    | some t =>
      if t + ploughStrides b + 6000000 ≤ now b ∧ !b.safe.backstop then
        let b := [0, 1].foldl (fun (b : Block) k => onOut k (fun o => o.opened false) b) b
        raise .ploughBackstop [] { b with safe.backstop := true }
      else b

/-- Whether comparator `c` counts against degradation COMP (Table 12-4). -/
def compOverdue (b : Block) (c : Nat) : Bool :=
  let due := cfgN b 0x80 0 1 22 14
  compRoute b c 17 && ((comp b c).failed || (due != 0 && (match (comp b c).passedAt with
    | some t => decide (t / 86400 + due < b.time.sec / 86400)
    | none => true)))

/-- TEST_DUE is evaluated once a day (R437). -/
def testDue (b : Block) : Block :=
  let day := b.time.sec / 86400
  if b.safe.dueDay = some day then b
  else
    let b := { b with safe.dueDay := some day }
    if (List.range 48).any (compOverdue b) then setDegr 6 b else b

def execTestDueCheck (s : State) : Host.Outcome State Fault Refusal := s.act testDue

/-- Whether the cause of degradation `k` has gone (Table 12-4). -/
def degrGone (b : Block) (k : Nat) : Bool :=
  match k with
  | 0 => decide (10 ≤ b.safe.passA)
  | 1 => decide (10 ≤ b.safe.passB)
  | 2 => b.safe.filtA == b.safe.filtB
  | 3 => [0, 1].all fun j => (!(safeOut b j).hFault || (safeOut b j).hPassed) && (!(safeOut b j).lFault || (safeOut b j).lPassed)
  | 4 => [0, 1].all fun j => !(safeOut b j).stuckOff
  | 5 => b.prot.copyA.tripped == b.prot.copyB.tripped && !b.prot.crcBad && atRest b
  | 6 => !(List.range 48).any (compOverdue b)
  | _ => false

/-- Clear one bit; the stuck-on flags go with theirs. -/
def degrClear (k : Nat) (b : Block) : Block :=
  let b := if k = 3 then [0, 1].foldl (fun (b : Block) j => onOut j (fun o => { o with hFault := false, lFault := false }) b) b
    else b
  clearDegr k b

/-- SAFETY_STATUS (Table 12-6). -/
def safetyStatus (b : Block) : W32 :=
  pack [fld b.safe.degr.toNat 31 24, flg b.safe.demand 23, flg b.safe.filtA 22, flg b.safe.filtB 21,
        flg b.safe.coreDemand 20, flg b.safe.backstop 19, flg b.safe.session.isSome 18, flg b.safe.lockUntil.isSome 17,
        fld (ploughLeft b) 15 0]

/-- EV_DEGRADED of the stride that ends (R437): DEGR before and after, bits set, bits cleared, and for bits 3 and 4 the
output and the switch. -/
def degrEvent (b : Block) : Block :=
  match b.safe.degrBefore with
  | none => b
  | some o =>
    let d := b.safe.degr
    let b := { b with safe.degrBefore := none }
    let ch := o ^^^ d
    if ch = 0 then b
    else
      let item := fun (w : W32) => [w32 (w.toNat / 2), w32 (w.toNat % 2)]
      raise .degraded ([w32 o.toNat, w32 d.toNat, w32 (ch &&& d).toNat, w32 (ch &&& o).toNat]
        ++ (if ch.getLsbD 3 then item b.safe.degrItem else []) ++ (if ch.getLsbD 4 then item b.safe.degrItem4 else [])) b

end Sys2Proof.Machine
end

