-- ==== Sys2Proof/Machine/SafeCfg.lean ====
section
/-! DEFINITION. Safety-configuration sessions, passwords and the change log (R444 to R448), and the commands that the log
records (R429, R441). -/

namespace Sys2Proof.Machine

/-! ### Records and digests (R448, R560, R573) -/

/-- Word 0 of R549. -/
def cfgHead (st ix : Nat) : W32 := pack [fld st 31 24, fld ix 23 8]

/-- The records of a list of structures in ascending STRUCT and INDEX, unwritten entries at their reset values. PAIR_CFG
counts with its word 0 alone (R560). -/
def recordsOf (b : Block) (structs : List Nat) : List W32 :=
  structs.flatMap fun st => (List.range (cfgCount st)).flatMap fun ix =>
    cfgHead st ix :: (if st = 0x81 then (cfgEntry b st ix).take 1 else cfgEntry b st ix)

/-- The structures of the Patrol configuration section (R560). -/
def patrolStructs : List Nat := [0x14, 0x15, 0x16, 0x18, 0x1A, 0x1B, 0x80, 0x81]

/-- The entries of the Patrol configuration section in flash, of the first bank that holds one. -/
def sectionTbl (b : Block) : Tbl (List W32) :=
  let i := if (stored b 3 0 0).valid then stored b 3 0 0 else stored b 3 0 1
  let l := if i.valid then (sectionOf i.words 3).getD [] else []
  (recordList l.length l).foldl (fun (t : Tbl (List W32)) r => Tbl.set [] t (cfgKey r.1 r.2.1) r.2.2) []

/-- The block with a table in place of the running entries of the section's structures. -/
def withSection (t : Tbl (List W32)) (b : Block) : Block :=
  let rest := b.cfg.filter fun e => !patrolStructs.contains (e.1 / 65536)
  { b with cfg := t.foldl (fun (c : Tbl (List W32)) e => Tbl.set [] c e.1 e.2) rest }

/-- The Patrol configuration section as bytes: its records and its password record. -/
def patrolSection (b : Block) : List Nat :=
  bytesOf (recordsOf (withSection (sectionTbl b) b) patrolStructs) ++ (match b.safe.pw with
    | some p => p.1 ++ p.2
    | none => [])

/-- CFG_DIGEST. -/
def cfgDigest (b : Block) : List W32 := wordsOf 16 (shake256 (patrolSection b) 64)

/-- Append a change-log entry (Table 12-9); the last 1,024 are retained, newest first. -/
def appendLog (kind : Nat) (operator : List W32) (b : Block) : Block :=
  let prev : List W32 := match b.safe.log with
    | e :: _ => digest64 (e.take 71)
    | [] => List.replicate 16 0
  let body := w64 b.safe.logSeq ++ w64 b.time.sec ++ [w32 b.time.ns, pack [fld kind 31 24, fld b.md.mode.code 23 21]]
    ++ (List.range 4).map (word operator) ++ cfgDigest b ++ prev
  let sig := signWords body
  { b with safe := { b.safe with log := ((body ++ sig ++ [0]) :: b.safe.log).take 1024, logSeq := b.safe.logSeq + 1 } }

/-- Operator label of the open session, zero outside one. -/
def operatorOf (b : Block) : List W32 :=
  match b.safe.session with
  | some s => s.label
  | none => [0, 0, 0, 0]

/-! ### Logged clears -/

/-- SPB_RESET (R429): a channel whose fault is set is not read. -/
def spbReset (b : Block) : CmdOut :=
  if !atRest b then .fail .wrongMode noDetail
  else if (!b.safe.filtA && !b.safe.degr.getLsbD 0) || (!b.safe.filtB && !b.safe.degr.getLsbD 1) then
    .fail .causeActive noDetail
  else
    let b := setInput 65 false { b with safe := { b.safe with demand := false, coreDemand := false } }
    .ok (appendLog 7 (operatorOf b) b) []

def execSpbReset (h : Hdr) (s : State) : Host.Outcome State Fault Refusal := s.act (runCmd h 0x0209 [] spbReset)

/-- SAFETY_DEGR_CLEAR (R441): each named bit on its own; the refused bits in the response. -/
def safetyDegrClear (mask : W32) (b : Block) : CmdOut :=
  if bits mask 31 8 ≠ 0 then badArg 0
  else
    let r := clearItems 8 (mask.toNat &&& b.safe.degr.toNat) (fun b k => !degrGone b k) degrClear b
    let b' := if r.2.safe.degr = b.safe.degr then r.2 else appendLog 6 (operatorOf b) r.2
    if r.1 = 0 then .ok b' [0] else .part b' .causeActive [w32 r.1]

def execSafetyDegrClear (h : Hdr) (mask : W32) (s : State) : Host.Outcome State Fault Refusal :=
  s.act (runCmd h 0x020C [] (safetyDegrClear mask))

/-! ### Passwords (R445) -/

def pwRounds : Nat → List Nat → List Nat → List Nat
  | 0, _, h => h
  | n + 1, salt, h => pwRounds n salt (shake256 (h ++ salt) 64)

/-- The 64-byte hash of a password under a salt. -/
def pwHash (salt pw : List Nat) : List Nat := pwRounds 16384 salt (shake256 (salt ++ pw) 64)

/-- A new record: the salt is drawn from the random source (log 2). -/
def newPassword (pw : List (BitVec 8)) (b : Block) : Block :=
  let (ws, b) := freshN b 4
  let salt := bytesOf ws
  { b with safe.pw := some (salt, pwHash salt (pw.map BitVec.toNat)) }

def pwLenOk (pw : List (BitVec 8)) : Bool := decide (12 ≤ pw.length ∧ pw.length ≤ 64)

/-- SAFE_CFG_SETPW (Table 12-8). -/
def setPassword (pw : List (BitVec 8)) (b : Block) : CmdOut :=
  if b.md.mode ≠ .service then .fail .wrongMode noDetail
  else if b.safe.pw.isSome then .fail .notReady noDetail
  else if !pwLenOk pw then badArg 0
  else .ok (appendLog 2 [0, 0, 0, 0] (newPassword pw b)) []

def execSafeCfgSetpw (h : Hdr) (password : List (BitVec 8)) (s : State) : Host.Outcome State Fault Refusal :=
  s.act (runCmd h 0x0A01 [] (setPassword password))

/-! ### Sessions (R444, R447) -/

/-- Strides of the lockout after `fails` failures: 10 min, doubling, up to 24 h. -/
def lockoutOf (fails : Nat) : Nat := Nat.min (60000000 * 2 ^ (fails - 5)) 8640000000

/-- SAFE_CFG_OPEN. -/
def openSession (pw : List (BitVec 8)) (label : List W32) (b : Block) : CmdOut :=
  if !atRest b then .fail .wrongMode noDetail
  else if b.safe.lockUntil.isSome then .fail .locked noDetail
  else if b.safe.session.isSome then .fail .busy noDetail
  else if label.length ≠ 4 then badArg 0
  else
    match b.safe.pw with
    | none => .fail .notReady noDetail
    | some (salt, hash) =>
      if pwHash salt (pw.map BitVec.toNat) = hash then
        .ok { b with safe := { b.safe with fails := 0, session := some { label := label, lastAt := now b } } } []
      else
        let n := b.safe.fails + 1
        let b := { b with safe.fails := n }
        .part (if n < 5 then b else appendLog 4 [0, 0, 0, 0] { b with safe.lockUntil := some (now b + lockoutOf n) })
          .badArg []

def execSafeCfgOpen (h : Hdr) (password : List (BitVec 8)) (label : List W32) (s : State) :
    Host.Outcome State Fault Refusal :=
  s.act (runCmd h 0x0A02 [] (openSession password label))

/-- A command within a session: ST_NO_SESSION without one; the session's clock restarts (R444). -/
def inSession (f : CfgSession → Block → CmdOut) (b : Block) : CmdOut :=
  match b.safe.session with
  | none => .fail .noSession noDetail
  | some s => f s { b with safe.session := some { s with lastAt := now b } }

/-- SAFE_CFG_PW. -/
def changePassword (pw : List (BitVec 8)) : Block → CmdOut :=
  inSession fun s b => if !pwLenOk pw then badArg 0 else .ok (appendLog 3 s.label (newPassword pw b)) []

def execSafeCfgPw (h : Hdr) (password : List (BitVec 8)) (s : State) : Host.Outcome State Fault Refusal :=
  s.act (runCmd h 0x0A04 [] (changePassword password))

/-- SAFE_CFG_COMMIT (R446): the flash writes of both banks decide (FLASH_WRITE_DONE). -/
def commitSession : Block → CmdOut :=
  inSession fun _ b => .wait b [.flash] []

def execSafeCfgCommit (h : Hdr) (s : State) : Host.Outcome State Fault Refusal :=
  s.act (runCmd h 0x0A05 [.flash] commitSession)

/-- The section with the session's staged entries over it. -/
def withStaged (s : CfgSession) (b : Block) : Block :=
  withSection (s.staged.foldl (fun (t : Tbl (List W32)) e => Tbl.set [] t e.1 e.2) (sectionTbl b)) b

/-- Zero words up to a multiple of 64 bytes. -/
def pad16 (l : List W32) : List W32 := l ++ List.replicate ((16 - l.length % 16) % 16) 0

/-- The image that SAFE_CFG_COMMIT writes: kind 3 for this device, signed by the identity key (Tables 17-1 to 17-4). -/
def ownImage (records password : List W32) (version : W32) : List W32 :=
  let sects : List (Nat × List W32) := (3, records) :: (if password = [] then [] else [(4, password)])
  let start := 16 * ((16 + 20 * sects.length + 29 + 15) / 16)
  let body := sects.flatMap fun x => pad16 x.2
  let entry := fun (off : Nat) (x : Nat × List W32) =>
    [pack [fld x.1 31 24], w32 (4 * off), w32 (4 * x.2.length), 0] ++ digest64 x.2
  let head := [0x4F4C5731, pack [fld 1 31 24, fld 3 23 16, fld sects.length 15 8], version, 0, w32 (4 * (start + body.length)),
      BitVec.ofNat 32 Config.deviceSerial.toNat, BitVec.ofNat 32 (Config.deviceSerial.toNat / 2 ^ 32)]
    ++ keyId identityKey ++ [0, 0, 0, 0, 0]
    ++ entry start (3, records) ++ (if password = [] then [] else entry (start + (pad16 records).length) (4, password))
  pad16 (head ++ signWords head) ++ body

/-- The section in flash becomes the running entries at the next boundary (R446), logged; PAIR_EN, RANK and PREF_LEAD wait for
the next Lift. -/
def committed (kind : Nat) (operator : List W32) (b : Block) : Block :=
  let t := sectionTbl b
  let keys := (t.map Prod.fst ++ (b.cfg.map Prod.fst).filter fun k => patrolStructs.contains (k / 65536)).eraseDups
  let due := (keys.filter (· != cfgKey 0x81 0)).map fun k => match Tbl.get [] t k with
    | [] => (k, cfgReset (k / 65536) (k % 65536))
    | l => (k, l)
  appendLog kind operator { b with safe.commitDue := due }

/-- Both banks are written with the staged copy, and the session closes (R444, R446). The spec gives the image no VERSION: it is free (log 2). -/
def commitStaged (s : CfgSession) (b : Block) : Block :=
  let pw := match b.safe.pw with
    | some p => wordsOf 20 (p.1 ++ p.2)
    | none => []
  let (v, b) := fresh b
  let l := ownImage (recordsOf (withStaged s b) patrolStructs) pw v
  let b := committed 1 s.label (storeImage 3 0 0 { valid := true, words := l } (storeImage 3 0 1 { valid := true, words := l } b))
  { b with safe.session := none }

/-- SAFE_CFG_ABORT. -/
def execSafeCfgAbort (h : Hdr) (s : State) : Host.Outcome State Fault Refusal :=
  s.act (runCmd h 0x0A06 [] (inSession fun _ b => .ok { b with safe.session := none } []))

/-- R444: 600 s without a command. -/
def execSafeCfgSessionTimeout (s : State) : Host.Outcome State Fault Refusal :=
  s.act fun b =>
    match b.safe.session with
    | some x => if x.lastAt + 60000000 ≤ now b then { b with safe.session := none } else b
    | none => b

/-- R447. -/
def execSafeCfgLockoutEnd (s : State) : Host.Outcome State Fault Refusal :=
  s.act fun b =>
    match b.safe.lockUntil with
    | some t => if t ≤ now b then { b with safe.lockUntil := none } else b
    | none => b

/-- SAFE_LOG_READ (R448): entries by SEQ; at most 14 fit the 1,020 words of a response. -/
def safeLogRead (first count : Nat) (b : Block) : CmdOut :=
  if count = 0 ∨ 14 < count then badArg 2
  else
    let hit := b.safe.log.reverse.filter fun e =>
      decide (first ≤ join64 (word e 0) (word e 1) ∧ join64 (word e 0) (word e 1) < first + count)
    if first < b.safe.logSeq - b.safe.log.length then .fail .overwritten noDetail
    else .ok b hit.flatten

def execSafeLogRead (h : Hdr) (first : W64) (count : Nat) (s : State) : Host.Outcome State Fault Refusal :=
  s.act (runCmd h 0x0A07 [] (safeLogRead first.toNat count))

end Sys2Proof.Machine
end

