-- ==== Sys2Proof/Machine/Time.lean ====
section
/-! DEFINITION. Time and clocks (chapter 13): the TAI counter, steps, the servo, its sources, SYNCO and SYNCI (R200 to
R202), PPS_OUT, the synthesizers and TIME_STATUS. -/

namespace Sys2Proof.Machine

/-! ### The counter (R453, R49) -/

/-- The counter in 2^-32 ns. -/
def tai (b : Block) : Nat := (b.time.sec * 1000000000 + b.time.ns) * 2 ^ 32 + b.time.sub

/-- Write the counter. -/
def setTai (v : Nat) (b : Block) : Block :=
  let ns := v / 2 ^ 32
  { b with time := { b.time with sec := m64 (ns / 1000000000), ns := ns % 1000000000, sub := v % 2 ^ 32 } }

/-- 10 µs in 2^-32 ns. -/
def strideLen : Nat := 10000 * 2 ^ 32

/-- The first cycle of the 400 MHz domain at or past the next boundary (R49, R453): of SYS, or of REFCLK with four times the
increment on the holding clock. Without REFCLK the counter stands (R475). -/
def nextBoundary (b : Block) : Block :=
  if !b.time.refOk then b
  else
    let t := tai b
    let goal := (t / strideLen + 1) * strideLen
    let step := if b.prot.sysOut then 4 * b.time.incr else b.time.incr
    setTai (t + (goal - t + step - 1) / step * step) b

/-- Time is acquired now (R461). -/
def acquired (b : Block) : Bool :=
  b.time.state == 2 || b.time.state == 3
    || (b.time.state == 5 && b.pair.alignOk && (b.time.leadState == 2 || b.time.leadState == 3))

/-- TAI − UTC in force (R469). -/
def taiUtc (b : Block) : Int :=
  match b.time.src, b.time.utcOff with
  | 1, some u => u
  | _, _ => s32 (cfgW b 0x21 0 2) + b.time.leapAdj

/-- UTC seconds of the counter. -/
def utcSec (b : Block) : Nat := ((b.time.sec : Int) - taiUtc b).toNat

/-! ### Servo states (Table 13-4) -/

/-- What is kept of acquired time: that it ever was, and since when it is lost (R280, R486). -/
def noteAcquired (b : Block) : Block :=
  let is := acquired b
  { b with time := { b.time with
    acquired := b.time.acquired || is, lostAt := if is then none else some (b.time.lostAt.getD (now b)) } }

/-- Move the servo, with EV_TIME_STATE. -/
def setTimeState (n : Nat) (b : Block) : Block :=
  let old := b.time.state
  if old = n then b
  else
    let b := noteAcquired { b with time := { b.time with state := n, okRun := 0, holdAt := if n = 3 then some (now b) else none } }
    mirror (now b + 1) cmdTimeState [w32 n] (raise .timeState [w32 old, w32 n] b)

def timeSrc (b : Block) (s : Nat) : TimeSrc := Tbl.get {} b.time.srcs s
def onSrc (s : Nat) (f : TimeSrc → TimeSrc) (b : Block) : Block :=
  { b with time := { b.time with srcs := Tbl.upd {} b.time.srcs s f } }

/-- Rank of a source (Table 13-3); 0 unused. -/
def srcRank (b : Block) (s : Nat) : Nat :=
  match s with
  | 1 => cfgN b 0x21 0 0 31 30
  | 2 => cfgN b 0x21 0 0 29 28
  | _ => cfgN b 0x21 0 0 27 26

/-- A source the servo may select: qualified, with a rank, 1PPS with IRIG-B to label it (R462, R466). -/
def srcUsable (b : Block) (s : Nat) : Bool :=
  (timeSrc b s).qualified && srcRank b s != 0 && (s != 2 || (timeSrc b 3).qualified)

/-- The usable source of highest rank, 0 if none. -/
def bestSrc (b : Block) : Nat :=
  ([1, 2, 3].filter (srcUsable b)).foldl (fun m s => if m = 0 ∨ srcRank b s < srcRank b m then s else m) 0

/-- Mean of the period estimates of the last 60 s in LOCKED (R463). -/
def holdPeriod (b : Block) : Nat :=
  let l := (b.time.estHist.filter fun x => now b ≤ x.1 + 6000000).map Prod.snd
  if l = [] then b.time.est else l.foldl (· + ·) 0 / l.length

/-- EV_TIME_DISAGREE when two usable sources come to differ by more than 1 µs (R462). -/
def disagree (b : Block) : Block :=
  let l := [1, 2, 3].filter (srcUsable b)
  let bad := l.find? fun s => l.any fun t =>
    decide (1000000 < (timeSrc b s).offset - (timeSrc b t).offset) || decide (1000000 < (timeSrc b t).offset - (timeSrc b s).offset)
  match bad with
  | some s =>
    if b.time.disagree then b
    else raise .timeDisagree [w32 (bestSrc b), w32 s] { b with time.disagree := true }
  | none => { b with time.disagree := false }

/-- HOLDOVER begins: the estimate is the mean of the last 60 s, the drift a free value (R463, log 2). -/
def enterHoldover (b : Block) : Block :=
  let b := { b with time := { b.time with est := holdPeriod b, holdDrift := (fresh b).1 } }
  setTimeState 3 { b with free := b.free + 1 }

/-- Select a source and move the servo for what came or went (R462, Table 13-4). -/
def selectSource (b : Block) : Block :=
  let old := b.time.src
  let new := bestSrc b
  let b := disagree b
  if old = new then b
  else
    let b := { b with time := { b.time with src := new, okRun := 0, left := (timeSrc b new).offset * 100 } }
    let b := if old ≠ 0 ∧ new ≠ 0 ∧ (b.time.state = 1 ∨ b.time.state = 2) then
      raise .timeSource [w32 old, w32 new] b else b
    match b.time.state with
    | 1 => if new = 0 then setTimeState 4 b else b
    | 2 => if new = 0 then enterHoldover b else b
    | 3 | 4 => if new = 0 then b else setTimeState 1 b
    | _ => b

/-- The unit's role in its exchange word (R390) and in the servo (Table 13-4, R461). A unit that comes out of PAIR judges its
own sources: LOCKED without one is HOLDOVER, LOST with one ACQUIRE: DEDUCED (log 33). -/
def timeRole (b : Block) : Block :=
  let b := xwrite 0x0A03 (w32 b.pair.role) b
  let follows := b.pair.role == 3 || b.pair.role == 4
  if follows then setTimeState 5 b
  else if b.time.state = 5 then
    if acquired b then
      let b := setTimeState 2 b
      if b.time.src = 0 then enterHoldover b else b
    else
      let b := setTimeState 4 b
      if b.time.src = 0 then b else setTimeState 1 b
  else b

/-- A measurement of source `s`: it counts as consistent with the one before, or it failed (R462). -/
def sourceMeasure (s need : Nat) (agrees : Bool) (offset : Option Int) (mark : Option Int) (b : Block) : Block :=
  let b := onSrc s (fun (x : TimeSrc) =>
    match offset with
    | none =>
      { x with good := 0, bad := x.bad + 1, qualified := x.qualified && decide (x.bad + 1 < 3), lastMark := mark, at? := some (now b) }
    | some o =>
      let good := if agrees then x.good + 1 else 1
      let bad := if agrees ∨ x.good = 0 then 0 else x.bad + 1
      { qualified := (x.qualified || decide (need ≤ good)) && decide (bad < 3)
        good := good, bad := bad, offset := o, fresh := true, lastMark := mark, at? := some (now b) }) b
  selectSource b

/-! ### Steps (R52, R458) -/

/-- No lane slot ACTIVE or INTEGRATING, no chain fed (R52). -/
def stepAllowed (b : Block) : Bool :=
  !(b.cells.any fun c => c.2.slot == .active || c.2.slot == .integrating) && b.pair.feeding == 0

/-- A snapshot whose boundary a step has passed ends with RESULT 3 (Table 16-14). -/
def snapStepped (t : Nat) (x : Snap) : Snap :=
  if x.st = 0 ∧ x.boundary < t then { x with st := 2, result := 3, doneAt := t } else x

/-- Step the counter by the multiple of 10 µs nearest to `delta` ps (R458); actions it passes end (R52). -/
def stepCounter (delta : Int) (why : Nat) (b : Block) : Block :=
  let k : Int := (delta + 5000000) / 10000000
  let b := setTai (((tai b : Int) + k * strideLen).toNat) { b with sup.stageAt := ((b.sup.stageAt : Int) + k).toNat }
  let d := k * 10000000
  let steps := k
  let b := { b with
    time := { b.time with
      steps := satInc 65535 b.time.steps
      srcs := Tbl.mapAll {} b.time.srcs fun k (x : TimeSrc) => { x with
        offset := x.offset - d, lastMark := if k = 2 then x.lastMark.map (· + d) else x.lastMark
        at? := x.at?.map fun t => ((t : Int) + steps).toNat }
      left := (delta - d) * 100 }
    recd := { b.recd with openRecs := b.recd.openRecs.map fun (r : RecordR) => { r with step := true } }
    tw := { b.tw with lines := Tbl.mapAll none b.tw.lines fun _ e => e.map fun (e : TwEvent) => { e with step := true } } }
  let b := raise .timeStep (w64 ((k * 10000) % 2 ^ 64).toNat ++ [w32 why]) b
  let b := { b with snaps := { b.snaps with list := b.snaps.list.map (snapStepped (now b)) } }
  let b := { b with pair.joining := b.pair.joining.filter fun B => decide (now b ≤ B) }
  cancelActions (fun a => decide (a.boundary < now b)) .timeStepped b

/-- The Lift step (Table 13-2, R459). -/
def liftStep (b : Block) : Block :=
  let o := (timeSrc b b.time.src).offset
  if b.time.state = 0 ∧ b.time.liftStep ∧ b.time.src ≠ 0 ∧ (1000000 < o ∨ o < -1000000) ∧ stepAllowed b then
    setTimeState 1 (stepCounter o 0 { b with time.liftStep := false })
  else b

def execLiftStep (s : State) : Host.Outcome State Fault Refusal := s.act liftStep

/-- UNSET at a boundary with an offset of at most 1 µs: the Lift step is not used (Table 13-4). -/
def liftNoStep (b : Block) : Block :=
  let o := (timeSrc b b.time.src).offset
  if b.time.state = 0 ∧ b.time.src ≠ 0 ∧ -1000000 ≤ o ∧ o ≤ 1000000 then
    setTimeState 1 { b with time.liftStep := false }
  else b

/-- TIME_STEP (R458): the selected source's offset, or the host's value in ns. -/
def timeStepCmd (h : Hdr) (B : Nat) (delta : Option Int) (b : Block) : CmdOut :=
  if b.md.mode ≠ .safe then .fail .wrongMode noDetail
  else match checkBoundary b B with
    | some st => .fail st noDetail
    | none =>
      if delta.isNone ∧ b.time.src = 0 then .fail .notReady noDetail
      else .ok (addAction { boundary := B, kind := .timeStep delta, op := 0x0601, h := h } b) []

def execTimeStep (h : Hdr) (boundary : Nat) (delta : Option Int) (s : State) : Host.Outcome State Fault Refusal :=
  s.act (runCmd h 0x0601 [] (timeStepCmd h boundary delta))

/-- One TIME_STEP at its boundary. -/
def timeStepAct (a : Action) (delta : Option Int) (b : Block) : Block :=
  if b.md.mode ≠ .safe then actionEvent a .wrongMode b
  else if (delta.isNone ∧ b.time.src = 0) ∨ stepAllowed b = false then actionEvent a .notReady b
  else
    let d := match delta with
      | some ns => ns * 1000
      | none => (timeSrc b b.time.src).offset
    let b := actionEvent a .ok (stepCounter d 1 { b with time.liftStep := false })
    if b.time.state = 0 then setTimeState (if b.time.src = 0 then 4 else 1) b else b

def execTimeStepAct (s : State) : Host.Outcome State Fault Refusal :=
  s.act fun b =>
    let (due, b) := dueActions (fun a => match a.kind with
      | .timeStep _ => true
      | _ => false) b
    due.foldl (fun (b : Block) a => match a.kind with
      | .timeStep d => timeStepAct a d b
      | _ => b) b

/-- The pair step (Table 13-2): NONE or RELAY, no chain fed; the offset from the lead's TIME blocks. -/
def pairStep (b : Block) : Block :=
  if (b.pair.role = 1 ∨ b.pair.role = 4) ∧ b.pair.feeding = 0 ∧ (b.pair.steer + 5000000) / 10000000 ≠ 0 then
    let d := b.pair.steer
    let b := stepCounter d 2 b
    { b with pair.steer := d - (d + 5000000) / 10000000 * 10000000, time.pairStepAt := some (now b) }
  else b

def execPairStepAct (s : State) : Host.Outcome State Fault Refusal := s.act pairStep

/-! ### The servo at work (R454 to R456, R461) -/

/-- A free number from 0 to `n`. -/
def freeUpTo (n : Nat) (b : Block) : Nat × Block :=
  ((fresh b).1.toNat % (n + 1), (fresh b).2)

/-- INCR in its band (R454). -/
def clampIncr (v : Nat) : Nat := Nat.max 10726680822 (Nat.min v 10748155658)

/-- The servo takes a measurement of the selected source (Table 13-4): 8 within 50 ns lock it. Its estimate of the period
is free within the band of INCR. -/
def timeMeasurement (b : Block) : Block :=
  let x := timeSrc b b.time.src
  if b.time.src = 0 ∨ !x.fresh ∨ b.time.state = 5 ∨ b.time.state = 0 then b
  else
    let (f, b) := freeUpTo 21474836 b
    let b := onSrc b.time.src (fun (x : TimeSrc) => { x with fresh := false }) b
    let e := 10726680822 + f
    let b := { b with time := { b.time with
      est := e, left := x.offset * 100
      estHist := if b.time.state = 2 then
          (now b, e) :: b.time.estHist.filter (fun y => now b ≤ y.1 + 6000000) else b.time.estHist } }
    if b.time.state = 1 then
      let run := if -50000 ≤ x.offset ∧ x.offset ≤ 50000 then b.time.okRun + 1 else 0
      if 8 ≤ run then setTimeState 2 b else { b with time.okRun := run }
    else b

def execTimeMeasurement (s : State) : Host.Outcome State Fault Refusal := s.act timeMeasurement

/-- SYNCI in follow mode steers: no source of time, LOST, an edge within two periods (R202, Table 13-4). -/
def follows (b : Block) : Bool :=
  cfgN b 0x08 0 0 17 16 == 2 && b.time.state == 4 && b.time.src == 0
    && match b.time.synciAt with
      | some t => decide (now b ≤ t + 2 * 2 ^ cfgN b 0x08 0 0 30 28)
      | none => false

/-- Slew toward 0 by at most 0.1 ppm. -/
def ramp0 (s : Int) : Int := if s > 100 then s - 100 else if s < -100 then s + 100 else 0

/-- The next slew in 0.001 ppm: a free change of at most 0.1 ppm, within SLEW_MAX, never with the sign that adds to the
offset (R455). -/
def nextSlew (s max left : Int) (f : Nat) : Int :=
  let c := s + (f : Int) - 100
  let c := if c > max then max else if c < -max then -max else c
  if (0 ≤ left ∧ c < 0) ∨ (left ≤ 0 ∧ 0 < c) then ramp0 s else c

/-- INCR at a boundary: the period estimate times 1 + s (R454, R456). -/
def incrUpdate (b : Block) : Block :=
  if b.time.incrAt = some (now b) then b
  else
  let left : Option Int :=
    if b.time.state = 5 ∨ b.pair.role = 1 ∧ b.pair.up then some (b.pair.steer * 100)
    else if (b.time.state = 1 ∨ b.time.state = 2) ∧ b.time.src ≠ 0 then some b.time.left
    else if follows b then some (-b.time.synciOff * 100000)
    else none
  let (f, b) := freeUpTo 200 b
  let s := match left with
    | some l => nextSlew b.time.slew (100 * cfgN b 0x21 0 0 17 7) l f
    | none => ramp0 b.time.slew
  { b with
    time := { b.time with slew := s, left := b.time.left - s, incrAt := some (now b)
                          incr := clampIncr ((b.time.est * (1000000000 + s).toNat) / 1000000000) } }

def execIncrUpdate (s : State) : Host.Outcome State Fault Refusal := s.act incrUpdate

/-- R457: REFCLK fails the frequency check. -/
def execRefclkOutOfBand (s : State) : Host.Outcome State Fault Refusal :=
  s.act fun b => raise .refclk [] { b with time := { b.time with refBad := true, incr := clampIncr b.time.incr } }

/-- R475: REFCLK is back; the servo is LOST. -/
def execRefclkReturn (s : State) : Host.Outcome State Fault Refusal :=
  s.act fun b =>
    if b.time.refOk then b
    else
    let b := { b with time := { b.time with refOk := true, refBad := false } }
    if b.prot.summitReset then b else setTimeState 4 b

/-- R461: HOLD_TIME has passed in HOLDOVER. -/
def execHoldoverExpiry (s : State) : Host.Outcome State Fault Refusal :=
  s.act fun b =>
    match b.time.holdAt with
    | some t =>
      if b.time.state = 3 ∧ t + 100000 * cfgN b 0x21 0 1 23 8 ≤ now b then setTimeState 4 (raise .timeLost [] b) else b
    | none => b

/-- Measurement interval of a source in strides: the shortest Sync interval of Table 13-5, one pulse, one frame (R462). -/
def srcInterval (s : Nat) : Nat := if s = 1 then 6250 else 100000

/-- Three measurements of a source in a row failed or did not come (R462). -/
def srcMissing (b : Block) (s : Nat) : Bool :=
  match (timeSrc b s).at? with
  | some t => decide (3 ≤ (timeSrc b s).bad + (now b - t) / srcInterval s)
  | none => false

/-- R462: three measurements missing or failed. -/
def execTimeSourceLost (source : Fin 4) (s : State) : Host.Outcome State Fault Refusal :=
  s.act fun b =>
    if source.val = 0 ∨ srcMissing b source.val = false then b
    else
      let b := onSrc source.val (fun (x : TimeSrc) => { x with qualified := false, good := 0, fresh := false }) b
      selectSource (if source.val = 1 then { b with time.gm := none } else b)

/-! ### PTP (R464, R465) -/

/-- A data set ranks above another: the first item that differs is less. -/
def dsBetter : List Nat → List Nat → Bool
  | [], _ => false
  | _ :: _, [] => true
  | x :: xs, y :: ys => if x < y then true else if y < x then false else dsBetter xs ys

/-- A grandmaster of Table 13-5. -/
def gmOk (b : Block) (dataset : List Nat) (inaccuracy : Nat) : Bool :=
  (dataset.getD 1 255 == 6 || dataset.getD 1 255 == 7) && (!cfgBit b 0x21 0 0 25 || decide (inaccuracy ≤ 50))

/-- An Announce: the best across the ports of PTP_PORTS is selected; a change of grandmaster or port is a change of source
without a step. -/
def announce (port id : Nat) (dataset : List Nat) (inaccuracy : Nat) (utc : Option Int) (leap : Nat) (b : Block) : Block :=
  let same : Bool := match b.time.gm with
    | some g => g.port == port && g.id == id
    | none => false
  let better : Bool := match b.time.gm with
    | some g => dsBetter dataset g.dataset
    | none => true
  if gmOk b dataset inaccuracy = false then
    if same = true then sourceMeasure 1 2 false none none { b with time.gm := none } else b
  else if same = true ∨ better = true then
    let changed := b.time.gm.isSome && !same
    let b := { b with time := { b.time with
      gm := some { port := port, id := id, dataset := dataset, inaccuracy := inaccuracy }
      utcOff := utc, leap := if utc.isSome then leap else 0, syncRx := if same then b.time.syncRx else none } }
    if changed then
      let b := onSrc 1 (fun (x : TimeSrc) => { x with good := 0 }) b
      if b.time.src = 1 ∧ (b.time.state = 1 ∨ b.time.state = 2) then raise .timeSource [1, 1] b else b
    else b
  else b

/-- A Sync measurement from the selected grandmaster. -/
def syncMeasure (port : Nat) (arrival origin : Int) (b : Block) : Block :=
  let o := origin + Tbl.get 0 b.time.pdelay port - arrival
  let old := (timeSrc b 1).offset
  sourceMeasure 1 2 (decide (0 < (timeSrc b 1).good) && decide (o - old ≤ 1000000) && decide (old - o ≤ 1000000)) (some o) none b

/-- The message is from the selected grandmaster. -/
def fromGm (b : Block) (port id : Nat) : Bool :=
  match b.time.gm with
  | some g => g.port == port && g.id == id
  | none => false

/-- A PTP message on a station port that runs PTP. -/
def ptpMessage (port : Nat) (m : PtpMsg) (b : Block) : Block :=
  let on := cfgBit b 0x21 0 0 (19 + port)
  let dom := fun (d : BitVec 8) => d.toNat == cfgN b 0x21 0 1 31 24
  if !on then b
  else match m with
    | .announce d id ds ina utc leap => if dom d then announce port id.toNat ds ina utc leap.val b else b
    | .sync d id arr org =>
      if !dom d ∨ !fromGm b port id.toNat then b
      else match org with
        | some t => syncMeasure port arr t b
        | none => { b with time.syncRx := some arr }
    | .followUp d id org =>
      if !dom d ∨ !fromGm b port id.toNat then b
      else match b.time.syncRx with
        | some arr => syncMeasure port arr org { b with time.syncRx := none }
        | none => b
    | .pdelayReq => { b with time.pdelayAnswers := b.time.pdelayAnswers + 1 }
    | .pdelayDone d => { b with time := { b.time with pdelay := Tbl.set 0 b.time.pdelay port d } }
    | .other => b

def execPtpMessage (port : Fin 4) (m : PtpMsg) (s : State) : Host.Outcome State Fault Refusal :=
  s.act (ptpMessage port.val m)

/-! ### 1PPS, IRIG-B, leap seconds (R466 to R469) -/

/-- PPS_IN: `stamp`: the edge in ps of the counter; `label`: the UTC second that IRIG-B gives it. -/
def ppsIn (stamp : Int) (label : Option Int) (b : Block) : Block :=
  let t := stamp - 1000 * cfgN b 0x21 0 3 31 16
  let agrees := match (timeSrc b 2).lastMark with
    | some m => decide (999999000000 ≤ t - m) && decide (t - m ≤ 1000001000000)
    | none => false
  sourceMeasure 2 3 agrees (label.map fun u => (u + taiUtc b) * 1000000000000 - t) (some t) b

def execPpsInEdge (stamp : Int) (label : Option Int) (s : State) : Host.Outcome State Fault Refusal :=
  s.act (ppsIn stamp label)

/-- Seconds from 1970 to the start of a year. -/
def yearStart (y : Nat) : Nat :=
  let n := y - 1
  86400 * (365 * (y - 1970) + (n / 4 - n / 100 + n / 400) - 477)

/-- Year of a UTC second. -/
def yearOf (s : Nat) : Nat :=
  let y := 1970 + s / 31556952
  if yearStart (y + 1) ≤ s then y + 1 else if s < yearStart y then y - 1 else y

/-- An IRIG-B frame (R468); `stamp`: its on-time point in ps of the counter; none: it does not decode. -/
def irigFrame (stamp : Int) (label : Option IrigLabel) (b : Block) : Block :=
  let ext := cfgBit b 0x21 0 0 18
  match label with
  | none => sourceMeasure 3 3 false none none b
  | some l =>
    if (ext ∧ 4 < l.quality.val) ∨ (l.year.isNone ∧ b.time.steps = 0) then sourceMeasure 3 3 false none none b
    else
      let y := l.year.getD (yearOf (utcSec b))
      let u : Int := (yearStart y + l.second : Nat) - (if ext then l.localOffset else 0)
      let agrees := match (timeSrc b 3).lastMark with
        | some m => u == m + 1
        | none => false
      let b := if ext ∧ b.time.src ≠ 1 then { b with time.leap := l.leap.val } else b
      let t := stamp - 1000 * cfgN b 0x21 0 3 15 0
      sourceMeasure 3 3 agrees (some ((u + taiUtc b) * 1000000000000 - t)) (some u) b

def execIrigFrame (stamp : Int) (label : Option IrigLabel) (s : State) : Host.Outcome State Fault Refusal :=
  s.act (irigFrame stamp label)

/-- The last UTC second of the day is over, by the TAI_UTC before the change: one second into the next day with an insertion
pending, one short of it with a deletion (R469). -/
def leapDue (b : Block) : Bool :=
  (b.time.leap == 1 && utcSec b % 86400 == 1) || (b.time.leap == 2 && utcSec b % 86400 == 86399)

/-- R469: the end of the last UTC second of the day with a leap second pending. -/
def execLeapSecond (s : State) : Host.Outcome State Fault Refusal :=
  s.act fun b =>
    if leapDue b = false then b
    else
    let d : Int := match b.time.leap with
      | 1 => 1
      | 2 => -1
      | _ => 0
    { b with time := { b.time with
      leap := 0
      utcOff := if b.time.src = 1 then b.time.utcOff.map (· + d) else b.time.utcOff
      leapAdj := if b.time.src = 1 ∧ b.time.utcOff.isSome then b.time.leapAdj else b.time.leapAdj + d } }

/-! ### SYNCI, SYNCO, PPS_OUT (R201, R202, R467) -/

/-- A SYNCI edge, its offset against the own boundary in ns. -/
def synciEdge (o : Int) (b : Block) : Block :=
  let mode := cfgN b 0x08 0 0 17 16
  if mode = 0 then b
  else
    let lim : Int := cfgN b 0x08 0 0 15 8
    let run := if lim < o ∨ o < -lim then b.time.synciRun + 1 else 0
    let b := { b with time := { b.time with synciOff := o, synciAt := some (now b), synciTold := false, synciRun := run } }
    if mode = 1 ∧ run = 16 then raise .synciDev [ofInt o] b else b

def execSynciEdge (offset : Int) (s : State) : Host.Outcome State Fault Refusal := s.act (synciEdge offset)

def execSynciLost (s : State) : Host.Outcome State Fault Refusal :=
  s.act fun b =>
    match b.time.synciAt with
    | some t =>
      if cfgN b 0x08 0 0 17 16 = 1 ∧ t + 2 * 2 ^ cfgN b 0x08 0 0 30 28 ≤ now b ∧ !b.time.synciTold then
        raise .synciLost [] { b with time := { b.time with synciTold := true, synciRun := 0 } }
      else b
    | none => b

/-- A pulse before the next boundary, where it is one of those selected. -/
def execSyncoPulse (s : State) : Host.Outcome State Fault Refusal :=
  s.act fun b =>
    let t := if cfgN b 0x08 0 0 27 18 = 0 then now b else m64 (now b + 1)
    if cfgBit b 0x08 0 0 31 ∧ acquired b ∧ t % 2 ^ cfgN b 0x08 0 0 30 28 = 0 then { b with time.syncoAt := some t } else b

/-- The TAI second whose pulse rises in this stride: at its start, or PPS_ADV before it (R467). -/
def ppsSecond (b : Block) : Option Nat :=
  if cfgN b 0x21 0 4 20 11 = 0 then (if b.time.ns < 10000 then some b.time.sec else none)
  else if 999990000 ≤ b.time.ns then some (b.time.sec + 1) else none

/-- PPS_OUT rises for PPS_WIDTH. -/
def ppsPulse (b : Block) : Block :=
  if cfgBit b 0x21 0 4 31 ∧ acquired b = true ∧ (ppsSecond b).isSome then { b with time.ppsAt := ppsSecond b } else b

def execPpsOutPulse (s : State) : Host.Outcome State Fault Refusal := s.act ppsPulse

/-- PPS_OUT is high: from PPS_ADV before the second for PPS_WIDTH, while the unit runs, time is acquired and the output is
enabled (R467); at the instant `t` in ns of TAI. -/
def ppsHigh (b : Block) (t : Nat) : Bool :=
  match b.time.ppsAt with
  | some s =>
    cfgBit b 0x21 0 4 31 && acquired b && sysRuns b
      && decide (s * 1000000000 ≤ t + cfgN b 0x21 0 4 20 11)
      && decide (t + cfgN b 0x21 0 4 20 11 < s * 1000000000 + 1000000 * cfgN b 0x21 0 4 30 21)
  | none => false

/-! ### Synthesizers (R39, R471 to R475) -/

def synth (b : Block) (k : Nat) : Synth := Tbl.get {} b.synth k
def onSynth (k : Nat) (f : Synth → Synth) (b : Block) : Block := { b with synth := Tbl.upd {} b.synth k f }

/-- Ports of a LANE synthesizer, `idle`: silent; else those that are UP resume. -/
def lanePorts (k : Nat) (idle : Bool) (b : Block) : Block :=
  ((List.range 36).filter fun p => if k = 1 then decide (p < 16) else decide (16 ≤ p)).foldl (fun (b : Block) p =>
    onPort p (fun (q : Port) => { q with txIdle := if idle then true else q.txIdle && q.st != .up && q.st != .hello && q.st != .train }) b) b

/-- R472: loss of lock; the outputs go to the holding clock (R474). With every synthesizer out of lock REFCLK is absent
(R475). -/
def pllUnlock (k : Nat) (b : Block) : Block :=
  if !(synth b k).locked then b
  else
  let b := raise .pllUnlock [w32 k] (onSynth k (fun (x : Synth) => { x with locked := false, holding := true }) b)
  let b := if (List.range 5).any fun k => (synth b k).locked then b else { b with time.refOk := false }
  match k with
  | 0 => { b with prot := { b.prot with ownOsc := true, sysOut := true } }
  | 1 => lanePorts 1 true b
  | 2 =>
    let b := lanePorts 2 true b
    [32, 33, 34, 35].foldl (fun (b : Block) p => if (port b p).st = .up then rxLost p b else b) b
  | 3 => { b with net := [] }
  | _ => b

def execPllUnlock (synth : Fin 5) (s : State) : Host.Outcome State Fault Refusal := s.act (pllUnlock synth.val)

/-- Entries of the band table of each synthesizer (Table 13-8). -/
def bandDepth (k : Nat) : Nat :=
  match k with
  | 3 => 2
  | 4 => 8
  | _ => 1

/-- A valid entry for the present setting: within 30 °C of the search (R473). -/
def bandValid (b : Block) (x : Synth) : Bool :=
  x.bands.any fun e => e.1 == x.setting && decide (b.sup.temp - e.2 ≤ 1920) && decide (e.2 - b.sup.temp ≤ 1920)

/-- R39: a LANE synthesizer that is in lock is locked again only during Lift and in SAFE or SERVICE; SYS only at Lift and at
a restart of the Summit die (Table 13-8). -/
def relockBarred (b : Block) (k : Nat) : Bool :=
  ((k == 1 || k == 2) && (synth b k).locked && !atRest b && decide (2 ≤ b.sup.stage))
    || (k == 0 && decide (1 ≤ b.sup.stage) && !b.prot.summitReset)

/-- Lock (R472, R473): from the band table where it has a valid entry, else by search, which enters it. -/
def pllLock (k us : Nat) (b : Block) : Block :=
  if relockBarred b k then b
  else
  let b := onSynth k (fun (x : Synth) =>
    let t := bandValid b x
    { x with
      locked := true, holding := false, bandSrc := t, relocks := satInc 255 x.relocks, lockUs := Nat.min us 16383
      bands := if t then x.bands
        else ((x.setting, b.sup.temp) :: x.bands.filter fun e => e.1 != x.setting).take (bandDepth k) }) b
  match k with
  | 0 => { b with prot := { b.prot with sysOut := false, ownOsc := b.prot.summitReset }, time.refOk := true }
  | 1 => lanePorts 1 false b
  | 2 => lanePorts 2 false b
  | _ => b

def execPllLock (synth : Fin 5) (micros : Nat) (s : State) : Host.Outcome State Fault Refusal :=
  s.act (pllLock synth.val micros)

/-- R476: a new F_VCO hops OUT; its outputs run on their holding clocks. -/
def pllHop (b : Block) : Block :=
  let v := cfgW b 0x22 0 0
  if (synth b 4).setting = v then b
  else onSynth 4 (fun (x : Synth) => { x with setting := v, locked := false, holding := true }) b

def execPllHop (s : State) : Host.Outcome State Fault Refusal := s.act pllHop

def execStationPortLinkChange (port : Fin 4) (up : Bool) (s : State) : Host.Outcome State Fault Refusal :=
  s.act fun b => { b with net := Tbl.upd {} b.net port.val fun (n : NetPort) => { n with link := up } }

/-! ### Clock outputs (R474, R476, R477) -/

/-- Configured frequency of an output, its FMAX. -/
def clkFmax (b : Block) (k : Nat) : W32 :=
  if cfgBit b 0x23 k 0 26 then 0x4CBEBC20 else fdiv (cfgW b 0x22 0 0) (ofNatF (cfgN b 0x23 k 0 25 14))

/-- The least k with REFCLK / k at or below FMAX, and that holding clock (R474). -/
def holdingDivisor (f : W32) : Nat := ((List.range 4096).find? fun k => decide (1 ≤ k) && fle (fdiv 0x4CBEBC20 (ofNatF k)) f).getD 4096
def holdingClock (f : W32) : W32 := fdiv 0x4CBEBC20 (ofNatF (holdingDivisor f))

/-- The frequency on CLKOUT_P[k], none at high impedance: in reset, and without a CLKOUT_CFG with EN = 1. -/
def clkOut (b : Block) (k : Nat) : Option W32 :=
  if !b.sup.good ∨ b.prot.summitReset = true ∨ cfgBit b 0x23 k 0 31 = false ∨ b.time.refOk = false then none
  else if cfgBit b 0x23 k 0 26 = false ∧ (synth b 4).holding = true then some (holdingClock (clkFmax b k))
  else some (clkFmax b k)

/-- CLKOUT_N[k] is driven: not for the LVCMOS formats. -/
def clkOutN (b : Block) (k : Nat) : Bool := (clkOut b k).isSome && decide (cfgN b 0x23 k 0 30 29 < 2)

/-! ### Status (R478) -/

/-- A signed value saturated to 32 bits. -/
def sat32 (v : Int) : W32 := satI v

/-- HOLD_EST in ns (R463): drift times the seconds in holdover. -/
def holdEst (b : Block) : W32 :=
  match b.time.holdAt with
  | some t => fmul (fabs b.time.holdDrift) (fdiv (ofNatF (now b - t)) (ofNatF 100000))
  | none => 0

/-- TIME_STATUS (Table 13-11). -/
def timeStatus (b : Block) : List W32 :=
  let t := b.time
  let src := if t.state = 5 then 5 else if follows b then 4 else t.src
  let left := match t.holdAt with
    | some a => cfgN b 0x21 0 1 23 8 - (now b - a) / 100000
    | none => 0
  let (port, id) := match t.gm with
    | some g => (g.port, g.id)
    | none => (0, 0)
  let nominal : Int := 10737418240
  [pack [fld t.state 31 29, fld src 28 26, flg t.liftStep 25, fld t.leap 24 23, fld port 22 21, fld left 20 0]
   , sat32 ((timeSrc b t.src).offset / 1000), sat32 (((t.incr : Int) - nominal) * 1000000000 / nominal), sat32 t.slew, holdEst b]
    ++ w64 id ++ [pack [fld t.steps 31 16]]

/-- SYNTH_STATUS (Table 13-12). -/
def synthStatus (b : Block) (k : Nat) : W32 :=
  let x := synth b k
  pack [flg x.locked 31, flg x.holding 30, flg x.bandSrc 29, fld x.relocks 28 21, fld x.lockUs 20 7]

end Sys2Proof.Machine
end

