-- ==== Sys2Proof/Machine/CfgWrite.lean ====
section
/-! DEFINITION. The configuration commands (R549, R226, R444): CFG_WRITE, CFG_READ, HOST_VAR_WRITE, SAFE_CFG_WRITE, and
an entry taking effect at once, at the next boundary or at the boundary it names. -/

namespace Sys2Proof.Machine

/-! ### An entry takes effect -/

/-- Cells whose descriptor satisfies `p`. -/
def cellsWith (p : List W32 → Bool) (b : Block) : List Nat := ((knownCells b).filter fun c => p c.2).map Prod.fst

/-- Ports that the first CHAIN_CONFIG finds unused go OFF (Table 4-9, R151). -/
def unusedOff (b : Block) : Block :=
  (List.range 32).foldl (fun (b : Block) k =>
    if portUnused b k ∧ (port b k).st ≠ .off then portRestart k b else b) b

/-- CHAIN_CONFIG in force (R82, R89, R145): a word that differs restarts the port. -/
def chainCfgSet (ix : Nat) (l : List W32) (b : Block) : Block :=
  let changed := word l 0 ≠ cfgW b 0x01 ix 0
  let first := !anyChainCfg b
  let b := setCfg 0x01 ix l b
  let b := if changed then portRestart ix (onChain ix (fun (c : Chain) => { c with approved := true }) b) else b
  if first then unusedOff b else b

/-- CHAIN_TIMING in force (R77): a new SILENCE_LIMIT enumerates again a chain that is READY or HELD. -/
def timingSet (ix : Nat) (l : List W32) (b : Block) : Block :=
  let changed := bits (word l 0) 22 16 ≠ cfgN b 0x03 ix 0 22 16
  let b := setCfg 0x03 ix l b
  if changed ∧ ((chain b ix).st = .ready ∨ (chain b ix).st = .held) then
    (if chainEnd b ix = 2 then enumerate ix false b else startEnum ix false b) else b

/-- What an entry does as it takes effect, beside standing in force. A new GOOSE subscription has had no valid frame (R357). -/
def applyCfg (st ix : Nat) (l : List W32) (b : Block) : Block :=
  match st with
  | 0x01 => chainCfgSet ix l b
  | 0x03 => timingSet ix l b
  | 0x04 =>
    let changed := word l 0 ≠ cfgW b 0x04 ix 0
    let b := setCfg st ix l b
    if changed then portRestart ix b else b
  | 0x05 => (cellsWith (usesLegKind · ix) b).foldl (fun (b : Block) n => vsDrop n b) (setCfg st ix l b)
  | 0x07 => onSlLimb ix (fun (c : SlLimb) => { c with r := 0 }) (setCfg st ix l b)
  | 0x0D => (cellsWith (fun d => dKind d == bits (word l 0) 31 16 && dRev d == bits (word l 0) 15 8) b).foldl
      (fun (b : Block) n => if ledHeld b n then b else thermClear n b) (setCfg st ix l b)
  | 0x0F => onLedLimb ix (fun (c : LedLimb) => { c with k := Nat.min c.k (bits (word l 0) 25 22), since := 0, below := 0 })
      (setCfg st ix l b)
  | 0x19 => onGoose ix (fun _ => {}) (setCfg st ix l b)
  | 0x1E => { setCfg st ix l b with pmu := Tbl.upd {} b.pmu ix fun (p : Pmu) =>
      { p with cfgcnt := (p.cfgcnt + 1) % 65536, cfgAt := some (now b) } }
  | 0x21 => let b := setCfg st ix l b
            { b with time.leapAdj := 0 }
  | 0x22 => pllHop (setCfg st ix l b)
  | _ => setCfg st ix l b

/-! ### When an entry takes effect -/

/-- Structures that Patrol runs: they go out in the local-leg frame (Table 1-2). -/
def toPatrol (st : Nat) : Bool := [0x14, 0x15, 0x16, 0x18, 0x1A, 0x1B].contains st

/-- Structures whose rule names the next boundary, or a later one of its own (R77, R168, R173, R200, R238, R302, R319, R346,
R460, R484, R488, R496, R552). -/
def atNext (st : Nat) : Bool := [0x05, 0x06, 0x08, 0x0A, 0x11, 0x13, 0x17, 0x1E, 0x1F, 0x20, 0x21, 0x25, 0x26].contains st

/-- Whether a waiting entry's boundary is this one: SYNC_CFG at a multiple of 2^SYNCO_DIV, PMU_STREAM at a UTC second,
TW_LINE when the line has no open event. -/
def nextDue (b : Block) (e : Nat × Nat × List W32) : Bool :=
  match e.1 with
  | 0x08 => now b % 2 ^ cfgN b 0x08 0 0 30 28 == 0
  | 0x1E => now b % 100000 == 0
  | 0x1F => (Tbl.get none b.tw.lines e.2.1).isNone
  | _ => true

/-- The waiting entries whose boundary this is take effect in order of acceptance. -/
def nextEntries (b : Block) : Block :=
  let due := b.nextCfg.filter (nextDue b)
  due.foldl (fun (b : Block) e => applyCfg e.1 e.2.1 e.2.2 b) { b with nextCfg := b.nextCfg.filter fun e => !nextDue b e }

/-- Structures whose commands a lead passes to its partner (R403): chain, Slalom, Carve, ledger, mode, limb and grid
state. -/
def mirrored (st : Nat) : Bool :=
  (decide (0x01 ≤ st) && decide (st ≤ 0x13) && st != 0x08) || st == 0x25 || st == 0x26

/-- The boundary that B = 0 names (R549). -/
def firstBoundary (b : Block) : Nat := now b + 100

/-- The kind of action of a timed entry. -/
def cfgAction (st ix : Nat) (l : List W32) : ActKind := if cfgCalib st then .calibration st ix else .config st ix l

/-- Whether an action is that of the entry. -/
def isCfgAction (st ix : Nat) (a : Action) : Bool :=
  match a.kind with
  | .calibration s i => s == st && i == ix
  | .config s i _ => s == st && i == ix
  | _ => false

/-- An accepted timed entry: it replaces a pending one of the same entry (R537); calibration data goes to the standby
copy. -/
def acceptTimed (h : Hdr) (st ix B : Nat) (l : List W32) (b : Block) : Block :=
  let b := cancelActions (isCfgAction st ix) .cancelled b
  let b := if cfgCalib st then { b with staged := Tbl.set [] b.staged (cfgKey st ix) l } else b
  addAction { boundary := B, kind := cfgAction st ix l, op := 0x0101, h := h } b

/-- An accepted entry without a boundary: it replaces one of the same place that still waits. -/
def acceptNow (st ix : Nat) (l : List W32) (b : Block) : Block :=
  if toPatrol st then { b with prot.writes := b.prot.writes ++ [(st, ix, l)] }
  else if atNext st ∨ (st = 0x03 ∧ bits (word l 0) 22 16 = cfgN b 0x03 ix 0 22 16) then
    { b with nextCfg := (b.nextCfg.filter fun e => !(e.1 == st && e.2.1 == ix)) ++ [(st, ix, l)] }
  else applyCfg st ix l { b with nextCfg := b.nextCfg.filter fun e => !(e.1 == st && e.2.1 == ix) }

/-- The stride at whose boundary an accepted entry takes effect on this unit. -/
def effectStride (b : Block) (st B : Nat) : Nat := if cfgTimed st then B else if atNext st then now b + 1 else now b

/-- CFG_WRITE (R549). -/
def cfgWrite (h : Hdr) (args : List W32) (b : Block) : CmdOut :=
  let w := word args 0
  let st := bits w 31 24
  let ix := bits w 23 8
  let B := join64 (word args 1) (word args 2)
  let l := args.drop 3
  let soon := soonCfg b
  if args.length < 3 then .fail .badArg noDetail
  else if bits w 7 0 ≠ 0 ∨ 0x80 ≤ st ∨ cfgWords st = 0 ∨ cfgCount st ≤ ix then badArg 0
  else if l.length ≠ cfgWords st then .fail .badArg noDetail
  else if isPartner b ∧ mirrored st = true then .fail .pairRole noDetail
  else if B ≠ 0 ∧ cfgTimed st = false then badArg 1
  else match (if B = 0 then none else checkBoundary b B) with
    | some s => .fail s 1
    | none =>
      if cfgCalib st = true ∧ lockCal b = true then .fail .notReady noDetail
      else match cfgRefused soon st ix l with
        | some (s, k) => .fail s (3 + k)
        | none =>
          if costRefused soon (setCfg st ix l soon) then .fail .powerCap noDetail
          else
            let B := if B = 0 then firstBoundary b else B
            let b' := if cfgTimed st then acceptTimed h st ix B l b else acceptNow st ix l b
            .ok (if mirrored st then mirror (effectStride b st B) 0x0101 (w :: l) b' else b') []

def execCfgWrite (h : Hdr) (args : List W32) (s : State) : Host.Outcome State Fault Refusal :=
  s.act fun b => runCmd h 0x0101 [.cfg (bits (word args 0) 31 24) (bits (word args 0) 23 8)] (cfgWrite h args) b

/-- The staged calibration copy or the pending entry. -/
def pendingEntry (b : Block) (st ix : Nat) : Option (List W32) :=
  if cfgCalib st then
    match Tbl.get [] b.staged (cfgKey st ix) with
    | [] => none
    | l => some l
  else
    (b.host.actions.findSome? fun a => match a.kind with
      | .config s i l => if s = st ∧ i = ix then some l else none
      | _ => none)
    <|> (b.nextCfg ++ b.prot.writes).reverse.findSome? fun e => if e.1 = st ∧ e.2.1 = ix then some e.2.2 else none

/-- CFG_READ (R549): an entry longer than a response goes by bulk transfer. -/
def cfgRead (args : List W32) (b : Block) : CmdOut :=
  let w := word args 0
  let st := bits w 31 24
  let ix := bits w 23 8
  if args.length ≠ 1 ∨ bits w 6 0 ≠ 0 ∨ 0x80 ≤ st ∨ cfgWords st = 0 ∨ cfgCount st ≤ ix then badArg 0
  else
    let out := fun (l : List W32) => if 1022 < l.length then CmdOut.bulk b [] l else .ok b l
    if bit w 7 then
      match pendingEntry b st ix with
      | some l => out l
      | none => .fail .notReady noDetail
    else out ((List.range (cfgWords st)).map (cfgW b st ix))

def execCfgRead (h : Hdr) (args : List W32) (s : State) : Host.Outcome State Fault Refusal :=
  s.act (runCmd h 0x0102 [] (cfgRead args))

/-! ### Named boundaries (R51) -/

/-- The records of a stored image take effect together. -/
def applyRecords (img : Image) (only : Nat → Bool) (b : Block) : Block :=
  let l := (sectionOf img.words 3).getD []
  ((recordList l.length l).filter fun r => only r.1).foldl (fun (b : Block) r => applyCfg r.1 r.2.1 r.2.2 b) b

/-- Step 2 of R51: each standby calibration whose boundary this is becomes the running one, and the records of an activated
CALIB image (Table 17-9). -/
def calibrationSwitch (b : Block) : Block :=
  let (due, b) := dueActions (fun a => match a.kind with | .calibration _ _ | .calibImage _ => true | _ => false) b
  due.foldl (fun (b : Block) a => match a.kind with
    | .calibration st ix => actionEvent a .ok (applyCfg st ix (Tbl.get [] b.staged (cfgKey st ix)) b)
    | .calibImage bank => actionEvent a .ok (applyRecords (stored b 6 0 bank) (fun _ => true) b)
    | _ => b) b

/-- The pending entries of this boundary for which `p` holds take effect. -/
def configsDue (p : Nat → Bool) (b : Block) : Block :=
  let (due, b) := dueActions (fun a => match a.kind with | .config st _ _ => p st | _ => false) b
  due.foldl (fun (b : Block) a => match a.kind with
    | .config st ix l => actionEvent a .ok (applyCfg st ix l b)
    | _ => b) b

/-- LIMB_MOD and LIMB_DERATE at their boundary; ENGINE_CFG goes with the bank swap (R549). -/
def execConfigAtBoundary (s : State) : Host.Outcome State Fault Refusal := s.act (configsDue (· != 0x09))

/-! ### Host variables (R226) -/

/-- HOST_VAR_WRITE: the values of one command wait together for a freeze of their own. -/
def hostVarWrite (vars : List (W32 × W32)) (b : Block) : CmdOut :=
  if isPartner b then .fail .pairRole noDetail
  else if vars.isEmpty then badArg 0
  else
    match (List.range vars.length).find? fun k =>
        let a := (vars.getD k (0, 0)).1.toNat
        decide (a < 0x1000 ∨ 0x17FF < a) with
    | some k => badArg (2 * k)
    | none =>
      let l := vars.map fun v => (v.1.toNat, v.2)
      .ok (mirror (now b + 1 + b.host.hostVars.length) 0x0103 (vars.flatMap fun v => [v.1, v.2])
        { b with host.hostVars := b.host.hostVars ++ [l] }) []

def execHostVarWrite (h : Hdr) (vars : List (W32 × W32)) (s : State) : Host.Outcome State Fault Refusal :=
  s.act (runCmd h 0x0103 [] (hostVarWrite vars))

/-- At a boundary the oldest waiting command's variables enter the exchange. -/
def releaseHostVars (b : Block) : Block :=
  match b.host.hostVars with
  | [] => b
  | l :: rest => l.foldl (fun (b : Block) v => xwrite v.1 v.2 b) { b with host.hostVars := rest }

/-! ### SAFE_CFG_WRITE (R444) -/

/-- Structures of the safety configuration and the words of their entries in SAFE_CFG_WRITE (R560). -/
def safeStruct (st : Nat) : Bool := toPatrol st || st == 0x80 || st == 0x81
def safeWords (st : Nat) : Nat := if st = 0x81 then 1 else cfgWords st

/-- SAFE_CFG_WRITE: checked by the entry's own rule against the staged copy. -/
def safeCfgWrite (args : List W32) : Block → CmdOut :=
  inSession fun s b =>
    let w := word args 0
    let st := bits w 31 24
    let ix := bits w 23 8
    let l := args.drop 3
    if bits w 7 0 ≠ 0 ∨ safeStruct st = false ∨ cfgCount st ≤ ix then badArg 0
    else if args.length ≠ 3 + safeWords st then .fail .badArg noDetail
    else if word args 1 ≠ 0 ∨ word args 2 ≠ 0 then badArg 1
    else
      let full := if st = 0x81 then [word l 0, 0] else l
      match cfgRefused (withStaged s b) st ix full with
      | some (x, k) => .fail x (3 + k)
      | none => .ok { b with safe.session := some { s with staged := Tbl.set [] s.staged (cfgKey st ix) full, lastAt := now b } } []

def execSafeCfgWrite (h : Hdr) (args : List W32) (s : State) : Host.Outcome State Fault Refusal :=
  s.act (runCmd h 0x0A03 [] (safeCfgWrite args))

end Sys2Proof.Machine
end

