-- ==== Sys2Proof/Machine/Grid.lean ====
section
/-! DEFINITION. The network sides (R303 to R308, R314): measured words, LIVE, SRC_STATE, source and control angles,
free-running, the words of Table 8-8, and the synchronism check (R318 to R322). -/

namespace Sys2Proof.Machine

def side (b : Block) (s : Nat) : Side := Tbl.get {} b.md.sides s
def onSide (s : Nat) (f : Side → Side) (b : Block) : Block := { b with md.sides := Tbl.upd {} b.md.sides s f }

/-- GRID_CFG fields of a side. -/
def gSrc (b : Block) (s : Nat) : Nat := cfgN b 0x12 s 0 31 30
def gCoastEn (b : Block) (s : Nat) : Bool := cfgBit b 0x12 s 0 28
def gFNom (b : Block) (s : Nat) : W32 := cfgW b 0x12 s 1

/-- A side with limbs (R294): sides 0 and 1 only (R305). -/
def withLimbs (b : Block) (s : Nat) : Bool := sideLimbs b s ≠ []

/-- The turns per stride of a frequency in Hz, as 2^k per turn, rounded. -/
def turnsOf (f : W32) (k : Nat) : Nat :=
  let v := fVal f
  ((v.1 * 2 ^ (k + 1) + v.2 * 100000) / (2 * v.2 * 100000 : Nat) % 2 ^ k).toNat

/-- A degree value as 2^32 per turn, rounded. -/
def degrees (d : W32) : Int :=
  let v := fVal d
  (v.1 * 2 ^ 33 + v.2 * 360) / (2 * v.2 * 360 : Nat)

/-- CTRL_ANGLE of stride S, remembering that of the stride before. -/
def Side.newCtrl (x : Side) (S : Nat) (v : W32) : Side :=
  { x with ctrlPrev := if x.ctrlAt = S then x.ctrlPrev else x.ctrl, ctrl := v, ctrlAt := S }

/-- r_u of R314. -/
def jumpStep (b : Block) : Int := degrees (cfgW b 0x11 0 2)

/-- c one boundary later (R314). -/
def corrNext (c r : Int) : Int := if c.natAbs ≤ r.natAbs then 0 else if 0 < c then c - r else c + r

/-! ### Exchange words (Table 8-8) -/

/-- OFFSET of a side as a signed number. -/
def Side.offset (x : Side) : Int := s32 (x.src - x.ctrl)

/-- CTRL_STEP: the advance of CTRL_ANGLE per stride, the correction of R314 included. -/
def ctrlStep (b : Block) (x : Side) : W32 :=
  let f := w32 (turnsOf (if x.free then x.fHold else x.freq) 32)
  if x.correcting then f + ofInt (x.corr - corrNext x.corr (jumpStep b)) else f

/-- SIDE_STATUS (Table 8-10). -/
def sideStatus (x : Side) : W32 :=
  pack [fld x.srcState 31 30, flg x.live 29, fld x.jumpClass 28 27, flg x.cl 26, flg x.free 25, flg x.syncOk 24]

/-- The eleven words of a side. -/
def sideWords (b : Block) (s : Nat) : List W32 :=
  let x := side b s
  [x.ctrl, ctrlStep b x, x.src, x.src - x.ctrl, if x.free then x.fHold else x.freq, if x.free then 0 else x.rocof,
   x.vmag, x.vneg, sideStatus x, pack [fld x.clLeft 31 16, fld x.syncRun 15 0],
   if x.cl then cfgW b 0x11 0 3 else 0x3F800000]

/-- The pending mode request. -/
def pendingMode (b : Block) : Option Mode :=
  b.host.actions.findSome? fun a => match a.kind with | .mode m _ => some m | _ => none

/-- MODE_STATUS (Table 8-9). -/
def modeStatus (b : Block) : W32 :=
  pack [fld b.md.mode.code 31 29, fld b.md.prev.code 28 26, fld b.md.phase 25 24, flg b.md.stop 23,
    flg (pendingMode b).isSome 22, fld ((pendingMode b).getD .safe).code 21 19, flg b.md.jumpAt.isSome 18, flg (lvConnected b) 17]

/-- The words 0x0B60 to 0x0B66. -/
def modeWords (b : Block) : List W32 :=
  [modeStatus b, fld b.md.stopLeft 31 16, b.md.pMode, w32 (if b.md.mode = .coast then b.md.coastStrides else 0),
   w32 (utcSec b), w32 b.time.ns, ofInt (taiUtc b)]

/-- The mode manager writes its words at the boundary, so not once a window of the stride has opened: what changes later is
written at the next one (R224, Table 6-8). A partner's words come from MEAS (R402). -/
def gridWords (b : Block) : Block :=
  if isPartner b ∨ b.fab.opened = some (work b) then b
  else xwrites 0xB60 (modeWords b) (xwrites 0xB50 (sideWords b 1) (xwrites 0xB40 (sideWords b 0) b))

/-! ### Measurement at a boundary -/

/-- SRC_STATE moves, with EV_GRID_SOURCE (R308). -/
def srcTo (s st : Nat) (b : Block) : Block :=
  if (side b s).srcState = st then b
  else raise .gridSource [w32 s, w32 st] (onSide s (fun (x : Side) =>
    { x with srcState := st, okRun := 0, badRun := 0, acqAt := if st = 1 then now b else x.acqAt }) b)

/-- What the estimator gives of a side at a boundary: VMAG and VNEG in pu, FREQ in Hz, ROCOF in Hz/s, the network's angle in
2^-32 turn, the class P phasor angle of R307 in degrees if it is valid. -/
structure GridMeas where
  vmag : W32
  vneg : W32
  freq : W32
  rocof : W32
  angle : W32
  phi : Option W32
  deriving DecidableEq, Repr

/-- The samples of the side's precision channels of phases A, B and C up to this boundary (R304, Table 8-7). -/
def gridSamples (b : Block) (s : Nat) : List (List W32) :=
  [Tbl.get [] b.sense.samples (cfgN b 0x12 s 0 27 24), Tbl.get [] b.sense.samples (cfgN b 0x12 s 0 23 20),
   Tbl.get [] b.sense.samples (cfgN b 0x12 s 0 19 16)]

/-- The estimates of a side (R304, R307): free values of its samples, magnitudes in units of V_NOM; while the Sense die is lost
no phasor is valid (log 49). -/
def gridMeasOf (b : Block) (s : Nat) : GridMeas :=
  let l := gridSamples b s
  let pu := fun neg => fdiv (fabs (Config.seqVolts b.free neg l)) (cfgW b 0x12 s 2)
  { vmag := pu false, vneg := pu true, freq := Config.gridFreq b.free l, rocof := Config.gridRocof b.free l
    angle := Config.gridAngle b.free l, phi := if b.sense.lost then none else Config.gridPhi b.free l }

/-- LIVE in this stride, after the runs of the strides before it, and the runs with this one (R305, Table 8-12). -/
def Side.liveStep (x : Side) (v frac : W32) : Side :=
  { x with live := if 100 ≤ x.liveRun then true else if 1000 ≤ x.deadRun then false else x.live
           liveRun := if fle frac v then Nat.min (x.liveRun + 1) 100 else 0
           deadRun := if flt v (fmul frac 0x3F000000) then Nat.min (x.deadRun + 1) 1000 else 0 }

/-- An angle in 2^-32 turn is at most `num` degrees wide. -/
def withinDegrees (e : Int) (num den : Nat) : Bool := decide (e.natAbs * 360 * den ≤ num * 2 ^ 32)

/-- The loop of R306 must have settled: LOCKED and within 1° before its correction, or 3 periods of F_NOM into ACQUIRE, each
with FREQ within 2 Hz of F_NOM (log 49). -/
def loopSettled (b : Block) (s : Nat) (f : W32) (e : Int) : Bool :=
  let x := side b s
  let n := fVal (gFNom b s)
  fle (fabs (fsub f (gFNom b s))) 0x40000000
    && ((x.srcState == 2 && withinDegrees e 1 1)
        || (x.srcState == 1 && decide ((300000 * n.2 : Nat) ≤ ((now b - x.acqAt : Nat) : Int) * n.1)))

/-- The loop one boundary on, and its phase error (R306): its phase advances by FREQ and is corrected by a free value of its
bandwidth; a settled loop lies within ±0.5° of the network (log 49). -/
def loopNext (b : Block) (s : Nat) (m : GridMeas) : W32 × Int :=
  let pred := (side b s).loop + w32 (turnsOf m.freq 32)
  let e := s32 (m.angle - pred)
  let c := Config.pllStep b.free (cfgW b 0x12 s 3) e
  let c := if loopSettled b s m.freq e && !withinDegrees (e - c) 1 2 then e else c
  let loop := pred + ofInt c
  (loop, s32 (m.angle - loop))

/-- The side's frequency lies within a tenth of F_NOM (R308). -/
def freqInBand (b : Block) (s : Nat) (f : W32) : Bool :=
  fle (fabs (fsub f (gFNom b s))) (fmul (ofRat 1 10) (gFNom b s))

/-- SRC_STATE of a side with SRC ≠ 0 in this stride, after the runs of the strides before it (R308, Table 8-12). -/
def srcMove (s : Nat) (b : Block) : Block :=
  let timeOk := gSrc b s == 1 || timeAcquired b
  let x := side b s
  match x.srcState with
  | 0 => srcTo s 3 b
  | 3 => if x.live && timeOk then srcTo s 1 b else b
  | 1 => if !x.live || !timeOk || decide (100 ≤ x.badRun) then srcTo s 3 b else if 1000 ≤ x.okRun then srcTo s 2 b else b
  | _ => if !x.live || !timeOk || decide (100 ≤ x.badRun) then srcTo s 3 b else b

/-- One stride of SRC_STATE: it moves, and this stride counts in its runs. `err`: the loop's phase error. -/
def srcStep (s : Nat) (m : GridMeas) (err : Int) (b : Block) : Block :=
  let b := srcMove s b
  let one := gSrc b s == 1
  let good := if one then withinDegrees err 1 1 && freqInBand b s m.freq else m.phi.isSome
  let bad := one && (!withinDegrees err 10 1 || !freqInBand b s m.freq)
  onSide s (fun (x : Side) => { x with
    okRun := if good then Nat.min (x.okRun + 1) 1000 else 0, badRun := if bad then Nat.min (x.badRun + 1) 100 else 0 }) b

/-- SRC_ANGLE while LOCKED (R306, R307): the loop, or F_NOM × t + φ / 360 with t in the UTC second. -/
def srcAngle (b : Block) (s : Nat) (m : GridMeas) : W32 :=
  let x := side b s
  if x.srcState ≠ 2 then x.src
  else if gSrc b s = 1 then x.loop
  else
    let v := fVal (gFNom b s)
    let k := now b % 100000
    let turns : Int := (v.1 * k * 2 ^ 33 + v.2 * 100000) / (2 * v.2 * 100000 : Nat)
    ofInt (turns + degrees (m.phi.getD 0))

/-- CTRL_ANGLE of this stride: the accumulator while free, the value kept in the stride R of a class 3 return, else the
source angle less the correction (R311, R313, R314). -/
def ctrlNow (b : Block) (s : Nat) : Block :=
  let S := now b
  onSide s (fun (x : Side) =>
    if x.free then
      if x.ctrlAt = S then x
      else
        let acc := (x.acc + turnsOf x.fHold 64) % 2 ^ 64
        { x.newCtrl S (w32 (acc / 2 ^ 32)) with acc := acc }
    else if x.class3At = some S then x
    else x.newCtrl S (if x.correcting then x.src - ofInt x.corr else x.src)) b

/-- A boundary's measurement of one side (R304 to R308). -/
def measureSide (s : Nat) (m : GridMeas) (b : Block) : Block :=
  if gSrc b s = 0 then
    srcTo s 0 (onSide s (fun (x : Side) => { x with live := true, liveRun := 0, deadRun := 0, enterRun := 0 }) b)
  else
    let loop := loopNext b s m
    let b := onSide s (fun (x : Side) => { x.liveStep m.vmag (cfgW b 0x12 s 4) with
      vmag := m.vmag, vneg := m.vneg, freq := m.freq, rocof := m.rocof, loop := loop.1
      enterRun := if flt m.vmag (cfgW b 0x12 s 5) then x.enterRun + 1 else 0
      fHist := (m.freq :: x.fHist).take 61001, fAt := now b }) b
    let b := srcStep s m loop.2 b
    ctrlNow (onSide s (fun (x : Side) => { x with src := srcAngle b s m }) b) s

/-- The modes from which COAST is entered (R310). -/
def coastable (m : Mode) : Bool := m == .follow || m == .form || m == .plough

/-- The side meets the condition of R310, or has just lost its source. -/
def entryHolds (b : Block) (s : Nat) (lost : Bool) : Bool :=
  gCoastEn b s && withLimbs b s && gSrc b s != 0 && (lost || decide (cfgN b 0x12 s 7 31 22 ≤ (side b s).enterRun))

/-- What a side's state makes of the mode: an entry to COAST at the next boundary, an immediate stop during a stop (R292),
an orderly stop in FOLLOW without COAST_EN (Table 8-3). -/
def sideCauses (s : Nat) (lost : Bool) (b : Block) : Block :=
  if isPartner b then b
  else if entryHolds b s lost then
    if coastable b.md.mode || b.md.mode == .coast then
      if b.md.stop then (if coastable b.md.mode then immediateStop 1 b else b)
      else if (side b s).free then b
      else { b with md.coastDue := b.md.coastDue ++ [(s, now b)] }
    else b
  else if lost && !gCoastEn b s && withLimbs b s && b.md.mode == .follow then orderlyCause (stopRow 12) b
  else b

/-- GRID_MEASURE for one side: its words, then its causes. -/
def gridSide (s : Nat) (b : Block) : Block :=
  let was := (side b s).srcState
  let b := measureSide s (gridMeasOf b s) { b with free := b.free + 1 }
  sideCauses s (decide (was ≠ 3 ∧ was ≠ 0) && (side b s).srcState == 3) b

/-- GRID_MEASURE: both sides, then the words of Table 8-8. -/
def gridMeasure (b : Block) : Block := gridWords (gridSide 1 (gridSide 0 b))

def execGridMeasure (s : State) : Host.Outcome State Fault Refusal := s.act gridMeasure

/-- R306: the phase error at a rising zero crossing of phase A, `ps` after the boundary, goes to the loop's phase. -/
def zeroCrossing (s ps : Nat) (b : Block) : Block :=
  if gSrc b s ≠ 1 ∨ cfgBit b 0x12 s 0 29 = false then b
  else
    onSide s (fun (x : Side) =>
      let v := fVal x.freq
      let at? := x.loop + ofInt ((v.1 * 2 ^ 32 * ps) / (v.2 * 1000000000000 : Nat))
      { x with loop := x.loop + (0xC0000000 - at?) }) b

def execPhaseAZeroCrossing (lv : Bool) (ps : Fin 10000000) (s : State) : Host.Outcome State Fault Refusal :=
  s.act (zeroCrossing (if lv then 1 else 0) ps.val)

/-! ### Free-running (R311, R317) -/

/-- F_HOLD: the mean FREQ of FREQ_HOLD strides that end ENTER_N strides before `S`, clamped to F_NOM ± 2 %. Strides before
the first measurement count with the FREQ they had, 0. -/
def fHoldOf (b : Block) (s S : Nat) : W32 :=
  let x := side b s
  let n := cfgN b 0x11 0 1 15 0
  let skip := cfgN b 0x12 s 7 31 22 + (if x.fAt = S then 1 else 0)
  let m := fdiv (fsumExact ((x.fHist.drop skip).take n)) (ofNatF n)
  let f := gFNom b s
  fclamp (fmul (ofRat 98 100) f) (fmul (ofRat 102 100) f) m

/-- The side starts to free-run at this boundary from its last CTRL_ANGLE; a correction is dropped. -/
def startFree (s : Nat) (b : Block) : Block :=
  let f := fHoldOf b s (now b)
  onSide s (fun (x : Side) =>
    let last := if x.ctrlAt = now b then x.ctrlPrev else x.ctrl
    let acc := (last.toNat * 2 ^ 32 + turnsOf f 64) % 2 ^ 64
    { x.newCtrl (now b) (w32 (acc / 2 ^ 32)) with
      free := true, fHold := f, acc := acc, corr := 0, correcting := false, class3At := none
      jumpClass := if x.cl then x.jumpClass else 0 }) b

/-! ### Synchronism check (R320 to R322) -/

/-- SYNCHECK_START (R321). -/
def syncheckStart (b : Block) : CmdOut :=
  let m := b.md.mode
  let x := side b 1
  if isPartner b then .fail .pairRole noDetail
  else if !((m == .charge && b.md.phase == 3) || coastable m) || !x.live || x.srcState != 2 || lvConnected b
      || b.md.stop || b.md.imm.isSome then .fail .notReady noDetail
  else .ok (mirror (now b) 0x0202 [] (onSide 1 (fun (x : Side) => { x with syncRun := 0 }) { b with md.syncAt := some (now b) })) []

def execSyncheckStart (h : Hdr) (s : State) : Host.Outcome State Fault Refusal := s.act (runCmd h 0x0202 [] syncheckStart)

/-- The posted reference (R320): angle, frequency, magnitude. -/
def posted (b : Block) : List W32 :=
  let w := cfgN b 0x13 0 0 31 25
  match (List.range 16).find? fun k => hostsStation b (256 + k) with
  | some k => (List.range 3).map fun i => Tbl.get 0 (engine b (256 + k)).post (w + i)
  | none => [nanW, nanW, nanW]

/-- Whether the comparison of R321 passes. -/
def syncPasses (b : Block) : Bool :=
  let x := side b 1
  let r := posted b
  let d := (s32 (x.src - word r 0)).natAbs
  let lim := fVal (cfgW b 0x13 0 3)
  !(r.any fIsNaN) && fle (fabs (fsub x.vmag (word r 2))) (cfgW b 0x13 0 1)
    && fle (fabs (fsub x.freq (word r 1))) (cfgW b 0x13 0 2) && decide ((d * 360 * lim.2 : Nat) ≤ lim.1 * 2 ^ 32)

/-- Integrate a cell as the mode manager does (R299): R116 must hold. -/
def integrateIf (n : Nat) (b : Block) : Block := if canIntegrate b n then integrate n b else b

/-- SYNCHECK_EVAL (R321, R322). -/
def syncheckEval (b : Block) : Block :=
  if isPartner b then b
  else
    let x := side b 1
    let judged := !lvConnected b && x.live && x.srcState == 2
    let ok := judged && syncPasses b
    let b := onSide 1 (fun (x : Side) => { x with
      syncOk := ok, syncRun := if b.md.syncAt.isSome then (if ok then satInc 65535 x.syncRun else 0) else x.syncRun }) b
    if b.md.syncAt.isSome ∧ cfgN b 0x13 0 0 24 12 ≤ (side b 1).syncRun then
      let cs := (sideLimbs b 1).flatMap (limbCells b)
      gridWords (raise .syncheckPass [] (cs.foldl (fun (b : Block) n => integrateIf n b) { b with md.syncAt := none }))
    else gridWords b

def execSyncheckEval (s : State) : Host.Outcome State Fault Refusal := s.act syncheckEval

/-- R321: SC_TIMEOUT without a pass. -/
def execSyncheckTimeout (s : State) : Host.Outcome State Fault Refusal :=
  s.act fun b => match b.md.syncAt with
    | none => b
    | some t =>
      if now b < t + cfgN b 0x13 0 0 11 4 * 100000 then b else raise .syncheckFail [] { b with md.syncAt := none }

end Sys2Proof.Machine
end

