-- ==== Sys2Proof/Machine/Modes.lean ====
section
/-! DEFINITION. The mode manager (R283 to R302, R309 to R315, R317): mode changes with what hangs on them, requests,
stops, the stride rows of Table 8-3, forced-stop causes, integration by the mode manager, and returns from COAST. -/

namespace Sys2Proof.Machine

/-! ### A mode takes effect -/

/-- Flash writes wait while a rail dips (R512). -/
def flashHeld (b : Block) : Bool := b.sup.rails.any fun kv => kv.2.dipAt.isSome

/-- The stride in which the first of the dips that stand began. -/
def dipStride (b : Block) : Nat := ((b.sup.rails.filterMap fun kv => kv.2.dipAt).foldl Nat.min (now b * 10)) / 10

/-- A debug authorization ends (R579), with the cause of EV_DEBUG_OFF. -/
def debugOff (cause : Nat) (b : Block) : Block :=
  match b.trust.auth with
  | none => b
  | some _ => raise .debugOff [w32 cause] (clearDegr 7 (debugFreezeEnd (now b * 8000) { b with trust.auth := none }))

/-- P_MODE at entry (Table 8-1, R438). -/
def entryP (b : Block) (m : Mode) : W32 :=
  match m with
  | .safe | .service => 0
  | .coast => b.md.pMode
  | .plough => cfgW b 0x80 0 2
  | _ => 0x3F800000

/-- A stage of Lift is reached, LIFT_MS after supplies good (Table 15-2). -/
def stageReached (k ms : Nat) (b : Block) : Block :=
  { b with sup := { b.sup with stage := k, liftMs := Nat.min ms 2097151, stageAt := now b } }

/-- What a change of mode brings with it beside the mode itself: the safety session (R444), debug scope 2 (R579), life
checkpoints (R279), the stage Summit (R500). -/
def modeEffects (old new : Mode) (b : Block) : Block :=
  let b := if atRest { b with md.mode := old } && !atRest b then { b with safe.session := none } else b
  let b := if old = .service ∧ new ≠ .service ∧ ((b.trust.auth.map DebugAuth.scope).getD 0).testBit 2 = true then debugOff 3 b else b
  let b := if new = .safe then checkpoint (flashHeld b) false true b else if old = .safe then checkpoint (flashHeld b) false false b else b
  let b := if new = .safe then { b with sup.stopBy := none } else b
  if atRest b ∨ b.sup.stage ≠ 2 then b else stageReached 3 (b.sup.liftMs + (now b - b.sup.stageAt) / 100) b

/-- Sides as the mode SAFE leaves them: no free-run, no correction, no current limit. -/
def sidesAtRest (b : Block) : Block :=
  { b with md.sides := Tbl.mapAll {} b.md.sides fun _ (x : Side) =>
      { x with free := false, corr := 0, correcting := false, class3At := none, jumpClass := 0, cl := false, clLeft := 0 } }

/-- A mode change takes effect at this boundary, with EV_MODE (R290) and its cause (Table 16-17). -/
def setMode (m : Mode) (cause : Nat) (b : Block) : Block :=
  let old := b.md.mode
  let stopped := b.md.stop
  let p := entryP b m
  let b := { b with md := { b.md with
    mode := m, pMode := p, enteredAt := now b, phaseAt := now b
    phase := match m with | .charge => 1 | .discharge => 2 | _ => 0
    prev := if m = .coast then (if old = .coast then b.md.prev else old) else b.md.prev
    stop := false, stopLeft := 0, imm := none, orderly := none, coastDue := []
    settleRun := 0, roundOver := false, roundFailed := []
    coastStrides := 0, returnCount := 0, classifyAt := none, returnAt := none
    jumpAt := if m = .safe then none else b.md.jumpAt } }
  let b := if m = .safe then sidesAtRest b else b
  let b := raise .mode (w64 (now b) ++ [w32 old.code, w32 m.code, w32 cause]) b
  let b := xwrite 0x0A02 (w32 m.code) (modeEffects old m b)
  -- R292: the stop that has brought the mode to SAFE satisfies a pending request for it
  if m = .safe ∧ stopped = true then
    let p : Action → Bool := fun a => match a.kind with | .mode .safe _ => true | _ => false
    (b.host.actions.filter p).foldl (fun (b : Block) a => actionEvent a .ok b)
      { b with host.actions := b.host.actions.filter fun a => !p a }
  else b

/-! ### Orderly stops (R292, R525) -/

/-- STOP_STRIDES, or the shorter ramp of a thermal shutdown (R525). -/
def stopStrides (b : Block) (cause : Nat) : Nat :=
  let n := cfgN b 0x11 0 0 31 16
  if cause = 7 then Nat.min n 2000 else n

/-- The orderly stop starts at this boundary. -/
def startStop (cause : Nat) (b : Block) : Block :=
  let b := cancelMode true b
  let n := stopStrides b cause
  { b with md := { b.md with stop := true, stopLeft := n, stopLen := n, stopAt := now b, stopCause := cause, p0 := b.md.pMode, orderly := none
                             coastDue := [], syncAt := none } }

/-- P_MODE during the ramp. -/
def rampP (b : Block) : W32 := fdiv (fmul b.md.p0 (ofNatF b.md.stopLeft)) (ofNatF b.md.stopLen)

/-- One boundary of the ramp after B0. -/
def rampStep (b : Block) : Block :=
  if !b.md.stop || b.md.stopAt == now b then b
  else
    let b := { b with md.stopLeft := b.md.stopLeft - 1 }
    { b with md.pMode := rampP b }

/-- R292: STOP_LEFT has reached 0. -/
def orderlyStopEnd (b : Block) : Block :=
  if b.md.stop ∧ b.md.stopLeft = 0 then immediateStop b.md.stopCause b else b

def execOrderlyStopEnd (s : State) : Host.Outcome State Fault Refusal := s.act orderlyStopEnd

/-! ### Causes that act at a boundary (R289) -/

/-- Degradations in force whose cause Patrol detected two strides ago or more (R438); `stops`: those with DEGR_STOP, else
the others. -/
def degrActs (b : Block) (stops : Bool) : Bool :=
  (List.range 8).any fun k => b.safe.degr.getLsbD k && decide (Tbl.get 0 b.safe.degrAt k + 2 ≤ now b)
    && (cfgBit b 0x80 0 3 (24 + k) == stops)

/-- A PLOUGH demand that reaches the mode manager (R408, R438). -/
def ploughDemand (b : Block) : Bool := degrActs b false && !covered b

/-- Sides that met R310 in an earlier stride. -/
def coastNow (b : Block) : List Nat := ((b.md.coastDue.filter fun c => c.2 < now b).map Prod.fst).eraseDups

/-- COAST is entered (R310, R311). -/
def enterCoast (sides : List Nat) (b : Block) : Block :=
  setMode .coast 1 (sides.foldl (fun (b : Block) s => startFree s b) (cancelMode false b))

/-- In COAST: a return under way is cancelled, the sides start a new free-run (R311, R317). -/
def coastAgain (sides : List Nat) (b : Block) : Block :=
  sides.foldl (fun (b : Block) s => startFree s b)
    { b with md := { b.md with coastDue := [], returnAt := none, returnCount := 0, classifyAt := none } }

/-- The first of R289's causes that acts at this boundary. -/
def forcedBoundary (b : Block) : Block :=
  if isPartner b then b
  else if b.md.imm.isSome ∧ b.md.immAt < now b then
    setMode .safe (b.md.imm.getD 0) (cancelMode b.md.stop b)
  else if b.md.imm.isSome ∨ b.md.mode = .safe then b
  else
    let b := if degrActs b true then orderlyCause 10 b else b
    if b.md.imm.isSome then b
    else if b.md.orderly.isSome ∧ (b.md.orderlyAt < now b ∨ b.md.orderly = some 10) then startStop (b.md.orderly.getD 0) b
    else if b.md.stop then b
    else if ploughDemand b ∧ (b.md.mode = .follow ∨ b.md.mode = .form) then setMode .plough 3 (cancelMode false b)
    else
      let b := if ploughDemand b ∧ b.md.mode = .coast then { b with md.prev := .plough } else b
      match coastNow b with
      | [] => b
      | cs =>
        if coastable b.md.mode then enterCoast cs b
        else if b.md.mode = .coast then coastAgain cs b
        else { b with md.coastDue := [] }

/-! ### Requests (R286 to R289, R294, R301) -/

/-- Whether Table 8-3 has a MODE_REQUEST row from the mode in force. -/
def modeRow (b : Block) (m : Mode) : Bool :=
  let f := b.md.mode
  let done := b.md.phase == 3
  match m with
  | .safe => f != .safe
  | .charge => f == .safe
  | .follow => (f == .charge && done) || f == .form || f == .plough
  | .form => (f == .charge && done) || f == .follow || f == .plough
  | .discharge => f == .safe || f == .charge
  | .service => f == .safe || (f == .discharge && done)
  | _ => false

/-- Engines that host a configured limb or the station laws. -/
def hostEngines (b : Block) : List Nat :=
  (List.range 16).map (256 + ·) |>.filter fun e => hosted b e ≠ [] || hostsStation b e

def engineRuns (b : Block) (e : Nat) : Bool := !(engine b e).failed && (engine b e).bank.valid

/-- Cells of the configured limbs, ascending by limb. -/
def limbAll (b : Block) : List Nat := (limbs b).flatMap (limbCells b)

/-- Every chain that holds a cell of a configured limb is READY. -/
def chainsReady (b : Block) : Bool := (limbAll b).all fun n => (chain b (n / 64)).st == .ready

def sidesLocked (b : Block) : Bool := [0, 1].all fun s => !(withLimbs b s && gSrc b s != 0) || (side b s).srcState == 2
def sidesDead (b : Block) : Bool := [0, 1].all fun s => !withLimbs b s || !(side b s).live

/-- R301: not BYPASSED, and without a fresh record for 100 strides. -/
def unverified (b : Block) (n : Nat) : Bool :=
  (hub b n).slot != .bypassed && (match (hub b n).recAt with
    | some t => decide (t + 100 ≤ work b)
    | none => true)

/-- Cells of the device: those of configured limbs and all others that have been enumerated. -/
def deviceCells (b : Block) : List Nat :=
  let l := limbAll b
  l ++ (b.cells.filter fun kv => kv.2.info.isSome && !l.contains kv.1).map Prod.fst

def unverifiedCells (b : Block) : List Nat := (deviceCells b).filter (unverified b)

/-- Every verified cell of `l` reports VCAP ≤ V_SAFE in this stride. -/
def verifiedSafe (b : Block) (l : List Nat) : Bool := l.all fun n => unverified b n || fle (recVcap b n) (cfgW b 0x11 0 9)

/-- Requests that R502, R504, R517 and R525 hold off. -/
def heldOff (b : Block) (m : Mode) : Bool :=
  m != .safe && m != .service && (decide (b.sup.stage < 2) || b.prot.pcfgBad || b.sup.diodeFault || b.sup.shutdown)

/-- The first failing condition of a request by Table 16-17, 0 where there is no row; none: it may take effect. While Patrol
is lost only SAFE may (R44). -/
def modeFails (b : Block) (m : Mode) (ack : Bool) : Option Nat :=
  if !modeRow b m then some 0
  else if b.md.stop ∧ m ≠ .safe then some 9
  else if heldOff b m then some 10
  else if b.prot.patrolLost ∧ m ≠ .safe then some 1
  else match m with
    | .charge =>
      if !((hostEngines b).all (engineRuns b)) then some 2
      else if !chainsReady b then some 3 else none
    | .follow => if b.md.mode = .plough then (if b.safe.degr ≠ 0 then some 5 else none)
        else if sidesLocked b then none else some 4
    | .form => if b.md.mode = .plough ∧ b.safe.degr ≠ 0 then some 5 else none
    | .discharge => if sidesDead b then none else some 6
    | .service =>
      if !sidesDead b then some 6
      else if b.md.safeRun < 100 then some 7
      else if unverifiedCells b ≠ [] ∧ ack = false then some 8 else none
    | _ => none

/-- The status of a failing condition at acceptance (R287, R292). -/
def failStatus (c : Nat) : Status := if c = 0 ∨ c = 9 then .wrongMode else .notReady

/-- B = 0 (R288). -/
def modeBoundary (b : Block) (m : Mode) : Nat := if m = .safe then now b + 1 else now b + 100

/-- MODE_REQUEST (R286 to R289). -/
def modeRequest (h : Hdr) (args : List W32) (b : Block) : CmdOut :=
  let w := word args 0
  let m := Mode.ofCode (bits w 31 29)
  let ack := bit w 28
  let B := join64 (word args 1) (word args 2)
  if args.length ≠ 3 then .fail .badArg noDetail
  else if bits w 27 0 ≠ 0 then badArg 0
  else if b.pair.role = 3 ∨ b.pair.role = 4 then .fail .pairRole noDetail
  else if !b.host.coachUp then .fail .notReady noDetail
  else match modeFails b m ack with
    | some c => .fail (failStatus c) noDetail
    | none => match (if B = 0 then none else checkBoundary b B) with
      | some s => .fail s 1
      | none =>
        let B := if B = 0 then modeBoundary b m else B
        let b := cancelMode false b
        .ok (mirror B 0x0201 (w :: w64 (now b)) (addAction { boundary := B, kind := .mode m ack, op := 0x0201, h := h } b)) []

def execModeRequest (h : Hdr) (args : List W32) (s : State) : Host.Outcome State Fault Refusal :=
  s.act (runCmd h 0x0201 [] (modeRequest h args))

/-- A request that holds takes effect (Table 8-3). -/
def modeTakes (m : Mode) (b : Block) : Block :=
  match m with
  | .safe =>
    match b.md.mode with
    | .service => setMode .safe 0 b
    | .charge | .discharge => immediateStop 0 b
    | _ => startStop 0 b
  | .service =>
    let u := unverifiedCells b
    let b := if u = [] then b else raise .serviceUnverified (bitmapWords 2048 (bitmapOf u)) b
    setMode .service 0 b
  | m => setMode m 0 b

/-- A request that holds acts; one for SAFE that starts an orderly stop stays until the stop has brought the mode to SAFE
(R292). -/
def modeActs (m : Mode) (a : Action) (b : Block) : Block :=
  let b := modeTakes m b
  if m = .safe ∧ b.md.stop = true then { b with host.actions := b.host.actions ++ [a] } else actionEvent a .ok b

/-- The pending request at its boundary (R287); a running stop keeps a request for SAFE (R292). -/
def modeDue (b : Block) : Block :=
  let wait : Action → Bool := fun a => match a.kind with | .mode m _ => m == .safe && b.md.stop | _ => false
  let (due, b) := dueActions (fun a => match a.kind with | .mode _ _ => !wait a | _ => false) b
  due.foldl (fun (b : Block) a => match a.kind with
    | .mode m ack =>
      (match modeFails b m ack with
        | some c => actionEvent a (if c = 0 then .wrongMode else .notReady) (raise .modeRefused [w32 c] b)
        | none => modeActs m a b)
    | _ => b) b

/-! ### Integration by the mode manager (R299) -/

/-- BLOCKED cells of a limb that meet R116, by falling VCAP, ties to the lower number. -/
def candidates (b : Block) (l : Nat) (ok : Nat → Bool) : List Nat :=
  ((limbCells b l).filter fun n => ok n && !lvShut b n).foldr (insertDesc b) []
where
  /-- Insert a cell before the first of lower VCAP. -/
  insertDesc (b : Block) (n : Nat) : List Nat → List Nat
    | [] => [n]
    | m :: ms => if flt (recVcap b n) (recVcap b m) then m :: insertDesc b n ms else n :: m :: ms

/-- Whether the mode manager integrates the cells of a limb now: by R299 also during an orderly stop, but not once an
immediate stop has blocked the cells (DESIGN CHOICE, log 20). -/
def integrates (b : Block) (l : Nat) : Bool :=
  !b.md.imm.isSome &&
  (((b.md.mode == .charge || b.md.mode == .discharge) && b.md.phase == 2)
   || (coastable b.md.mode && cfgBit b 0x10 l 0 14))

/-- One stride of R299: at most CH_BATCH cells of each limb. -/
def integrateStep (b : Block) : Block :=
  (limbs b).foldl (fun (b : Block) l =>
    if integrates b l then
      ((candidates b l (canIntegrate b)).take (cfgN b 0x11 0 6 15 8)).foldl (fun (b : Block) n => integrate n b) b
    else b) b

/-- R116 as the block stride of R315 can meet it: the record of this stride reports BLOCKED. -/
def canRejoin (b : Block) (n : Nat) : Bool :=
  let c := chain b (n / 64)
  c.st == .ready && c.admitted && decide (c.rttPs ≤ 3000000) && (hub b n).slot == .blocked && !(hub b n).stale
    && (hub b n).recAt == some (work b) && recLadder b n == 3 && !recFault b n && inWindow b n && sends b

/-! ### Stride rows of Table 8-3 -/

def overRated (b : Block) (n : Nat) (f : W32) : W32 := fmul f (dVRated (cellDesc b n))

/-- Cells of configured limbs that are not BYPASSED, with their limb. -/
def chargeCells (b : Block) : List (Nat × Nat) :=
  ((limbs b).flatMap fun l => (limbCells b l).map fun n => (l, n)).filter fun c => (hub b c.2).slot != .bypassed

/-- CHARGE (Table 8-3). -/
def chargeStep (b : Block) : Block :=
  if b.md.phase = 1 then
    if (chargeCells b).all fun c => !(hub b c.2).stale && fle (overRated b c.2 (cfgW b 0x10 c.1 2)) (recVcap b c.2) then
      { b with md := { b.md with phase := 2, phaseAt := now b, roundFailed := [], settleRun := 0 } }
    else b
  else if b.md.phase = 2 then
    let ok := (chargeCells b).all fun c =>
      isActive b c.2 && fle (fabs (fsub (recVcap b c.2) (overRated b c.2 (cfgW b 0x11 0 4)))) (overRated b c.2 (cfgW b 0x11 0 5))
    let b := { b with md.settleRun := if ok then b.md.settleRun + 1 else 0 }
    if ok ∧ cfgN b 0x11 0 6 31 16 ≤ b.md.settleRun then
      raise .chargeDone [] { b with md := { b.md with phase := 3, phaseAt := now b } }
    else b
  else b

/-- The BLOCK of R291 without a change of mode. -/
def blockCells (b : Block) : Block := if sends b then sendBlock 16 b else b

/-- The integration round of DISCHARGE has ended (R297). -/
def roundEnds (b : Block) : Bool :=
  decide (b.md.phaseAt + 3 ≤ now b) && (limbAll b).all fun n =>
    (hub b n).slot != .integrating && (!canIntegrate b n || b.md.roundFailed.contains n)

/-- DISCHARGE (Table 8-3). -/
def dischargeStep (b : Block) : Block :=
  if b.md.phase = 2 then
    let b := if b.md.roundOver then b else { b with md.roundOver := roundEnds b }
    if b.md.roundOver && (deviceCells b).all fun n => !isActive b n || fle (recVcap b n) (overRated b n (cfgW b 0x11 0 8)) then
      blockCells { b with md := { b.md with phase := 1, phaseAt := now b } }
    else b
  else if b.md.phase = 1 ∧ 100 ≤ b.md.safeRunAll then
    raise .dischargeDone [] { b with md := { b.md with phase := 3, phaseAt := now b } }
  else b

/-- One boundary of COAST and of a return (R310, R312, R313). -/
def coastStep (b : Block) : Block :=
  match b.md.returnAt with
  | some t => if t ≤ now b then setMode b.md.prev 2 b else { b with md.coastStrides := b.md.coastStrides + 1 }
  | none =>
    let free := [0, 1].filter fun s => (side b s).free
    let ok := free ≠ [] && free.all fun s => (side b s).srcState == 2 && fle (cfgW b 0x12 s 6) (side b s).vmag
    let c := if ok then b.md.returnCount + 1 else 0
    let need := (free.map fun s => cfgN b 0x12 s 7 21 6).foldl Nat.max 0
    { b with md := { b.md with
      coastStrides := b.md.coastStrides + 1, returnCount := c
      classifyAt := if ok && c == need then some (now b + 1) else b.md.classifyAt } }

/-- Current limits count down; that of a class 3 return starts at R+1 (R313, R317). -/
def limitStep (b : Block) : Block :=
  { b with md.sides := Tbl.mapAll {} b.md.sides fun _ (x : Side) =>
      match x.class3At with
      | some r => if r < now b then { x with class3At := none, cl := true, clLeft := cfgN b 0x11 0 0 15 0, clAt := now b } else x
      | none => if x.cl && decide (x.clAt < now b) then { x with clLeft := x.clLeft - 1, clAt := now b } else x }

/-! ### Forced-stop causes (Table 8-4, R297, R311) -/

/-- Limbs with fewer ACTIVE cells than LIMB_MIN. -/
def thinLimbs (b : Block) : List Nat :=
  (limbs b).filter fun l => decide (((limbCells b l).filter (isActive b)).length < cfgN b 0x10 l 0 23 15)

/-- R297 judges in this stride. -/
def judgesLimbs (b : Block) : Bool :=
  (coastable b.md.mode || b.md.mode == .coast || (b.md.mode == .discharge && b.md.phase == 2 && b.md.roundOver))
  && (match b.md.jumpAt with
      | some r => decide (r + 6 ≤ now b)
      | none => true)

/-- E_FLOOR of a limb (R311). -/
def eFloor (b : Block) (l : Nat) : W32 :=
  fsum (((limbCells b l).filter (isActive b)).map fun n =>
    let v := overRated b n (cfgW b 0x10 l 2)
    fmul (fmul (fmul fHalf (dCNom (cellDesc b n))) v) v)

def belowFloor (b : Block) : Bool := (limbs b).any fun l => flt (word (limbWords b.sup.capFactor b l) 2) (eFloor b l)

/-- Some lane holds an output at FAULT_N with ACTION = 2 (R221). -/
def saturated (b : Block) : Bool := b.eng.any fun kv => (List.range 8).any (satFault b kv.1 2)

/-- The causes judged at every boundary. -/
def stopCauses (b : Block) : Block :=
  let b := if b.prot.copyA.line || b.prot.copyB.line then immediateStop (stopRow 0) b else b
  let b := if b.prot.patrolLost then immediateStop (stopRow 1) b else b
  let b := if judgesLimbs b then
      (match thinLimbs b with
        | [] => b
        | l :: _ => if b.md.imm.isSome then b else immediateStop (stopRow 6) (raise .limbMin [w32 l] b))
    else b
  let b := if b.md.mode = .coast ∧ belowFloor b = true then immediateStop (stopRow 7) b else b
  let live := [0, 1].filter fun s => withLimbs b s && (side b s).live
  let b := match b.md.mode, live with
    | .discharge, s :: _ | .service, s :: _ =>
      if b.md.imm.isSome then b else immediateStop (stopRow 8) (raise .gridLive [w32 s] b)
    | _, _ => b
  let b := if saturated b then orderlyCause (stopRow 9) b else b
  -- R439: PLOUGH without time left; R525: the ramp of a shutdown has had its 2,000 strides
  let b := if b.md.mode = .plough ∧ b.safe.expired = true then orderlyCause 4 b else b
  match b.sup.stopBy with
  | some t => if t ≤ now b then immediateStop 7 { b with sup.stopBy := none } else b
  | none => b

/-- The runs of discharged strides (R294, R301). -/
def safeRuns (b : Block) : Block :=
  let run := fun (n : Nat) ok => if ok then Nat.min (n + 1) 100 else 0
  { b with md := { b.md with safeRun := run b.md.safeRun (verifiedSafe b (limbAll b))
                             safeRunAll := run b.md.safeRunAll (verifiedSafe b (deviceCells b)) } }

/-- MODE_STRIDE_EVAL (R294): what acts at this boundary, the rows of the mode in force, the causes, integration. -/
def modeStride (b : Block) : Block :=
  if isPartner b then b
  else
    let b := limitStep (safeRuns (rampStep (forcedBoundary b)))
    let b := match b.md.mode with
      | .charge => chargeStep b
      | .discharge => dischargeStep b
      | .coast => if b.md.stop then { b with md.coastStrides := b.md.coastStrides + 1 } else coastStep b
      | _ => b
    gridWords (integrateStep (stopCauses b))

def execModeStrideEval (s : State) : Host.Outcome State Fault Refusal := s.act modeStride

/-! ### Timers -/

/-- CH_TIMEOUT (Table 8-3). -/
def execChargeTimeout (s : State) : Host.Outcome State Fault Refusal :=
  s.act fun b =>
    if b.md.mode = .charge ∧ b.md.phase ≠ 3 ∧ b.md.enteredAt + cfgN b 0x11 0 7 31 16 * 100000 ≤ now b then
      immediateStop 5 (raise .chargeFail [] b)
    else b

/-- DIS_TIMEOUT (Table 8-3). -/
def execDischargeTimeout (s : State) : Host.Outcome State Fault Refusal :=
  s.act fun b =>
    if b.md.mode = .discharge ∧ b.md.phase ≠ 3 ∧ b.md.enteredAt + cfgN b 0x11 0 7 15 0 * 100000 ≤ now b then
      let b := raise .dischargeFail [] b
      if b.md.phase = 2 then blockCells { b with md := { b.md with phase := 1, phaseAt := now b } } else b
    else b

/-- R310. -/
def execCoastMaxExpiry (s : State) : Host.Outcome State Fault Refusal :=
  s.act fun b =>
    if b.md.mode = .coast ∧ cfgN b 0x11 0 1 31 16 * 100 ≤ b.md.coastStrides then orderlyCause (stopRow 11) b else b

/-! ### Return (R312 to R315) -/

/-- The class of a deviation (Table 8-11). -/
def jumpClass (d : Int) : Nat := if d.natAbs ≤ 357913941 then 1 else if d.natAbs ≤ 1073741824 then 2 else 3

/-- One free-running side returns at boundary R. -/
def classifySide (s : Nat) (b : Block) : Block :=
  let x := side b s
  let d := x.offset
  let c := jumpClass d
  let b := onSide s (fun (x : Side) =>
    let x := { x with free := false, jumpClass := c }
    match c with
    | 1 => { x.newCtrl (now b) (x.src - ofInt d) with corr := d, correcting := true, corrAt := now b }
    | 2 => { x.newCtrl (now b) x.src with cl := true, clLeft := cfgN b 0x11 0 0 15 0, clAt := now b }
    | _ => { x with class3At := some (now b) }) b
  raise .jump [w32 s, ofInt d, w32 c] b

/-- RETURN_CLASSIFY: boundary R. -/
def returnClassify (b : Block) : Block :=
  if b.md.mode ≠ .coast ∨ b.md.classifyAt ≠ some (now b) then b
  else
    let free := [0, 1].filter fun s => (side b s).free
    let b := free.foldl (fun (b : Block) s => classifySide s b) b
    let c3 := free.any fun s => (side b s).class3At.isSome
    gridWords { b with md := { b.md with
      classifyAt := none, returnCount := 0, returnAt := some (now b + cfgN b 0x0A 0 0 31 24)
      jumpAt := if c3 then some (now b) else b.md.jumpAt } }

def execReturnClassify (s : State) : Host.Outcome State Fault Refusal := s.act returnClassify

/-- R314: one boundary of the corrections; the boundary R itself keeps c = Δ. -/
def correctSide (s : Nat) (b : Block) : Block :=
  let x := side b s
  if !x.correcting ∨ now b ≤ x.corrAt then b
  else
    let c := corrNext x.corr (jumpStep b)
    let b := onSide s (fun (x : Side) =>
      { x.newCtrl (now b) (x.src - ofInt c) with corr := c, corrAt := now b, correcting := c != 0, jumpClass := if c = 0 then 0 else x.jumpClass }) b
    if c = 0 then raise .jumpDone [w32 s] b else b

def execJumpCorrection (s : State) : Host.Outcome State Fault Refusal :=
  s.act fun b => if isPartner b then b else gridWords (correctSide 1 (correctSide 0 b))

/-- R315: the BLOCK after boundary R, and in R+1 the integration of every cell that is there. -/
def jumpBlock (b : Block) : Block :=
  match b.md.jumpAt with
  | none => b
  | some r =>
    if now b = r then blockCells b
    else if now b = r + 1 then
      gridWords ((limbs b).foldl (fun (b : Block) l =>
        (candidates b l (canRejoin b)).foldl (fun (b : Block) n => integrate n b) b) b)
    else b

def execJumpBlock (s : State) : Host.Outcome State Fault Refusal := s.act jumpBlock

def execJumpBlockEnd (s : State) : Host.Outcome State Fault Refusal :=
  s.act fun b => match b.md.jumpAt with
    | some r => if r + 6 ≤ now b then gridWords { b with md.jumpAt := none } else b
    | none => b

/-- R313: CL_STRIDES have passed. -/
def execClExpiry (s : State) : Host.Outcome State Fault Refusal :=
  s.act fun b =>
    gridWords { b with md.sides := Tbl.mapAll {} b.md.sides fun _ (x : Side) =>
      if x.cl && x.clLeft == 0 then { x with cl := false, jumpClass := if x.jumpClass = 1 then 1 else 0 } else x }

end Sys2Proof.Machine
end

