-- ==== Sys2Proof/Machine/Trust.lean ====
section
/-! DEFINITION. Trust and in-service change (chapter 17): verification of images, flash writes, activation and trial,
restarts of the Coach and of Patrol, anti-rollback, attestation, debug authorization. -/

namespace Sys2Proof.Machine

/-! ### Verification (R557 to R561, Table 17-6) -/

/-- Bytes of the region of a kind (Table 17-7); a DEBUG image is not stored. -/
def regionBytes (kind : Nat) : Nat :=
  match kind with
  | 1 => 64 * 1048576
  | 2 => 8 * 1048576
  | 6 | 7 => 16 * 1048576
  | _ => 1048576

/-- The section types of an image suit its kind (Table 17-4). -/
def typesSuit (kind : Nat) (ty : List Nat) : Bool :=
  let n := fun t => (ty.filter (· == t)).length
  match kind with
  | 1 | 2 => ty == [1]
  | 3 => n 3 == 1 && decide (n 4 ≤ 1) && ty.length == n 3 + n 4
  | 4 => ty == [5]
  | 5 => ty == [2]
  | 6 => ty == [3]
  | 7 => n 3 == 1 && decide (n 6 ≤ 1) && ty.length == n 3 + n 6
  | 8 => ty == [7]
  | _ => false

/-- Section types in order. -/
def sectTypes (l : List W32) : List Nat := (List.range (iSects l)).map (sType l)

/-- Step 1: header, length, placement and types of the sections. -/
def imageForm (kind : Nat) (l : List W32) : Bool :=
  let n := iSects l
  let body := 64 + 80 * n + 116
  word l 0 == 0x4F4C5731 && bits (word l 1) 31 24 == 1 && iKind l == kind && bits (word l 1) 7 0 == 0
  && decide (1 ≤ n ∧ n ≤ 16) && bits (word l 3) 23 0 == 0 && ((l.drop 11).take 5).all (· == 0)
  && decide (iSvn l ≤ 64) && (kind == 1 || kind == 2 || kind == 4 || iSvn l == 0)
  && iLen l % 64 == 0 && iLen l == 4 * l.length && decide (iLen l ≤ regionBytes kind)
  && ((List.range n).all fun i => sOffset l i % 64 == 0 && decide (body ≤ sOffset l i)
      && decide (sOffset l i + sLength l i ≤ iLen l) && bits (word l (16 + 20 * i)) 23 0 == 0 && word l (19 + 20 * i) == 0)
  && spansApart ((List.range n).map fun i => (sOffset l i, sLength l i))
  && typesSuit kind (sectTypes l)

/-- Step 2: the target. -/
def targetOk (l : List W32) : Bool :=
  (iTarget l == 0 || iTarget l == Config.deviceSerial.toNat)
  && (!((sectTypes l).contains 4 || (sectTypes l).contains 7) || iTarget l != 0)

/-- Integrator key i of the active keyring, 57 bytes, and its KEY_ID (R557, Table 17-5). -/
def integratorKey (b : Block) (i : Nat) : List Nat := (bytesOf (((keyring b).drop (6 + 16 * i)).take 15)).take 57
def integratorId (b : Block) (i : Nat) : List W32 := keyId (integratorKey b i)

/-- Step 3: KEY_ID names a key that may sign the kind (Table 17-4). -/
def keyMaySign (b : Block) (kind : Nat) (id : List W32) : Bool :=
  (id == keyId firmwareKey && [1, 2, 4, 8].contains kind)
  || (id == keyId identityKey && kind == 3)
  || ((List.range (bits (word (keyring b) 0) 31 28)).any fun i =>
      id == integratorId b i && decide (3 ≤ kind) && bit (word (keyring b) (21 + 16 * i)) kind)

/-- The keys that the device recognises (Table 17-1). -/
def knownKeys (b : Block) : List (List Nat) :=
  firmwareKey :: identityKey :: (List.range (bits (word (keyring b) 0) 31 28)).map (integratorKey b)

/-- Step 4: the signature over the manifest under the key that KEY_ID names, its two spare bytes zero. -/
def signatureOk (b : Block) (l : List W32) : Bool :=
  bits (word (iSignature l) 28) 31 16 == 0 && (match (knownKeys b).find? fun k => keyId k == iKeyId l with
    | some k => goldVerify k (bytesOf (manifest l)) ((bytesOf (iSignature l)).take 114)
    | none => false)

/-- Step 5: anti-rollback. -/
def versionOk (b : Block) (kind : Nat) (l : List W32) : Bool :=
  let minV := fun k => decide ((word (keyring b) k).toNat ≤ (iVersion l).toNat)
  match kind with
  | 1 | 2 | 4 => decide (b.trust.svnOtp ≤ iSvn l)
  | 3 => minV 1
  | 5 => minV 2
  | 6 => minV 3
  | 7 => minV 4
  | _ => minV 5

/-- Step 6: every section digest. -/
def digestsOk (l : List W32) : Bool :=
  (List.range (iSects l)).all fun i =>
    sDigest l i == wordsOf 16 (shake256 ((bytesOf (sWords l i)).take (sLength l i)) 64)

/-- A record as CFG_WRITE would check it, mode conditions apart (step 7): a chain or entry that is only busy is one. -/
def recordRefused (b : Block) (r : Nat × Nat × List W32) : Bool :=
  let l := if r.1 = 0x81 then r.2.2 ++ [0] else r.2.2
  (cfgBadWord r.1 r.2.1 l).isSome || (match ownCheck b r.1 r.2.1 l with
    | some (.busy, _) => false
    | some _ => true
    | none => false)

/-- The structures of a kind's records (R560). -/
def kindStructs (kind st : Nat) : Bool :=
  let patrol := patrolStructs.contains st
  let calib := cfgCalib st
  match kind with
  | 3 => patrol
  | 6 => calib
  | 7 => !patrol && !calib && cfgWords st != 0
  | _ => false

/-- The records of an image, and the first that is refused. -/
def imageRecords (l : List W32) : List (Nat × Nat × List W32) :=
  let r := (sectionOf l 3).getD []
  recordList r.length r
def badRecord (b : Block) (rs : List (Nat × Nat × List W32)) : Option Nat :=
  (List.range rs.length).find? fun i => recordRefused b (rs.getD i (0, 0, []))

/-- Step 7: the content. -/
def contentOk (b : Block) (kind : Nat) (l : List W32) : Bool :=
  match kind with
  | 3 | 6 | 7 =>
    let r := (sectionOf l 3).getD []
    recordsFit (kindStructs kind) r.length r && (badRecord (soonCfg b) (imageRecords l)).isNone
    && (match sectionOf l 4 with | some p => p.length == 20 | none => true)
    && (match sectionOf l 6 with
      | some a => a.length == 272 && a.all fun w => decide (w.toNat ≤ 31) || w.toNat == 255
      | none => true)
  | 4 =>
    let k := (sectionOf l 5).getD []
    let n := bits (word k 0) 31 28
    decide (1 ≤ n ∧ n ≤ 8) && bits (word k 0) 26 0 == 0 && decide (6 + 16 * n ≤ k.length)
    && (List.range n).all fun i => (word k (21 + 16 * i)).toNat % 8 == 0 && decide ((word k (21 + 16 * i)).toNat < 512)
  | 5 => (carveRefused none ((sectionOf l 2).getD [])).isNone
  | 8 =>
    let t := (sectionOf l 7).getD []
    t.length == 9 && bits (word t 8) 11 0 == 0 && decide (1 ≤ bits (word t 8) 28 12 ∧ bits (word t 8) 28 12 ≤ 86400)
    && (match b.trust.challenge with
      | some (c, till) => t.take 8 == c && decide (now b ≤ till)
      | none => false)
  | _ => true

/-- The first step of Table 17-6 that fails, of steps 1 to 7; 0: none. -/
def verifyImage (b : Block) (kind : Nat) (l : List W32) : Nat :=
  if !imageForm kind l then 1
  else if !targetOk l then 2
  else if !keyMaySign b kind (iKeyId l) then 3
  else if !signatureOk b l then 4
  else if !versionOk b kind l then 5
  else if !digestsOk l then 6
  else if !contentOk b kind l then 7
  else 0

/-! ### Writing images (R564, R446, R512) -/

/-- The SLOT of Table 17-8: bank of an A/B kind, slot of kind 5. -/
def writeBank (b : Block) (kind : Nat) : Nat := 1 - activeBank b kind

/-- The stores an IMAGE_WRITE of a kind fills: both devices for kinds 3 and 5, else the inactive bank. -/
def writeDevs (b : Block) (kind : Nat) : List Nat := if kind = 3 ∨ kind = 5 then [0, 1] else [writeBank b kind]

/-- The SLOT an event names. -/
def eventSlot (b : Block) (kind slot : Nat) : Nat := if kind = 3 ∨ kind = 5 ∨ kind = 8 then slot else writeBank b kind

/-- An image is refused with its reason (R561). -/
def rejectImage (kind slot reason : Nat) (b : Block) : Block :=
  let b := if kind = 8 then b else (writeDevs b kind).foldl (fun (b : Block) d =>
    storeImage kind slot d { stored b kind slot d with reason := reason } b) b
  raise .imageRejected [w32 kind, w32 (eventSlot b kind slot), w32 reason] b

/-- IMAGE_WRITE (R564): the image as read from the host. -/
def imageWrite (kind slot : Nat) (l : List W32) (b : Block) : CmdOut :=
  if kind = 0 ∨ 8 ≤ kind ∨ (if kind = 5 then 31 < slot else slot ≠ 0) then badArg 0
  else if !feature b 9 then .fail .feature noDetail
  else if kind = 3 ∧ atRest b = false then .fail .wrongMode noDetail
  else if kind = 3 ∧ b.safe.session.isSome then .fail .busy noDetail
  else if kind = 5 ∧ (b.host.waiting.any fun w => w.op == 0x0801 && word w.data 0 == w32 slot) then .fail .busy noDetail
  else if (writeDevs b kind).any fun d => b.trust.flashFailed.getLsbD d then .fail .flashFault noDetail
  else match verifyImage b kind l with
    | 0 => .wait b [.flash] (w32 kind :: w32 slot :: l)
    | r => .part (rejectImage kind slot r b) .imageBad []

def execImageWrite (h : Hdr) (kind slot : BitVec 8) (image : List W32) (s : State) : Host.Outcome State Fault Refusal :=
  s.act (runCmd h 0x0803 [.flash] (imageWrite kind.toNat slot.toNat image))

/-- A kind 3 image takes effect as a SAFE_CFG_COMMIT (R564, R446): change-log KIND 1, or 5 with a PASSWORD section. -/
def patrolCfgTakes (l : List W32) (b : Block) : Block :=
  let pw := sectionOf l 4
  let b := match pw with
    | some p => { b with safe.pw := some ((bytesOf p).take 16, ((bytesOf p).drop 16).take 64) }
    | none => b
  committed (if pw.isSome then 5 else 1) [0, 0, 0, 0] b

/-- The flash write of an image ends; `ok`: step 8 holds. -/
def imageWritten (w : Waiting) (ok : Bool) (b : Block) : Block :=
  let kind := (word w.data 0).toNat
  let slot := (word w.data 1).toNat
  let l := w.data.drop 2
  let at' := eventSlot b kind slot
  let b := (writeDevs b kind).foldl (fun (b : Block) d =>
    storeImage kind slot d { valid := ok, reason := if ok then 0 else 8, words := l } b) b
  if !ok then complete w.h .flashFault noDetail [] (raise .imageRejected [w32 kind, w32 at', 8] b)
  else
    let b := raise .imageWritten ([w32 kind, w32 at'] ++ measurement l) b
    complete w.h .ok noDetail [] (if kind = 3 then patrolCfgTakes l b else b)

/-- SAFE_CFG_COMMIT: both banks are written, or the staged copy stays (R446). -/
def commitWritten (w : Waiting) (ok : Bool) (b : Block) : Block :=
  if !ok then complete w.h .flashFault noDetail [] b
  else match b.safe.session with
    | some s => complete w.h .ok noDetail [] (commitStaged s b)
    | none => complete w.h .noSession noDetail [] b

/-- The opcode of the command that a flash job serves. -/
def jobOp (j : FlashJob) : Nat :=
  match j with
  | .config => 0x0A05
  | .image => 0x0803
  | .checkpoint => 0x0B04

/-- The write of a life checkpoint has ended: a command that asked for it ends, one that was held begins. -/
def ckptWritten (ok : Bool) (b : Block) : Block :=
  match b.led.writing with
  | none => b
  | some c =>
    let st : Status := if ok then .ok else .flashFault
    let b := endWaiting (fun w => w.op == 0x0B04 && decide (w.since ≤ c.at?.getD 0)) st [] (checkpointDone ok b)
    match b.led.heldCkpt with
    | some o => checkpoint (flashHeld b) o.2 o.1 b
    | none => b

/-- A flash write has ended; while a rail dips, only one under way when the dip began (R509, R512). `failed`: devices found
failed (Table 1-13). -/
def flashDone (j : FlashJob) (ok : Bool) (failed : BitVec 2) (b : Block) : Block :=
  let b := { b with trust.flashFailed := b.trust.flashFailed ||| failed }
  if j = .checkpoint then ckptWritten ok b
  else
    match b.host.waiting.find? fun w => w.op == jobOp j && (!flashHeld b || decide (w.since < dipStride b)) with
    | none => b
    | some w =>
      let b := { b with host := { b.host with waiting := b.host.waiting.erase w } }
      if j = .config then commitWritten w ok b else imageWritten w ok b

def execFlashWriteDone (job : FlashJob) (ok : Bool) (failed : BitVec 2) (s : State) : Host.Outcome State Fault Refusal :=
  s.act (flashDone job ok failed)

/-- R512: a command has waited 1 s on a dip; nothing is written. -/
def flashWait (b : Block) : Block :=
  let late : Waiting → Bool := fun w => w.objs.contains .flash && decide (Nat.max w.since (dipStride b) + 100000 ≤ now b)
  if !flashHeld b then b
  else
    let asks := b.host.waiting.filter fun w => w.op == 0x0B04
    let b := if b.led.heldCkpt.map Prod.snd = some true ∧ asks.any late ∧ asks.all late then { b with led.heldCkpt := none }
      else b
    (b.host.waiting.filter late).foldl (fun (b : Block) w => complete w.h .supplyLow noDetail [] b)
      { b with host := { b.host with waiting := b.host.waiting.filter fun w => !late w } }

def execFlashWaitTimeout (s : State) : Host.Outcome State Fault Refusal := s.act flashWait

/-! ### Restarts of the Coach and of Patrol (R538, R568, R569) -/

/-- COACH_STATUS.UP, with vector 3 at a change. -/
def setCoachUp (v : Bool) (b : Block) : Block :=
  if b.host.coachUp = v then b else msix 3 { b with host := { b.host with coachUp := v } }

/-- The Coach restarts: what it executes ends with ST_RESTARTED; TCP connections close (R487); it takes the flash bus again
when it runs (DESIGN CHOICE, log 38). -/
def coachRestart (b : Block) : Block :=
  let b := if b.trust.bus = .coach then { b with trust.bus := .free } else b
  let b := { b with pmu := Tbl.mapAll {} b.pmu fun _ (p : Pmu) => { p with tcp := false } }
  let b := endBulk .restarted (endAllWaiting .restarted b)
  setCoachUp false { b with host := { b.host with restarts := satInc 255 b.host.restarts } }

def trialOf (b : Block) (kind : Nat) : Bool := b.trust.trial.getLsbD (kind - 1)

/-- The active bank of a kind, with its TRIAL flag, in the activation record. -/
def setActive (kind bank : Nat) (trial : Bool) (b : Block) : Block :=
  let m : BitVec 8 := 1#8 <<< (kind - 1)
  { b with trust := { b.trust with
    active := if bank = 1 then b.trust.active ||| m else b.trust.active &&& ~~~m
    trial := if trial then b.trust.trial ||| m else b.trust.trial &&& ~~~m
    trialAt := Tbl.set 0 b.trust.trialAt kind (if trial then now b else 0) } }

/-- The trial of a kind ends in a revert to the previous bank (R568). -/
def revertImage (kind cause : Nat) (b : Block) : Block :=
  let bank := 1 - activeBank b kind
  raise .imageReverted [w32 kind, w32 bank, w32 cause] (setActive kind bank false b)

/-- The flash bus changes hands (R20, Table 1-2). -/
def busTo (o : BusOwner) (b : Block) : Block := { b with trust.bus := o }

/-- Devices found failed at read. An A/B kind whose active bank is on one boots, and is updated, from the other bank
(Table 1-13): of the kinds that are read here, the active bank changes over. -/
def flashRead (failed : BitVec 2) (kinds : List Nat) (b : Block) : Block :=
  let b := { b with trust.flashFailed := b.trust.flashFailed ||| failed }
  kinds.foldl (fun (b : Block) k =>
    let a := activeBank b k
    if b.trust.flashFailed.getLsbD a && !b.trust.flashFailed.getLsbD (1 - a) then setActive k (1 - a) false b else b) b

/-- A commanded Patrol restart begins (R569): legs other than choppers' off, running drives HALTED. Patrol takes the flash
bus back for the load if the Coach has not taken it (R20). -/
def patrolRestart (b : Block) : Block :=
  let T := now b * 8000
  let b := if b.trust.bus = .coach then b else busTo .patrol b
  let b := { b with prot.restartAt := some (now b) }
  let b := (List.range 16).foldl (fun (b : Block) n => if legFunc b n = 2 then b else dropEn n T b) b
  (List.range 4).foldl (fun (b : Block) d =>
    if (drive b d).st = .off ∨ (drive b d).st = .fault then b
    else onDrive d (fun v => { v with integ := 0 }) (driveTo d .halted false b)) b

/-- Patrol runs again: the held legs are released, the drives caught, the flash bus released. -/
def patrolRestarted (failed : BitVec 2) (b : Block) : Block :=
  if b.prot.restartAt.isNone then b
  else
    let T := now b * 8000
    let b := flashRead failed [2] b
    let b := if b.trust.bus = .patrol then busTo .free b else b
    let b := { b with prot.restartAt := none, sup.patrolBank := activeBank b 2 == 1 }
    let b := (List.range 16).foldl (fun (b : Block) n =>
      if legHeld b n ∨ legFunc b n = 2 ∨ legFunc b n = 3 then b else restartLeg n T b) b
    (List.range 4).foldl (fun (b : Block) d => driveRelease d T b) b

def execPatrolRestartDone (failed : BitVec 2) (s : State) : Host.Outcome State Fault Refusal := s.act (patrolRestarted failed)

/-- R45: a lockstep mismatch restarts the Coach; a trial image is given up (R568). -/
def coachMismatch (b : Block) : Block :=
  if !b.host.coachUp then b
  else coachRestart (if trialOf b 1 then revertImage 1 1 b else b)

def execCoachLockstepMismatch (s : State) : Host.Outcome State Fault Refusal := s.act coachMismatch

/-- The restart has ended: held doorbells are accepted in order (R538). -/
def coachRestarted (failed : BitVec 2) (b : Block) : Block :=
  if b.host.coachUp then b
  else
    let b := busTo .coach (flashRead failed [1] b)
    let held := b.host.held
    let b := setCoachUp true { b with host.held := [], sup.coachBank := activeBank b 1 == 1, sup.coachOk := true }
    let b := raise .coachRestart [w32 (activeBank b 1)] b
    held.foldl (fun (b : Block) m => acceptDoorbell m b) b

def execCoachRestartDone (failed : BitVec 2) (s : State) : Host.Outcome State Fault Refusal := s.act (coachRestarted failed)

/-- TRIAL_TIMEOUT (R568): 600 s without a confirm. -/
def trialTimeout (kind : Nat) (b : Block) : Block :=
  if trialOf b kind ∧ Tbl.get 0 b.trust.trialAt kind + 60000000 ≤ now b then
    let b := revertImage kind 2 b
    if kind = 1 then coachRestart b else patrolRestart b
  else b

def execTrialTimeout (patrol : Bool) (s : State) : Host.Outcome State Fault Refusal :=
  s.act (trialTimeout (if patrol then 2 else 1))

/-! ### Activation (R567, R568, R570, R571) -/

/-- The digest of a CALIB image's records of STRUCT 0x0B to 0x0E in the form of R573 (R570). -/
def calibDigest (img : Image) : List W32 :=
  let rs := (imageRecords img.words).filter fun r => decide (r.1 ≤ 0x0E)
  digest64 (rs.flatMap fun r => cfgHead r.1 r.2.1 :: r.2.2)

/-- EV_IMAGE_ACTIVATED. -/
def activatedEvent (kind bank B : Nat) (trial confirm : Bool) (b : Block) : Block :=
  raise .imageActivated ([w32 kind, w32 bank] ++ w64 B ++ [wBool trial, wBool confirm]) b

/-- IMAGE_ACTIVATE of a CALIB image: its records take effect together at B. -/
def activateCalib (h : Hdr) (bank B : Nat) (b : Block) : CmdOut :=
  if isPartner b then .fail .pairRole noDetail
  else match checkBoundary b B with
    | some st => .fail st 1
    | none =>
      match badRecord (soonCfg b) (imageRecords (stored b 6 0 bank).words) with
      | some i => .fail .badArg i
      | none =>
        let b := setActive 6 bank false b
        let b := mirror B 0x0804 (pack [fld 6 31 24, fld bank 23 23] :: calibDigest (stored b 6 0 bank)) b
        .ok (activatedEvent 6 bank B false false
          (addAction { boundary := B, kind := .calibImage bank, op := 0x0804, h := h } b)) []

/-- IMAGE_ACTIVATE (Table 17-9). -/
def imageActivate (h : Hdr) (kind bank B : Nat) (b : Block) : CmdOut :=
  let img := stored b kind 0 bank
  if ! [1, 2, 4, 6, 7].contains kind then badArg 0
  else if !img.valid then .fail .notReady noDetail
  else if !versionOk b kind img.words ∧ kind ≤ 4 then
    .part (raise .imageRejected [w32 kind, w32 bank, 5] b) .notReady []
  else match kind with
    | 1 => .ok (coachRestart (activatedEvent 1 bank 0 true false (setActive 1 bank true b))) []
    | 2 =>
      if !atRest b ∧ b.pair.role ≠ 1 ∧ b.pair.role ≠ 4 then .fail .wrongMode noDetail
      else .ok (patrolRestart (activatedEvent 2 bank 0 true false (setActive 2 bank true b))) []
    | 4 => if !atRest b then .fail .wrongMode noDetail
      else .ok (activatedEvent 4 bank 0 false false (setActive 4 bank false b)) []
    | 6 => activateCalib h bank B b
    | _ => .ok (activatedEvent 7 bank 0 false false (setActive 7 bank false b)) []

def execImageActivate (h : Hdr) (kind : BitVec 8) (bank : Bool) (rsv : BitVec 14) (boundary : Nat) (s : State) :
    Host.Outcome State Fault Refusal :=
  s.act (runCmd h 0x0804 [] (unlessRsv (rsv != 0) 0 (imageActivate h kind.toNat bank.toNat boundary)))

/-- CONFIRM = 1 (R568): only while the trial image runs. -/
def imageConfirm (kind : Nat) (b : Block) : CmdOut :=
  let bank := activeBank b kind
  let runs := (kind == 1 && b.host.coachUp && b.sup.coachBank == (bank == 1))
    || (kind == 2 && b.prot.restartAt.isNone && b.sup.patrolBank == (bank == 1))
  if ! [1, 2, 4, 6, 7].contains kind then badArg 0
  else if !trialOf b kind ∨ !runs then .fail .notReady noDetail
  else .ok (activatedEvent kind bank 0 false true (setActive kind bank false b)) []

def execImageConfirm (h : Hdr) (kind : BitVec 8) (rsv : BitVec 14) (s : State) : Host.Outcome State Fault Refusal :=
  s.act (runCmd h 0x0804 [] (unlessRsv (rsv != 0) 0 (imageConfirm kind.toNat)))

/-- COMMIT_SVN = 1 (R571); `readBack`: the count read back. -/
def svnCommit (svn readBack : Nat) (b : Block) : CmdOut :=
  let old := b.trust.svnOtp
  if svn ≤ old ∨ 64 < svn then badArg 0
  else if !atRest b ∨ flashHeld b ∨ !([1, 2, 4].all fun k => [0, 1].all fun d =>
      (stored b k 0 d).valid && decide (svn ≤ iSvn (stored b k 0 d).words)) then .fail .notReady noDetail
  else
    let n := Nat.max old (Nat.min svn readBack)
    let b := raise .svnAdvanced [w32 old, w32 n] { b with trust.svnOtp := n }
    if n < svn then .part b .flashFault [] else .ok b []

def execSvnCommit (h : Hdr) (svn : BitVec 7) (rsv : BitVec 14) (readBack : Fin 65) (s : State) : Host.Outcome State Fault Refusal :=
  s.act (runCmd h 0x0804 [.flash] (unlessRsv (rsv != 0) 0 (svnCommit svn.toNat readBack.val)))

/-! ### IMAGE_STATUS (R566, Table 17-8) -/

/-- One entry. -/
def imageEntry (b : Block) (kind slot dev : Nat) : List W32 :=
  let i := stored b kind slot dev
  let both := kind == 3 || kind == 5
  let ab := !both
  let copies := (if both && (stored b kind slot 0).valid then 1 else 0) + (if both && (stored b kind slot 1).valid then 2 else 0)
  let l := if i.valid then i.words else []
  [pack [fld kind 31 24, fld (if kind = 5 then slot else dev) 23 16, flg i.valid 15, flg (ab && activeBank b kind == dev) 14,
         flg (ab && trialOf b kind && activeBank b kind == dev) 13, fld copies 12 11, fld i.reason 10 7, fld (iSvn l) 6 0],
   iVersion l, 0, 0] ++ (List.range 4).map (word (iKeyId l)) ++ (if i.valid then measurement l else List.replicate 16 0)

/-- The copy of a Carve slot that is valid, the first if neither is. -/
def slotDev (b : Block) (slot : Nat) : Nat := if !(stored b 5 slot 0).valid && (stored b 5 slot 1).valid then 1 else 0

def imageStatus (kind : Nat) (b : Block) : CmdOut :=
  if kind = 0 ∨ 7 < kind then badArg 0
  else .ok b (w32 b.trust.svnOtp :: (if kind = 5 then (List.range 32).flatMap fun k => imageEntry b 5 k (slotDev b k)
    else imageEntry b kind 0 0 ++ imageEntry b kind 0 1))

def execImageStatus (h : Hdr) (kind : BitVec 8) (s : State) : Host.Outcome State Fault Refusal :=
  s.act (runCmd h 0x0805 [] (imageStatus kind.toNat))

/-! ### Recovery (R576) -/

/-- The boot ROM's IMAGE_WRITE while FAIL = 4: kind 1 alone, both banks, the Coach starts from it. -/
def recoveryWrite (h : Hdr) (l : List W32) (b : Block) : Block :=
  if b.sup.fail ≠ 4 then b
  else match verifyImage b 1 l with
    | 0 =>
      let b := [0, 1].foldl (fun (b : Block) d => storeImage 1 0 d { valid := true, words := l } b) b
      let b := raise .recovery (measurement l) { b with sup.fail := 0, sup.coachOk := true, sup.coachBank := activeBank b 1 == 1 }
      complete h .ok noDetail [] (setCoachUp true (raise .liftFail [4] b))
    | r => complete h .imageBad noDetail [] (raise .imageRejected [1, 0, w32 r] b)

def execRecoveryImageWrite (h : Hdr) (image : List W32) (s : State) : Host.Outcome State Fault Refusal :=
  s.act (recoveryWrite h image)

/-! ### Attestation (R572, R573) -/

/-- SHAKE256 over the records of a list of structures. -/
def measOf (b : Block) (structs : List Nat) : List W32 := digest64 (recordsOf b structs)

def calibStructs : List Nat := [0x0B, 0x0C, 0x0D, 0x0E]
def configStructs : List Nat :=
  (List.range 10).map (1 + ·) ++ [0x0F, 0x10, 0x11, 0x12, 0x13, 0x25, 0x26]
def localStructs : List Nat :=
  ((List.range 0x27).filter fun st => !calibStructs.contains st && !configStructs.contains st && cfgWords st != 0)

/-- Measurement of a program bank: zero for none. -/
def bankMeas (k : Bank) : List W32 := if k.valid then (List.range 16).map (word k.meas) else List.replicate 16 0
def mCarve (b : Block) (standby : Bool) : List W32 :=
  digest64 ((List.range 272).flatMap fun e => bankMeas (if standby then (engine b e).standby else (engine b e).bank))

/-- The three measurements that PAIR_JOIN compares (R417). -/
def joinMeas (b : Block) : List W32 := mCarve b false ++ measOf b calibStructs ++ measOf b configStructs

/-- M_CELLS. -/
def mCells (b : Block) : List W32 :=
  digest64 ((List.range 2048).flatMap fun n => match (hub b n).info with
    | some i => w64 i.serial ++ [i.firmware, pack [fld (dKind i.desc) 31 16, fld (dRev i.desc) 15 8]]
    | none => [0, 0, 0, 0])

def imageMeas (i : Image) : List W32 := if i.valid then measurement i.words else List.replicate 16 0

/-- Words 0 to 198 of Table 17-10. -/
def attestBody (nonce : List W32) (b : Block) : List W32 :=
  let dev : Bool → Nat := fun v => if v then 1 else 0
  [pack [fld 1 31 24, fld b.pair.role 23 21, fld b.md.mode.code 20 18, flg b.trust.auth.isSome 17, flg (lockCal b) 16,
         fld b.trust.svnOtp 15 9, flg b.sup.coachBank 8, flg b.sup.patrolBank 7]]
  ++ w64 Config.deviceSerial.toNat ++ w64 (now b) ++ nonce
  ++ imageMeas (stored b 2 0 (dev b.sup.patrolBank)) ++ cfgDigest b ++ imageMeas (stored b 1 0 (dev b.sup.coachBank))
  ++ imageMeas (activeImage b 4) ++ mCarve b false ++ mCarve b true ++ measOf b calibStructs ++ measOf b configStructs
  ++ measOf b localStructs ++ mCells b
  ++ (match b.safe.log with
    | e :: _ => e.take 2 ++ digest64 (e.take 71)
    | [] => List.replicate 18 0)

/-- ATTEST_REPORT: 228 words, signed by Patrol. -/
def attest (nonce : List W32) (b : Block) : CmdOut :=
  if nonce.length ≠ 16 then .fail .badArg noDetail
  else .ok b (attestBody nonce b ++ signWords (attestBody nonce b))

def execAttestReport (h : Hdr) (nonce : List W32) (s : State) : Host.Outcome State Fault Refusal :=
  s.act (runCmd h 0x0901 [] (attest nonce))

/-- CERT_READ (R572): length in bytes, then the certificate. -/
def certRead (index : W32) (b : Block) : CmdOut :=
  if 2 < index.toNat then badArg 0 else .ok b (Config.certificate index.toNat)

def execCertRead (h : Hdr) (index : W32) (s : State) : Host.Outcome State Fault Refusal :=
  s.act (runCmd h 0x0902 [] (certRead index))

/-! ### Debug authorization (R578, R579) -/

/-- OP = 0: a challenge of 32 bytes, valid for 300 s; it replaces the old one. -/
def debugChallenge (b : Block) : CmdOut :=
  let (c, b) := freshN b 8
  .ok { b with trust.challenge := some (c, now b + 30000000) } c

def execDebugChallenge (h : Hdr) (s : State) : Host.Outcome State Fault Refusal :=
  s.act (runCmd h 0x0903 [] debugChallenge)

/-- OP = 1: a kind 8 image with the outstanding challenge. -/
def debugAuthorize (l : List W32) (b : Block) : CmdOut :=
  match verifyImage b 8 l with
  | 0 =>
    let t := (sectionOf l 7).getD []
    let scope := bits (word t 8) 31 29
    let dur := bits (word t 8) 28 12
    if scope.testBit 2 ∧ b.md.mode ≠ .service then .fail .wrongMode noDetail
    else
      let b := { b with trust := { b.trust with
        challenge := none, auth := some { scope := scope, endAt := now b + dur * 100000 } } }
      .ok (raise .debugOn ([w32 scope, w32 dur] ++ iKeyId l) (setDegr 7 b)) []
  | r => .part (rejectImage 8 0 r b) .imageBad []

def execDebugAuthorize (h : Hdr) (image : List W32) (s : State) : Host.Outcome State Fault Refusal :=
  s.act (runCmd h 0x0903 [] (debugAuthorize image))

def execDebugRevoke (h : Hdr) (s : State) : Host.Outcome State Fault Refusal :=
  s.act (runCmd h 0x0904 [] fun b => .ok (debugOff 2 b) [])

def execDebugExpiry (s : State) : Host.Outcome State Fault Refusal :=
  s.act fun b => match b.trust.auth with
    | some d => if d.endAt ≤ now b then debugOff 1 b else b
    | none => b

end Sys2Proof.Machine
end

