-- ==== Sys2Proof/Machine/Banks.lean ====
section
/-! DEFINITION. Loading Carve programs into standby banks and swapping banks at a boundary (R227, R233 to R237, R570). -/

namespace Sys2Proof.Machine

/-- Engines as a bitmap of nine words, and back. -/
def engineWords (es : List Nat) : List W32 := bitmapWords 272 (bitmapOf es)
def engineList (l : List W32) : List Nat := (List.range 272).filter fun e => bit (word l (e / 32)) (e % 32)

/-- Engine `e` has a swap pending. -/
def swapPending (b : Block) (e : Nat) : Bool :=
  b.host.actions.any fun a => match a.kind with
    | .swap es _ => es.contains e
    | _ => false

/-- The CARVE section of a stored slot, verified at use (R562): the first device that reads and whose copy passes; else the reason. -/
def slotSection (b : Block) (slot : Nat) : Except Nat Image :=
  let tried := ([0, 1].filter fun d => !b.trust.flashFailed.getLsbD d).map fun d => (verifyImage b 5 (stored b 5 slot d).words, stored b 5 slot d)
  match tried.find? fun x => x.1 == 0 && x.2.valid with
  | some x => .ok x.2
  | none => .error (if !(stored b 5 slot 0).valid && !(stored b 5 slot 1).valid then 1 else (tried.map Prod.fst).foldl Nat.max 1)

/-- Write an admitted section into the standby bank of an engine (R234). -/
def loadStandby (l meas : List W32) (e : Nat) (b : Block) : Block :=
  let k := bankOf l meas
  onEngine e (fun (g : Engine) => if g.activeB then { g with bankA := k, reloaded := true } else { g with bankB := k, reloaded := true }) b

/-- Every named engine takes the image of a slot. -/
def loadSlot (img : Image) (es : List Nat) (b : Block) : Block :=
  let l := (sectionOf img.words 2).getD []
  es.foldl (fun (b : Block) e => loadStandby l (measurement img.words) e b) b

/-- CARVE_LOAD (R233, R234, R562). -/
def carveLoad (slot : Nat) (es : List Nat) (b : Block) : CmdOut :=
  if isPartner b then .fail .pairRole noDetail
  else if es.isEmpty then badArg 1
  else if es.any (swapPending b) then .fail .busy noDetail
  else match slotSection b slot with
    | .error r => .part (raise .imageRejected [5, w32 slot, w32 r] b) .imageBad []
    | .ok img =>
      let l := (sectionOf img.words 2).getD []
      match es.findSome? fun e => carveRefused (some (decide (256 ≤ e))) l with
      | some st => .fail st noDetail
      | none =>
        if costRefused b (loadSlot img es b) then .fail .powerCap noDetail
        else .wait b (es.map .engine) (w32 slot :: engineWords es)

def execCarveLoad (h : Hdr) (slot : Fin 32) (engines : List (Fin 272)) (s : State) : Host.Outcome State Fault Refusal :=
  s.act (runCmd h 0x0801 (engines.map fun e => .engine e.val) (carveLoad slot.val (engines.map Fin.val)))

/-- The standby banks hold the image. -/
def carveLoaded (slot : Nat) (b : Block) : Block :=
  match b.host.waiting.find? fun w => w.op == 0x0801 && word w.data 0 == w32 slot with
  | none => b
  | some w =>
    let b := { b with host := { b.host with waiting := b.host.waiting.erase w } }
    let es := engineList (w.data.drop 1)
    match slotSection b slot with
    | .error r => complete w.h .imageBad noDetail [] (raise .imageRejected [5, w32 slot, w32 r] b)
    | .ok img =>
      let b := raise .carveLoaded (w32 slot :: engineWords es) (loadSlot img es b)
      complete w.h .ok noDetail [] (mirror (now b) 0x0801 (w32 slot :: engineWords es ++ measurement img.words) b)

def execCarveLoadDone (slot : Fin 32) (s : State) : Host.Outcome State Fault Refusal := s.act (carveLoaded slot.val)

/-- The image of a standby bank reads a mirror word that is not subscribed (R227). -/
def unsubscribed (b : Block) (e : Nat) : Bool := (mirrorReads (engine b e).standby).any fun m => !subEn b e m

/-- The status with which a swap of a set is refused; none: it may take place. -/
def swapRefused (b : Block) (es : List Nat) : Option Status :=
  if es.any fun e => !(engine b e).standby.valid then some .imageBad
  else if es.any (unsubscribed b) then some .notReady
  else none

/-- CARVE_SWAP (R235): it replaces a pending swap of an engine it names (R537). -/
def carveSwap (h : Hdr) (B : Nat) (es : List Nat) (keep : Bool) (b : Block) : CmdOut :=
  if isPartner b then .fail .pairRole noDetail
  else if es.isEmpty then badArg 2
  else match checkBoundary b B with
    | some st => .fail st 0
    | none => match swapRefused b es with
      | some st => .fail st noDetail
      | none =>
        let b := cancelActions (fun a => match a.kind with | .swap fs _ => fs.any es.contains | _ => false) .cancelled b
        .ok (mirror B 0x0802 (engineWords es ++ [wBool keep])
          (addAction { boundary := B, kind := .swap es keep, op := 0x0802, h := h } b)) []

def execCarveSwap (h : Hdr) (boundary : Nat) (engines : List (Fin 272)) (keepState : Bool) (s : State) :
    Host.Outcome State Fault Refusal :=
  s.act (runCmd h 0x0802 (engines.map fun e => .engine e.val) (carveSwap h boundary (engines.map Fin.val) keepState))

/-- Every engine of a set swaps. -/
def swapEngines (es : List Nat) (keep : Bool) (b : Block) : Block :=
  es.foldl (fun (b : Block) e => onEngine e (Engine.swap keep) b) b

/-- Step 3 of R51: the ENGINE_CFG entries of this boundary, then the swaps, each as a whole. -/
def bankSwap (b : Block) : Block :=
  let b := configsDue (· == 0x09) b
  let (due, b) := dueActions (fun a => match a.kind with | .swap _ _ => true | _ => false) b
  due.foldl (fun (b : Block) a => match a.kind with
    | .swap es keep => match swapRefused b es with
      | some st => actionEvent a st b
      | none => actionEvent a .ok (raise .carveSwapped (w64 a.boundary ++ engineWords es) (swapEngines es keep b))
    | _ => b) b

end Sys2Proof.Machine
end

