-- ==== Sys2Proof/Machine/Sense.lean ====
section
/-! DEFINITION. Samples of the Sense die (R479 to R481, R495, R518), its loss (R45), phasor streams (R482 to R487),
traveling waves (R488 to R494) and the recorder (R496 to R498). -/

namespace Sys2Proof.Machine

/-! ### Samples -/

/-- T less 25 °C, in °C. -/
def tempDelta (b : Block) : W32 := ofRat (b.sup.temp - 1600) 64

/-- A code of channel c (0 to 27) in primary units (R480, R518). -/
def primary (b : Block) (c : Nat) (code : Int) : W32 :=
  let d := tempDelta b
  let k := fadd fOne (fadd (fmul (cfgW b 0x1D c 0) d) (fmul (cfgW b 0x1D c 1) (fmul d d)))
  fadd (fmul (fmul (cfgW b 0x1C c 1) k) (ofIntF code)) (cfgW b 0x1C c 2)

def meanOf (l : List W32) : W32 := fdiv (fsum l) (ofNatF l.length)

/-- The four exchange words of a precision channel (Table 6-8). -/
def channelWords (l : List W32) : List W32 :=
  [meanOf l, l.getLastD 0, l.foldl fmin (l.headD 0), l.foldl fmax (l.headD 0)]

/-- SENSE_SAMPLES: the ten samples of each precision channel and the 200 of each high-speed channel of the stride that has
ended; the exchange words are a partner's from MEAS (R402). Shedding step 4 stops the high-speed window. -/
def senseSamples (prec : List (List (BitVec 18))) (high : List (List (BitVec 16))) (b : Block) : Block :=
  if b.sup.senseReset ∨ b.sense.gotAt = some (now b) then b
  else
    let S := m64 (now b + 2 ^ 64 - 1)
    let v := (List.range 16).map fun c => (prec.getD c []).map fun x => primary b c x.toInt
    let b := { b with sense := { b.sense with
      lost := false, gotAt := some (now b), samples := Tbl.setRange [] b.sense.samples 0 v
      hist := ((S, v) :: b.sense.hist).take 40000
      precRing := Tbl.set (0, []) b.sense.precRing (S % 524288)
        (S, (List.range 2).flatMap fun j => v.map fun l => meanOf ((l.drop (5 * j)).take 5))
      hsRing := if writerShed b then b.sense.hsRing else Tbl.set (0, []) b.sense.hsRing (S % 894784)
        (S, (List.range 200).flatMap fun k => (List.range 12).map fun h => ((high.getD h []).getD k 0).toNat) } }
    let b := if writerShed b then b else ddrUse 32 4800 b
    if isPartner b then b
    else (List.range 16).foldl (fun (b : Block) c => xwrites (0x0B00 + 4 * c) (channelWords (v.getD c [])) b) b

def execSenseSamples (prec : List (List (BitVec 18))) (high : List (List (BitVec 16))) (s : State) :
    Host.Outcome State Fault Refusal := s.act (senseSamples prec high)

/-- The Sense die is lost (R45, Table 8-4): streams, detection and recording stop, open records are marked (Table 14-11). -/
def senseLost (b : Block) : Block :=
  if b.sense.lost then b
  else
    let b := { b with sense.lost := true
                      recd.openRecs := b.recd.openRecs.map fun (r : RecordR) => { r with trunc := true } }
    immediateStop (stopRow 2) (raise .senseLost [] b)

/-- No samples for two strides. -/
def execSenseLost (s : State) : Host.Outcome State Fault Refusal :=
  s.act fun b =>
    let silent : Bool := match b.sense.gotAt with
      | some t => decide (t + 2 ≤ now b)
      | none => true
    if silent then senseLost b else b

/-! ### Phasor streams -/

/-- Bits 8:6 of STAT and the code of FRACSEC for a time error in ns: the least class that bounds it (R486). -/
def statClass (e : W32) : Nat :=
  ((List.range 6).find? fun k => fle e (ofNatF (100 * 10 ^ k))).map (· + 1) |>.getD 7
def qualityCode (e : W32) : Nat :=
  ((List.range 11).find? fun k => fle e (ofNatF (10 ^ k))).map (· + 1) |>.getD 15

/-- The time error in ns while time is acquired: 100 ns LOCKED on PTP and beside a lead, HOLD_EST + 100 ns in HOLDOVER, the
bound of R470 for the other sources. -/
def timeError (b : Block) : W32 :=
  if b.time.state = 3 then fadd (holdEst b) (ofNatF 100)
  else match b.time.src with
    | 2 => ofNatF 50
    | 3 => ofNatF 1000
    | _ => ofNatF 100

/-- TQ of R486. -/
def timeQuality (b : Block) : Nat := if acquired b then qualityCode (timeError b) else 15

/-- Bits 5:4 of STAT: the time since time was lost. -/
def unlockedTime (b : Block) : Nat :=
  if acquired b then 0
  else
    let d := (now b - b.time.lostAt.getD 0) / 100000
    if d < 10 then 0 else if d < 100 then 1 else if d < 1000 then 2 else 3

/-- The STAT word of a frame of stream k whose reporting instant lies in stride R (R486). -/
def statWord (k R : Nat) (b : Block) : Nat :=
  let since := 100000 / Nat.max 1 (streamRate b k)
  let trig : Option Nat := match b.recd.trigAt with
    | some (t, kind) => if t ≤ R ∧ R < t + since then some kind else none
    | none => none
  let cfgNew : Bool := match (Tbl.get {} b.pmu k).cfgAt with
    | some t => decide (now b < t + 6000000)
    | none => false
  (pack [fld (if b.md.mode = .service then 2 else 0) 15 14, flg (!acquired b) 13, flg trig.isSome 11, flg cfgNew 10,
    fld (if acquired b then statClass (timeError b) else 7) 8 6, fld (unlockedTime b) 5 4, fld (trig.getD 0) 3 0]).toNat

/-- The digital word (Table 14-5). -/
def pmuDigital (b : Block) : Nat :=
  (pack [fld b.md.mode.code 2 0, fld b.pair.role 5 3, flg (b.prot.copyA.tripped || b.prot.copyB.tripped) 6,
    flg (b.safe.degr != 0) 7]).toNat

/-- TRANSPORT. -/
def pmuTransport (b : Block) (k : Nat) : Nat := cfgN b 0x1E k 0 17 16

/-- A stream sends data frames: enabled, time not UNSET, Sense die there, not shed; turned on by command where a client
commands it, with the client there for TCP data (R485, R487, R521). -/
def pmuSends (b : Block) (k : Nat) : Bool :=
  let p : Pmu := Tbl.get {} b.pmu k
  pmuEn b k && b.time.state != 0 && !b.sense.lost && !streamsShed b
  && (match pmuTransport b k with
      | 0 => true
      | 1 => p.on && p.tcp
      | _ => p.on)

/-- The samples of a channel that the Sense die has brought, oldest first. -/
def channelHist (b : Block) (c : Nat) : List W32 := (b.sense.hist.reverse).flatMap fun x => x.2.getD c []

/-- The analog of a channel (Table 14-5): the mean of its samples that lie within half of 1/RATE of the reporting instant,
each at its instant less DELAY (R481). `T`: the instant times RATE, in ps of TAI; without a sample it is free (log 50). -/
def analogMean (b : Block) (c rate : Nat) (T : Int) : W32 :=
  let near := fun (S i : Nat) =>
    let d := 2 * ((((10 * S + i : Nat) : Int) * 1000000 - s32 (cfgW b 0x1C c 3)) * rate - T)
    decide (-1000000000000 ≤ d) && decide (d < 1000000000000)
  match (b.sense.hist.reverse).flatMap fun x => ((x.2.getD c []).zipIdx.filter fun y => near x.1 y.2).map Prod.fst with
  | [] => Config.freeWord (b.free + c)
  | l => meanOf l

/-- The channels of an enabled set (Table 14-4). -/
def setChannels (b : Block) (k s : Nat) : List Nat :=
  let w := cfgW b 0x1E k (5 + s / 2)
  let h := if s % 2 = 0 then 31 else 19
  [bits w h (h - 3), bits w (h - 4) (h - 7), bits w (h - 8) (h - 11)]

/-- What a stream sends as phasors, by the channels of each: those of PH_MAP, then the sets of SET_EN. -/
def phasorItems (b : Block) (k : Nat) : List (List Nat) :=
  (((List.range 16).filter fun c => cfgBit b 0x1E k 3 (16 + c)).map fun c => [c])
    ++ ((List.range 4).filter fun s => cfgBit b 0x1E k 4 (28 + s)).map (setChannels b k)
def analogItems (b : Block) (k : Nat) : List Nat := (List.range 16).filter fun c => cfgBit b 0x1E k 3 c

/-! ### Frames of IEEE C37.118.2 (R485) -/

/-- `n` octets, the most significant first. -/
def bigEnd (n v : Nat) : List Nat := (List.range n).map fun i => v / 256 ^ (n - 1 - i) % 256

/-- SYNC, FRAMESIZE, IDCODE, SOC and FRACSEC with the time quality, the body, and CHK. -/
def syncFrame (sync idcode soc quality fracsec : Nat) (body : List Nat) : List Nat :=
  let w := bigEnd 2 sync ++ bigEnd 2 (16 + body.length) ++ bigEnd 2 idcode ++ bigEnd 4 soc ++ [quality % 256] ++ bigEnd 3 fracsec ++ body
  w ++ bigEnd 2 (crcCcitt w)

/-- A value as binary32 or as a 16-bit integer of its scale. -/
def pmuNumber (float : Bool) (x : W32) : List Nat := if float then bigEnd 4 x.toNat else bigEnd 2 (ftoi 0 x).toNat

/-- A phasor in the form of PH_FLOAT and PH_POLAR; integers by PHUNIT in 10^-5 V or A, polar angles in 10^-4 rad. -/
def phasorOctets (b : Block) (k i : Nat) (v : W32 × W32) : List Nat :=
  let float := cfgBit b 0x1E k 0 21
  let scaled := fun x => fdiv (fmul x (ofNatF 100000)) (ofNatF (Config.phasorUnit k i % 2 ^ 24))
  if float then bigEnd 4 v.1.toNat ++ bigEnd 4 v.2.toNat
  else if cfgBit b 0x1E k 0 20 then pmuNumber false (scaled v.1) ++ pmuNumber false (fmul v.2 (ofNatF 10000))
  else pmuNumber false (scaled v.1) ++ pmuNumber false (scaled v.2)

/-- FREQ and DFREQ: Hz and Hz/s, or the deviation from FNOM in mHz and DFREQ in 0.01 Hz/s. -/
def freqOctets (b : Block) (k : Nat) (f d : W32) : List Nat :=
  if cfgBit b 0x1E k 0 18 then bigEnd 4 f.toNat ++ bigEnd 4 d.toNat
  else pmuNumber false (fmul (fsub f (ofNatF (if pmuFifty b k then 50 else 60))) (ofNatF 1000)) ++ pmuNumber false (fmul d (ofNatF 100))

/-- The octets of a data frame. -/
def dataOctets (b : Block) (k : Nat) (p : PmuFrame) : List Nat :=
  let an := fun (x : W32 × Nat) => if cfgBit b 0x1E k 0 19 then bigEnd 4 x.1.toNat
    else pmuNumber false (fdiv x.1 (ofIntF (s32 (Config.analogUnit k x.2 <<< 8) / 256)))
  syncFrame 0xAA01 p.idcode p.soc p.quality p.fracsec
    (bigEnd 2 p.stat ++ (p.phasors.zipIdx.flatMap fun x => phasorOctets b k x.2 x.1) ++ freqOctets b k p.freq p.dfreq
      ++ p.analogs.zipIdx.flatMap an ++ bigEnd 2 p.digital)

/-- FRACSEC's quality octet: pending leap second and its sign, time quality. -/
def fracQuality (b : Block) : Nat :=
  (pack [flg (b.time.leap == 2) 6, flg (b.time.leap != 0) 4, fld (timeQuality b) 3 0]).toNat

/-- The octets of CFG-1 (`cmd` 4) and CFG-2 (5): time base, one PMU, names, FORMAT, the items and their units, FNOM, CFGCNT,
rate. -/
def configOctets (b : Block) (k cmd : Nat) : List Nat :=
  let p : Pmu := Tbl.get {} b.pmu k
  let ph := phasorItems b k
  let an := analogItems b k
  let id := cfgN b 0x1E k 1 31 16
  let name := fun i => ((bytesOf ((p.names.drop (4 * i)).take 4)) ++ List.replicate 16 32).take 16
  let volt := fun (l : List Nat) => if cfgN b 0x1C (l.headD 0) 0 26 24 = 2 then 1 else 0
  syncFrame (if cmd = 4 then 0xAA21 else 0xAA31) id (utcSec b) (fracQuality b) (b.time.ns / 10000 * 12)
    (bigEnd 4 1200000 ++ bigEnd 2 1 ++ name 0 ++ bigEnd 2 id
      ++ bigEnd 2 (pack [flg (cfgBit b 0x1E k 0 18) 3, flg (cfgBit b 0x1E k 0 19) 2, flg (cfgBit b 0x1E k 0 21) 1, flg (cfgBit b 0x1E k 0 20) 0]).toNat
      ++ bigEnd 2 ph.length ++ bigEnd 2 an.length ++ bigEnd 2 1
      ++ (List.range (ph.length + an.length + 16)).flatMap (fun i => name (1 + i))
      ++ (ph.zipIdx.flatMap fun x => [volt x.1] ++ bigEnd 3 (Config.phasorUnit k x.2))
      ++ ((List.range an.length).flatMap fun i => bigEnd 4 (Config.analogUnit k i).toNat)
      ++ bigEnd 4 0x0000FFFF ++ bigEnd 2 (if pmuFifty b k then 1 else 0) ++ bigEnd 2 p.cfgcnt ++ bigEnd 2 (streamRate b k))

/-- The data frame of reporting instant `index` of UTC second `soc`, once that instant has come: phasors, FREQ and DFREQ are the
estimator's of the samples so far (R482), free (log 50). -/
def reportFrame (k soc index : Nat) (b : Block) : PmuFrame :=
  let rate := streamRate b k
  let m := pmuM b k
  let T := ((soc : Int) + taiUtc b) * 1000000000000 * rate + (index : Int) * 1000000000000
  let R := (((soc : Int) + taiUtc b) * 100000).toNat + index * 100000 / rate
  let set := (setChannels b k (cfgN b 0x1E k 0 10 9)).map (channelHist b)
  { idcode := cfgN b 0x1E k 1 31 16, soc := soc, fracsec := index * 1200000 / rate, quality := fracQuality b, stat := statWord k R b
    phasors := (phasorItems b k).zipIdx.map fun x => Config.phasor (b.free + x.2) m (cfgBit b 0x1E k 0 20) (x.1.map (channelHist b))
    freq := Config.phasorFreq b.free m set, dfreq := Config.phasorRocof b.free m set
    analogs := (analogItems b k).map fun c => analogMean b c rate T, digital := pmuDigital b }

/-- PHASOR_REPORT: a frame leaves once for each reporting instant that has come. -/
def phasorReport (k soc index : Nat) (b : Block) : Block :=
  let rate := streamRate b k
  let R := (((soc : Int) + taiUtc b) * 100000).toNat + index * 100000 / rate
  let sent := match (Tbl.get {} b.pmu k : Pmu).frame with
    | some f => f.soc == soc && f.fracsec == index * 1200000 / rate
    | none => false
  if !pmuSends b k ∨ rate ≤ index ∨ now b < R ∨ sent = true then b
  else
    let f := reportFrame k soc index b
    { b with free := b.free + 32, pmu := Tbl.upd {} b.pmu k fun (p : Pmu) => { p with
      frames := p.frames + 1, frame := some f, wire := dataOctets b k f } }

def execPhasorReport (stream : Fin 2) (soc : W32) (index : Nat) (s : State) : Host.Outcome State Fault Refusal :=
  s.act (phasorReport stream.val soc.toNat index)

/-- A command frame for a stream (Table 14-5), answered by the Coach; a client of TCP is then connected. UDP alone sends of
itself: turning on and off acts where clients command. -/
def pmuCommand (k idcode cmd : Nat) (tcp : Bool) (b : Block) : Block :=
  let t := pmuTransport b k
  if !pmuEn b k ∨ idcode ≠ cfgN b 0x1E k 1 31 16 ∨ !b.host.coachUp ∨ (tcp = true ∧ t = 0) then b
  else
    let on := fun (f : Pmu → Pmu) (b : Block) => { b with pmu := Tbl.upd {} b.pmu k f }
    let b := if tcp then on (fun (p : Pmu) => { p with tcp := true }) b else b
    match cmd with
    | 1 => if t = 0 then b else on (fun (p : Pmu) => { p with on := false }) b
    | 2 => if t = 0 then b else on (fun (p : Pmu) => { p with on := true }) b
    | 3 | 4 | 5 | 6 =>
      if b.time.state = 0 then b
      else on (fun (p : Pmu) => { p with
        answered := Tbl.upd 0 p.answered cmd (· + 1)
        reply := if cmd = 4 ∨ cmd = 5 then configOctets b k cmd else p.reply }) b
    | _ => b

def execPmuCommand (stream : Fin 2) (idcode cmd : BitVec 16) (tcp : Bool) (s : State) : Host.Outcome State Fault Refusal :=
  s.act (pmuCommand stream.val idcode.toNat cmd.toNat tcp)

/-- PMU_NAMES: station and channel names of 16 characters, 4 words each. -/
def pmuNames (k : Nat) (names : List W32) (b : Block) : CmdOut :=
  if names.length % 4 ≠ 0 then .fail .badArg noDetail
  else .ok { b with pmu := Tbl.upd {} b.pmu k fun (p : Pmu) => { p with names := names } } []

def execPmuNames (h : Hdr) (stream : Fin 2) (names : List W32) (s : State) : Host.Outcome State Fault Refusal :=
  s.act (runCmd h 0x0107 [] (pmuNames stream.val names))

/-! ### Arrivals (R489 to R491) -/

/-- High-speed channels of phases A, B and C of a line's entry, and the two of a mode. -/
def twChannels (cfg : List W32) : List Nat :=
  [bits (word cfg 0) 27 24, bits (word cfg 0) 23 20, bits (word cfg 0) 19 16]
def modePair (cfg : List W32) (m : Nat) : Nat × Nat :=
  let c := twChannels cfg
  (c.getD m 0, c.getD ((m + 1) % 3) 0)

/-- The magnitude of d of a mode at sample n (R489). -/
def absD (l : List (W32 × W32 × W32)) (m n : Nat) : W32 :=
  let at' := fun i => match l.getD i (0, 0, 0), m with
    | (a, b, _), 0 => fsub a b
    | (_, b, c), 1 => fsub b c
    | (a, _, c), _ => fsub c a
  fabs (fsub (at' (n + 1)) (at' (n - 1)))

/-- Four consecutive samples from i on with every |d| below half of TW_TH. -/
def quietRun (l : List (W32 × W32 × W32)) (th : W32) (i : Nat) : Bool :=
  (List.range 4).all fun j => (List.range 3).all fun m => flt (absD l m (i + j)) (fmul th fHalf)

/-- The detector has re-armed since the last arrival, whose peak lies `back` samples before this one: told from the samples
where they reach back to it. -/
def rearmed (l : List (W32 × W32 × W32)) (th : W32) (lead : Nat) (back : Option Nat) : Bool :=
  match back with
  | none => true
  | some d => decide (63 ≤ d) || (List.range 64).any fun i => decide (64 < i + d) && decide (i + lead + 4 ≤ 64) && quietRun l th i

/-- An arrival as R489 detects it in 128 samples with the peak at the 65th, `lead` samples after the first of the two. -/
def detected (l : List (W32 × W32 × W32)) (th : W32) (m lead : Nat) : Bool :=
  let first := 64 - lead
  fle th (absD l m first) && fle th (absD l m (first + 1))
  && (List.range 8).all fun i => fle (absD l m (first + i)) (absD l m 64)

/-- The nearest whole number to a fraction. -/
def nearest (num : Int) (den : Nat) : Int := (2 * num + den) / (2 * (den : Int))

/-- The arrival time in 10 ns (R490): peak sample, parabolic offset, mean DELAY; a flat top gives no offset, so that is free
within its sample. -/
def arrivalTime (pos : Nat) (l : List (W32 × W32 × W32)) (m : Nat) (cfg : List W32) (b : Block) : Nat × Block :=
  let y := fun i => absD l m i
  let den := fmul (ofNatF 2) (fadd (fsub (y 63) (fmul (ofNatF 2) (y 64))) (y 65))
  let q := fdiv (fsub (y 63) (y 65)) den
  let (q, b) := if fIsNaN q || fIsInf q then (ofRat (((fresh b).1.toNat % 101 : Nat) - 50) 100, (fresh b).2) else (q, b)
  let (n, d) := fVal q
  let (h1, h2) := modePair cfg m
  let dly := s32 (cfgW b 0x1C (16 + h1) 3) + s32 (cfgW b 0x1C (16 + h2) 3)
  (((5 * pos : Nat) + nearest (n * 5 * 20000 - dly * d) (d * 20000)).toNat, b)

/-- Window of an event in 10 ns: 2 LENGTH / VELOCITY + 5 µs. -/
def twWindow (cfg : List W32) : Nat :=
  let (n, d) := fVal (fdiv (fmul (ofNatF 2) (word cfg 1)) (word cfg 2))
  (n * 100).toNat / d + 500

/-- An enabled line whose high-speed channels are powered. -/
def twWatched (b : Block) (k : Nat) : Bool :=
  cfgWritten b 0x1F k && cfgBit b 0x1F k 0 29 && !b.sense.lost && !twShed b

/-- TW_ARRIVAL: peak sample `index` of a stride, mode, codes of the three channels from 64 samples before the peak. -/
def twArrival (k S index m lead : Nat) (codes : List (BitVec 16 × BitVec 16 × BitVec 16)) (b : Block) : Block :=
  let cfg := cfgEntry b 0x1F k
  let ch := twChannels cfg
  let v := fun i (x : BitVec 16) => primary b (16 + ch.getD i 0) x.toInt
  let l := codes.map fun x => (v 0 x.1, v 1 x.2.1, v 2 x.2.2)
  let pos := S * 200 + index
  let last : Option Nat := Tbl.get none b.tw.peaks k
  if !twWatched b k ∨ codes.length ≠ 128 ∨ detected l (word cfg 3) m lead = false
      ∨ rearmed l (word cfg 3) lead (last.map (pos - ·)) = false then b
  else
    let (t, b) := arrivalTime pos l m cfg b
    let a : Arrival := { time := t, mode := m, peak := absD l m 64, samples := l }
    let b := { b with tw.peaks := Tbl.set none b.tw.peaks k (some pos) }
    match Tbl.get none b.tw.lines k with
    | some e =>
      if e.closeAt < t then b
      else
        let e : TwEvent := if e.arrivals.length < 16 then { e with arrivals := e.arrivals ++ [a] } else { e with overflow := true }
        { b with tw.lines := Tbl.set none b.tw.lines k (some e) }
    | none =>
      if (Tbl.get none b.tw.holdoff k).isSome then b
      else
        let e : TwEvent := { id := b.tw.nextId, line := k, cfg := cfg, arrivals := [a], closeAt := t + twWindow cfg }
        let b := { b with tw := { b.tw with lines := Tbl.set none b.tw.lines k (some e), nextId := (b.tw.nextId + 1) % 65536 } }
        if bit (word cfg 0) 14 then recNote 0 e.id b else b

def execTwArrival (line : Fin 4) (stride : Nat) (index : Fin 200) (mode : Fin 3) (lead : Fin 8)
    (codes : List (BitVec 16 × BitVec 16 × BitVec 16)) (s : State) : Host.Outcome State Fault Refusal :=
  s.act (twArrival line.val stride index.val mode.val lead.val codes)

/-! ### Location (R492 to R494) -/

def TwEvent.first (e : TwEvent) : Nat := (e.arrivals.headD { time := 0, mode := 0, peak := 0, samples := [] }).time
def TwEvent.len (e : TwEvent) : W32 := word e.cfg 1
def TwEvent.vel (e : TwEvent) : W32 := word e.cfg 2
def TwEvent.de (e : TwEvent) : Bool := bit (word e.cfg 0) 15

/-- A time difference of 10 ns units in µs. -/
def microsF (d : Int) : W32 := ofRat d 100

/-- x_near, if a later arrival is a reflection (R492). -/
def TwEvent.near (e : TwEvent) : Option W32 :=
  match e.arrivals with
  | [] => none
  | a :: rest => (rest.find? fun x => fle (fmul (word e.cfg 4) a.peak) x.peak).map fun x =>
      fmul (fmul e.vel (microsF ((x.time : Int) - a.time))) fHalf

/-- x_DE from the time of the remote terminal's first arrival. -/
def TwEvent.xde (e : TwEvent) (remote : Nat) : W32 :=
  fmul (fadd e.len (fmul e.vel (microsF ((e.first : Int) - remote)))) fHalf

/-- DE_REASON (Table 14-8). -/
def TwEvent.reason (e : TwEvent) : Nat :=
  if !e.de then 1
  else match e.tag with
    | some (_, ok) => if ok && e.timeOk then 0 else 4
    | none => if e.outside then 3 else 2

/-- The payload of EV_TW (Table 14-8). Without a reflection the spec states no single-ended result: it is free. -/
def twPayload (e : TwEvent) (b : Block) : List W32 × Block :=
  let r := e.reason
  let de := e.xde ((e.tag.map Prod.fst).getD 0)
  let (near, far, b) : W32 × W32 × Block := match e.near with
    | some x => (x, fsub e.len x, b)
    | none => let b' := (fresh b).2
              ((fresh b).1, (fresh b').1, (fresh b').2)
  let se := e.near.isSome && fle near e.len
  let farther := r == 0 && flt (fabs (fsub far de)) (fabs (fsub near de))
  let t := e.first
  ([pack [fld e.id 31 16, fld e.line 15 14, flg se 13, flg (r != 0) 12, flg (r == 0) 11, fld r 10 8,
      fld e.arrivals.length 7 3, flg e.overflow 2, flg e.step 1]]
    ++ w64 (t / 1000) ++ [pack [fld (t % 1000) 31 22], if farther then far else near, if farther then near else far,
      if r = 0 then de else 0x7FC00000, (e.recId.map w32).getD 0xFFFFFFFF], b)

/-- Replace an event of the list. -/
def putEvent (e : TwEvent) (b : Block) : Block :=
  { b with tw.events := b.tw.events.map fun (x : TwEvent) => if x.id = e.id then e else x }

/-- EV_TW of a closed event. -/
def twFinish (e : TwEvent) (b : Block) : Block :=
  let (p, b) := twPayload e b
  raise .tw p (putEvent { e with done := true, payload := p } b)

/-- The TW tag frame (Table 14-7). -/
def tagFrame (e : TwEvent) (b : Block) : List W32 :=
  let w := [pack [fld 1 31 24, fld (bits (word e.cfg 5) 15 0) 23 8], pack [flg (acquired b) 31, fld (timeQuality b) 30 27]]
    ++ w64 (e.first / 1000) ++ [pack [fld (e.first % 1000) 31 22], b.tw.tagSeq + 1, 0]
  w ++ [crc32 (bytesOf w)]

/-- TW_WINDOW_CLOSE: HOLDOFF begins; a tag is sent and waited for where DE_EN = 1. -/
def twClose (k : Nat) (b : Block) : Block :=
  match Tbl.get none b.tw.lines k with
  | none => b
  | some e =>
    if now b * 1000 + 999 < e.closeAt then b
    else
      let e : TwEvent := { e with closed := true, timeOk := acquired b }
      let b := { b with tw := { b.tw with
        lines := Tbl.set none b.tw.lines k none
        holdoff := Tbl.set none b.tw.holdoff k (some (now b + bits (word e.cfg 5) 31 16))
        events := (e :: b.tw.events.filter fun (x : TwEvent) => x.id ≠ e.id).take 256 } }
      let b := if e.de then { b with tw := { b.tw with sentTag := tagFrame e b, tagSeq := b.tw.tagSeq + 1 } } else b
      if e.de && e.tag.isNone then b else twFinish e b

def execTwWindowClose (line : Fin 4) (s : State) : Host.Outcome State Fault Refusal := s.act (twClose line.val)

def execTwHoldoffEnd (line : Fin 4) (s : State) : Host.Outcome State Fault Refusal :=
  s.act fun b => match Tbl.get none b.tw.holdoff line.val with
    | some t => if t ≤ now b then { b with tw.holdoff := Tbl.set none b.tw.holdoff line.val none } else b
    | none => b

/-- |t_local − t_remote| lies within LENGTH / VELOCITY + 1 µs. -/
def TwEvent.within (e : TwEvent) (t : Nat) : Bool :=
  fle (fabs (microsF ((e.first : Int) - t))) (fadd (fdiv e.len e.vel) fOne)

/-- The words of a tag frame are whole. -/
def tagWhole (w : List W32) : Bool :=
  w.length == 8 && bits (word w 0) 31 24 == 1 && decide (bits (word w 4) 31 22 ≤ 999) && crc32 (bytesOf (w.take 7)) == word w 7

/-- An event of a line with DE_EN that a tag can still reach in stride `t`: open, or closed and waiting, up to 1 s. -/
def TwEvent.waits (e : TwEvent) (k id t : Nat) : Bool :=
  e.line == k && e.de && !e.done && e.tag.isNone && bits (word e.cfg 5) 15 0 == id
    && !(e.closed && decide (e.closeAt / 1000 + 100000 < t))

/-- A tag for a line (R493). -/
def twTag (k : Nat) (w : List W32) (b : Block) : Block :=
  if !tagWhole w then b
  else
    let id := bits (word w 0) 23 8
    let t := join64 (word w 2) (word w 3) * 1000 + bits (word w 4) 31 22
    let tag := (t, bit (word w 1) 31)
    let opened : Option TwEvent := (Tbl.get none b.tw.lines k).filter fun (e : TwEvent) => e.waits k id (now b)
    let fits := (opened.toList ++ b.tw.events.filter fun (e : TwEvent) => e.waits k id (now b)).find? fun e => e.within t
    match fits with
    | some e =>
      let e := { e with tag := some tag }
      if e.closed then twFinish e b else { b with tw.lines := Tbl.set none b.tw.lines k (some e) }
    | none =>
      let out := fun (e : TwEvent) => if e.waits k id (now b) then { e with outside := true } else e
      { b with tw := { b.tw with lines := Tbl.set none b.tw.lines k ((Tbl.get none b.tw.lines k).map out), events := b.tw.events.map out } }

def execTwTag (line : Fin 4) (words : List W32) (s : State) : Host.Outcome State Fault Refusal := s.act (twTag line.val words)

/-- TW_REMOTE: the same 8 words from the host, for the line that carries the LINE_ID. -/
def twRemote (w : List W32) (b : Block) : CmdOut :=
  if w.length ≠ 8 then .fail .badArg noDetail
  else if bits (word w 0) 31 24 ≠ 1 ∨ bits (word w 0) 7 0 ≠ 0 then badArg 0
  else if bits (word w 1) 26 0 ≠ 0 then badArg 1
  else if 999 < bits (word w 4) 31 22 ∨ bits (word w 4) 21 0 ≠ 0 then badArg 4
  else if word w 6 ≠ 0 then badArg 6
  else if !tagWhole w then badArg 7
  else match (List.range 4).find? fun k => cfgWritten b 0x1F k && cfgBit b 0x1F k 0 29 && cfgN b 0x1F k 5 15 0 == bits (word w 0) 23 8 with
    | some k => .ok (twTag k w b) []
    | none => badArg 0

def execTwRemote (h : Hdr) (args : List W32) (s : State) : Host.Outcome State Fault Refusal :=
  s.act (runCmd h 0x0505 [] (twRemote args))

/-- 1 s has passed since the close without a tag. -/
def twWaitEnd (k : Nat) (b : Block) : Block :=
  (b.tw.events.filter fun (e : TwEvent) => e.line == k && !e.done && decide (e.closeAt / 1000 + 100000 ≤ now b)).foldl
    (fun (b : Block) e => twFinish e b) b

def execTwTagWaitEnd (line : Fin 4) (s : State) : Host.Outcome State Fault Refusal := s.act (twWaitEnd line.val)

/-- TW_EVENT_READ: payload, arrivals (time in stride and 10 ns, mode, peak) and their samples. -/
def twEventRead (id : Nat) (b : Block) : CmdOut :=
  match b.tw.events.find? fun (e : TwEvent) => e.id == id with
  | none => badArg 0
  | some e =>
    if !e.done then .fail .notReady noDetail
    else .bulk b [] (e.payload
      ++ e.arrivals.flatMap (fun a => w64 (a.time / 1000) ++ [pack [fld (a.time % 1000) 31 22, fld a.mode 1 0], a.peak])
      ++ e.arrivals.flatMap fun a => a.samples.flatMap fun s => [s.1, s.2.1, s.2.2])

def execTwEventRead (h : Hdr) (twId : W32) (s : State) : Host.Outcome State Fault Refusal :=
  s.act (runCmd h 0x0504 [] (twEventRead twId.toNat))

/-! ### Recorder (R496 to R498) -/

def recPre (b : Block) : Nat := cfgN b 0x20 0 0 31 22 * 100
def recPost (b : Block) : Nat := cfgN b 0x20 0 0 21 12 * 100
/-- REC_CFG is not in use until it is written: its thresholds reset to 0, out of their range (R601). -/
def trigEnabled (b : Block) (k : Nat) : Bool := cfgWritten b 0x20 0 && cfgBit b 0x20 0 0 (4 + k)

/-- A record takes a trigger: its end moves, up to 2,000 ms after its start. -/
def RecordR.trigger (r : RecordR) (T kind detail post : Nat) : RecordR :=
  { r with stop := Nat.max r.stop (Nat.min (T + post) (r.start + 200000)), kinds := r.kinds ||| (1 <<< kind)
           trigs := if r.trigs.length < 32 then r.trigs ++ [(T, kind, detail)] else r.trigs
           trunc := r.trunc || decide (32 ≤ r.trigs.length) }

/-- REC_ID of the record that a trigger opened or joined goes into the event that is its cause. -/
def recEvent (kind detail id : Nat) (b : Block) : Block :=
  if kind ≠ 0 then b
  else
    let mark := fun (e : TwEvent) => if e.id = detail then { e with recId := some id } else e
    { b with tw := { b.tw with lines := Tbl.mapAll none b.tw.lines (fun _ e => e.map mark), events := b.tw.events.map mark } }

/-- A trigger at stride T (R497). -/
def recTrigger (T kind detail : Nat) (b : Block) : Block :=
  let b := { b with recd := { b.recd with trigAt := some (T, kind) } }
  match b.recd.openRecs.reverse.find? fun (r : RecordR) => decide (T ≤ r.stop) with
  | some r =>
    let l := b.recd.openRecs.map fun (x : RecordR) => if x.id = r.id then x.trigger T kind detail (recPost b) else x
    recEvent kind detail r.id { b with recd := { b.recd with openRecs := l } }
  | none =>
    let r : RecordR := { id := b.recd.nextId, start := T - recPre b, stop := T + recPost b }
    recEvent kind detail r.id { b with recd := { b.recd with
      nextId := b.recd.nextId + 1, openRecs := b.recd.openRecs ++ [r.trigger T kind detail (recPost b)] } }

/-- The conditions of kinds 3 to 5 on side 0. -/
def trigCond (b : Block) (kind : Nat) : Bool :=
  let x := side b 0
  match kind with
  | 3 => flt (cfgW b 0x20 0 1) (fabs (fsub x.freq (gFNom b 0)))
  | 4 => flt (cfgW b 0x20 0 2) (fabs x.rocof)
  | _ => flt x.vmag (cfgW b 0x20 0 3) || flt (cfgW b 0x20 0 4) x.vmag

/-- One of kinds 3 to 5: it triggers as its condition starts to hold, again after 100 strides without it. -/
def trigEdge (kind : Nat) (b : Block) : Block :=
  let wait := Tbl.get 0 b.recd.quiet kind
  let b' := { b with recd := { b.recd with quiet := Tbl.set 0 b.recd.quiet kind (if trigCond b kind then 100 else wait - 1) } }
  if trigCond b kind && wait == 0 && trigEnabled b kind then recTrigger (now b) kind 0 b' else b'

/-- The stride of a noted trigger: that of a TW event's first arrival, else this one. -/
def noteStride (b : Block) (n : Nat × Nat) : Nat :=
  if n.1 ≠ 0 then now b
  else
    let e := ((b.tw.lines.filterMap fun kv => kv.2) ++ b.tw.events).find? fun (e : TwEvent) => e.id == n.2
    match e with
    | some e => e.first / 1000
    | none => now b

/-- REC_TRIGGER_EVAL: once per stride; while the Sense die is lost nothing is recorded. -/
def recEval (b : Block) : Block :=
  let notes := b.recd.notes
  let b := { b with recd := { b.recd with notes := [] } }
  if b.sense.lost then b
  else
    let b := notes.foldl (fun (b : Block) n => if trigEnabled b n.1 then recTrigger (noteStride b n) n.1 n.2 b else b) b
    trigEdge 5 (trigEdge 4 (trigEdge 3 b))

def execRecTriggerEval (s : State) : Host.Outcome State Fault Refusal := s.act recEval

/-- REC_TRIGGER: kind 6 in this stride's evaluation. -/
def recTriggerCmd (b : Block) : CmdOut :=
  if !trigEnabled b 6 ∨ b.sense.lost then .fail .notReady noDetail else .ok (recNote 6 0 b) []

def execRecTrigger (h : Hdr) (s : State) : Host.Outcome State Fault Refusal := s.act (runCmd h 0x0501 [] recTriggerCmd)

/-- RECORD_CLOSE: records whose last stride has ended wait to be copied. -/
def recordClose (b : Block) : Block :=
  let past : RecordR → Bool := fun r => decide (r.stop < now b)
  { b with recd := { b.recd with openRecs := b.recd.openRecs.filter fun r => !past r
                                 closing := b.recd.closing ++ b.recd.openRecs.filter past } }

def execRecordClose (s : State) : Host.Outcome State Fault Refusal := s.act recordClose

/-- Words of a record after its header. -/
def RecordR.body (r : RecordR) : List W32 :=
  (r.trigs.flatMap fun t => w64 t.1 ++ [w32 t.2.1, w32 t.2.2]) ++ r.prec ++ r.tw.flatten

/-- The header (Table 14-11). -/
def RecordR.header (r : RecordR) : List W32 :=
  let w := [w32 r.id, pack [flg r.complete 31, flg r.trunc 30, flg r.step 29, fld r.trigs.length 28 23, fld r.kinds 22 15,
    fld r.tw.length 14 0]] ++ w64 r.start ++ w64 r.stop ++ [w32 (4 * r.prec.length)]
  w ++ [crc32 (bytesOf (w ++ r.body))]

def RecordR.bytes (r : RecordR) : Nat := 32 + 4 * r.body.length

/-- The store keeps 128 MiB: the oldest record goes first, never one that is being read. -/
def trimStore (reading : List Nat) : Nat → List RecordR → List RecordR
  | 0, l => l
  | fuel + 1, l =>
    if (l.map RecordR.bytes).foldl (· + ·) 0 ≤ 134217728 then l
    else match l.find? fun r => !reading.contains r.id with
      | some r => trimStore reading fuel (l.filter fun x => x.id != r.id)
      | none => l

/-- Items that bulk reads use. -/
def inUse (b : Block) : List Obj := ((b.host.channels.filterMap Prod.snd) ++ b.host.bulkWait).filterMap Bulk.uses
def readingRecs (b : Block) : List Nat := (inUse b).filterMap fun o => match o with
  | .record id => some id
  | _ => none

/-- The precision blocks of a range of strides that the ring holds. -/
def precBlocks (b : Block) (start stop : Nat) : List W32 :=
  (List.range (stop + 1 - start)).flatMap fun i =>
    let e := Tbl.get (0, []) b.sense.precRing ((start + i) % 524288)
    if e.1 = start + i then e.2 else []

/-- REC_COPY_DONE: the oldest record that waits is in the store. -/
def recCopy (b : Block) : Block :=
  match b.recd.closing with
  | [] => b
  | r :: rest =>
    let tw := (b.tw.events.filter fun (e : TwEvent) => e.payload != [] && decide (r.start ≤ e.first / 1000) && decide (e.first / 1000 ≤ r.stop)).reverse
    let r := { r with complete := true, prec := precBlocks b r.start r.stop, tw := tw.map TwEvent.payload }
    let l := b.recd.store ++ [r]
    raise .recorded [w32 r.id] { b with recd := { b.recd with closing := rest, store := trimStore (readingRecs b) l.length l } }

def execRecCopyDone (s : State) : Host.Outcome State Fault Refusal := s.act recCopy

/-- REC_LIST: the headers held; more than a response carries need BULK. -/
def execRecList (h : Hdr) (s : State) : Host.Outcome State Fault Refusal :=
  s.act (runCmd h 0x0502 [] fun b =>
    let w := b.recd.store.flatMap RecordR.header
    if w.length ≤ 1020 then .ok b w else .bulk b [] w)

/-- 16-bit codes, two to a word, the first lower. -/
def halfWords : List Nat → List W32
  | a :: b :: l => pack [fld a 15 0, fld b 31 16] :: halfWords l
  | [a] => [pack [fld a 15 0]]
  | [] => []

/-- REC_READ: part 0 the stored record, part 1 its high-speed window from the ring. -/
def recRead (id part : Nat) (b : Block) : CmdOut :=
  match b.recd.store.find? fun (r : RecordR) => r.id == id with
  | none => badArg 0
  | some r =>
    if 1 < part then badArg 1
    else if part = 0 then .transfer b [] (r.header ++ r.body) (some (.record id)) none
    else if !hsHeld b r.start then .fail .overwritten noDetail
    else .transfer b [] ((List.range (r.stop + 1 - r.start)).flatMap fun i =>
        if hsHeld b (r.start + i) then halfWords (Tbl.get (0, []) b.sense.hsRing ((r.start + i) % 894784)).2 else [])
      (some (.record id)) (some r.start)

def execRecRead (h : Hdr) (recId part : W32) (s : State) : Host.Outcome State Fault Refusal :=
  s.act (runCmd h 0x0503 [] (recRead recId.toNat part.toNat))

end Sys2Proof.Machine
end

