-- ==== Sys2Proof/Machine/Snapshot.lean ====
section
/-! DEFINITION. Snapshots (R553 to R556, R112 to R114), the telemetry ring read (R545) and uncorrectable errors of the
LPDDR5X (R37, Table 1-13). -/

namespace Sys2Proof.Machine

/-! ### Requests -/

def snapChain (x : Snap) (p : Nat) : Bool := x.chains.testBit p
/-- Cell endpoints, ledger slots, lane memories selected. -/
def snapCells (x : Snap) : Bool := x.parts.testBit 0
def snapBanks (x : Snap) : Bool := x.parts.testBit 1 || x.parts.testBit 2

/-- A snapshot that a bulk read uses. -/
def readingSnap (b : Block) (id : Nat) : Bool := (inUse b).any fun o => o == .snapshot id

/-- The store with room for one more: 64 slots, the oldest finished one that is not being read is given up. -/
def snapRoom (b : Block) : Option (List Snap) :=
  if b.snaps.list.length < 64 then some b.snaps.list
  else (b.snaps.list.find? fun (x : Snap) => x.st == 2 && !readingSnap b x.id).map fun x => b.snaps.list.filter fun y => y.id != x.id

/-- The first slot that no snapshot takes. -/
def freeSlot (l : List Snap) : Nat := ((List.range 64).find? fun k => !(l.any fun (x : Snap) => x.slot == k)).getD 0

/-- Two boundaries less than 40 strides apart. -/
def near40 (a b : Nat) : Bool := decide (a < b + 40 ∧ b < a + 40)

/-- SNAPSHOT_REQUEST (R553). -/
def snapshotRequest (h : Hdr) (args : List W32) (b : Block) : CmdOut :=
  let B := join64 (word args 0) (word args 1)
  let chains := (word args 2).toNat
  let parts := (word args 3).toNat
  let live := b.snaps.list.filter fun (x : Snap) => x.st < 2
  let ps := bitList 32 chains
  if args.length ≠ 4 then .fail .badArg noDetail
  else if 7 < parts then badArg 3
  else if b.pair.role ≠ 0 ∧ !isLead b then .fail .pairRole noDetail
  else match checkBoundary b B with
    | some st => .fail st 0
    | none =>
      if ps.any fun p => (chain b p).st != .ready then .fail .notReady 2
      else if (ps.any fun p => live.any fun (x : Snap) => snapChain x p && near40 x.boundary B) ∨ 4 ≤ live.length
          ∨ (decide (2 ≤ parts) && live.any snapBanks) = true then .fail .busy noDetail
      else match snapRoom b with
        | none => .fail .busy noDetail
        | some l =>
          let id := b.snaps.nextId
          let x : Snap := { id := id, boundary := B, chains := chains, parts := parts, slot := freeSlot l }
          let b := ps.foldl (fun (b : Block) p => onChain p (fun (c : Chain) => { c with snapAt := c.snapAt ++ [B] }) b) b
          .ok (addAction { boundary := B, kind := .snapshot id, op := 0x0401, h := h }
            { b with snaps := { list := l ++ [x], nextId := id + 1 } }) [w32 id]

def execSnapshotRequest (h : Hdr) (args : List W32) (s : State) : Host.Outcome State Fault Refusal :=
  s.act (runCmd h 0x0401 [] (snapshotRequest h args))

def onSnap (id : Nat) (f : Snap → Snap) (b : Block) : Block :=
  { b with snaps := { b.snaps with list := b.snaps.list.map fun (x : Snap) => if x.id = id then f x else x } }
def findSnap (b : Block) (id : Nat) : Option Snap := b.snaps.list.find? fun (x : Snap) => x.id == id

/-- SNAPSHOT_CANCEL: RESULT 2. -/
def snapshotCancel (id : Nat) (b : Block) : CmdOut :=
  match findSnap b id with
  | none => badArg 0
  | some x =>
    if x.st = 2 then .fail .notReady noDetail
    else
      let mine : Action → Bool := fun a => match a.kind with
        | .snapshot i => i == id
        | _ => false
      let b := cancelActions mine .cancelled b
      let b := (bitList 32 x.chains).foldl (fun (b : Block) p =>
        onChain p (fun (c : Chain) => { c with snapAt := c.snapAt.filter (· != x.boundary) }) b) b
      .ok (onSnap id (fun (x : Snap) => { x with st := 2, result := 2, doneAt := now b }) b) []

def execSnapshotCancel (h : Hdr) (snapId : W32) (s : State) : Host.Outcome State Fault Refusal :=
  s.act (runCmd h 0x0402 [] (snapshotCancel snapId.toNat))

/-! ### At and after the boundary -/

/-- Cells of a chain that enumeration knows. -/
def snapMembers (b : Block) (x : Snap) : List Nat :=
  if snapCells x then ((bitList 32 x.chains).flatMap fun p => (List.range 64).map (64 * p + ·)).filter (enumerated b) else []

/-- One snapshot latches (R554). -/
def latchSnap (b : Block) (x : Snap) : Snap :=
  let ms := snapMembers b x
  { x with
    st := 1
    chainState := (List.range 32).foldl (fun (t : Tbl Nat) p =>
      if snapChain x p then Tbl.set 0 t p (if (chain b p).st = .ready then 1 else 2) else t) []
    ledger := if x.parts.testBit 1 then b.led.words else []
    lanes := if x.parts.testBit 2 then
        (List.range 272).foldl (fun (t : Tbl (Tbl W32)) e => Tbl.set [] t e (engine b e).mem) [] else []
    cellMaps := ms.foldl (fun (t : Tbl (List W32)) n => Tbl.set [] t n ((List.range 4).map fun k => word (cellDesc b n) (8 + k))) []
    serials := ms.foldl (fun (t : Tbl Nat) n => Tbl.set 0 t n (((hub b n).info.map EnumInfo.serial).getD 0)) []
    utc := utcSec b, utcNs := b.time.ns / 10000 * 10000, taiUtc := taiUtc b }

/-- SNAPSHOT_LATCH: step 1 of R51. -/
def snapshotLatch (b : Block) : Block :=
  let (due, b) := dueActions (fun a => match a.kind with | .snapshot _ => true | _ => false) b
  due.foldl (fun (b : Block) a => match a.kind with
    | .snapshot id => actionEvent a .ok (onSnap id (latchSnap b) b)
    | _ => b) b

/-- LADDER from the record of stride B, at the boundary after it. -/
def snapLadders (b : Block) : Block :=
  { b with snaps := { b.snaps with list := b.snaps.list.map fun (x : Snap) =>
      if x.st = 1 ∧ x.boundary + 1 = now b then
        { x with ladder := (snapMembers b x).foldl (fun (t : Tbl Nat) n => Tbl.set 0 t n (recLadder b n)) x.ladder } else x } }

/-- A snapshot that takes the segments of a chain now. -/
def uploading (b : Block) (p : Nat) : Option Snap :=
  b.snaps.list.find? fun (x : Snap) => x.st == 1 && snapCells x && Tbl.get 0 x.chainState p == 1 && !x.closed.testBit p

/-- SNAPSHOT_SEGMENT: the first copy that passes its CRC (R114). -/
def snapshotSegment (n : Nat) (pl : BitVec 56) (values : List W32) (b : Block) : Block :=
  let j := pf pl 47 44
  if !segOk n 1 7 pl values then ctrlErr (n / 64) b
  else
    match uploading b (n / 64) with
    | none => b
    | some x =>
      if (Tbl.get none x.segs (8 * n + j)).isSome then b
      else onSnap x.id (fun (x : Snap) => { x with segs := Tbl.set none x.segs (8 * n + j) (some values) }) b

def execSnapshotSegment (cell : Fin 2048) (payload : BitVec 56) (skip : Nat) (values : List W32) (s : State) :
    Host.Outcome State Fault Refusal :=
  s.act fun b =>
    if !hears (port b (cell.val / 64)) then b
    else
      match rxFrame (cell.val / 64) 0xCC payload skip values b with
      | (b, some l) => snapshotSegment cell.val payload l b
      | (b, none) => b

/-- Mapped slots of a cell in a snapshot, its segments. -/
def Snap.slots (x : Snap) (n : Nat) : List Nat :=
  (List.range 128).filter fun s => bit (word (Tbl.get [] x.cellMaps n) (s / 32)) (s % 32)
def Snap.segCount (x : Snap) (n : Nat) : Nat := ((x.slots n).length + 15) / 16

/-- SNAPSHOT_UPLOAD_CLOSE at B + 2n + 1; a port without its link then gives CHAIN_STATE 3 (R556). -/
def uploadClose (p id : Nat) (b : Block) : Block :=
  match findSnap b id with
  | none => b
  | some x =>
    let n := ((List.range 64).map fun c => x.segCount (64 * p + c)).foldl Nat.max 0
    if x.st ≠ 1 ∨ !snapChain x p ∨ x.closed.testBit p ∨ now b < x.boundary + 2 * n + 1 then b
    else onSnap id (fun (x : Snap) => { x with
      closed := x.closed ||| (1 <<< p)
      chainState := if Tbl.get 0 x.chainState p = 1 ∧ (port b p).st ≠ .up then Tbl.set 0 x.chainState p 3 else x.chainState }) b

def execSnapshotUploadClose (port : Fin 32) (snapId : W32) (s : State) : Host.Outcome State Fault Refusal :=
  s.act (uploadClose port.val snapId.toNat)

/-! ### The record (R555) -/

def Snap.has (x : Snap) (n j : Nat) : Bool := (Tbl.get none x.segs (8 * n + j)).isSome
/-- The value of slot s of cell n, if its segment arrived. -/
def Snap.value (x : Snap) (n s : Nat) : Option W32 :=
  match ((x.slots n).findIdx? (· == s)) with
  | some i => (Tbl.get none x.segs (8 * n + i / 16)).map fun l => word l (i % 16)
  | none => none

/-- Cells in the snapshot, CSTATE (Table 16-15). -/
def Snap.member (x : Snap) (n : Nat) : Bool := Tbl.get [] x.cellMaps n != []
def Snap.missing (x : Snap) (n : Nat) : Nat := ((x.slots n).filter fun s => (x.value n s).isNone).length
def Snap.cstate (x : Snap) (n : Nat) : Nat :=
  if !x.member n then 3
  else if x.missing n = 0 then 0
  else if (List.range 8).any fun j => x.has n j then 1 else 2

def Snap.members (x : Snap) : List Nat := x.cellMaps.map Prod.fst
def Snap.partial? (x : Snap) : Nat := (x.members.filter fun n => x.cstate n == 1).length
def Snap.absent (x : Snap) : Nat := (x.members.filter fun n => x.cstate n == 2).length
def Snap.slotsMissing (x : Snap) : Nat := (x.members.map x.missing).foldl (· + ·) 0

/-- Header words 0 to 15 (Table 16-14). -/
def Snap.header (x : Snap) : List W32 :=
  [w32 x.id, pack [flg (x.st == 2) 31, fld x.result 30 28, fld x.parts 27 24]] ++ w64 x.boundary ++ w64 x.utc
    ++ [w32 x.utcNs, ofInt x.taiUtc, w32 x.chains]
    ++ ((List.range 2).map fun k => pack ((List.range 16).map fun i => fld (Tbl.get 0 x.chainState (16 * k + i)) (2 * i + 1) (2 * i)))
    ++ [pack [fld x.partial? 31 16, fld x.absent 15 0], w32 x.slotsMissing, w32 x.doneAt, 0, 0]

/-- A directory entry (Table 16-15). -/
def Snap.entry (x : Snap) (n : Nat) : List W32 :=
  [pack [fld n 31 21, fld (x.cstate n) 20 18, fld (x.slots n).length 17 10],
   pack [fld (bitmapOf ((List.range (x.segCount n)).filter fun j => !x.has n j)) 31 24, fld (Tbl.get 0 x.ladder n) 23 22]]
    ++ w64 (Tbl.get 0 x.serials n)
    ++ (List.range 4).map fun k => pack ((List.range 32).map fun i => flg (x.value n (32 * k + i)).isSome i)

/-- The record's words without its CRC, and with it. -/
def Snap.body (x : Snap) : List W32 :=
  ((List.range 2048).flatMap x.entry)
  ++ ((List.range 2048).flatMap fun n => (List.range 128).map fun s => (x.value n s).getD 0)
  ++ Tbl.range 0 x.ledger 0 131072
  ++ (List.range 272).flatMap fun e => Tbl.range 0 (Tbl.get [] x.lanes e) 0 2048
def Snap.record (x : Snap) : List W32 :=
  let head := x.header ++ List.replicate 1007 0
  head ++ [crc32 (bytesOf (head ++ x.body))] ++ x.body

/-- SNAPSHOT_ASSEMBLED: every upload closed, COMPLETE sets (R554). -/
def assembled (id : Nat) (b : Block) : Block :=
  match findSnap b id with
  | none => b
  | some x =>
    if x.st ≠ 1 ∨ (snapCells x && (bitList 32 x.chains).any fun p => !x.closed.testBit p) = true then b
    else
      let r := if x.result = 4 then 4 else if x.slotsMissing = 0 then 0 else 1
      let b := onSnap id (fun (x : Snap) => { x with st := 2, result := r, doneAt := now b }) b
      raise .snapshot ([w32 id, w32 r] ++ w64 x.boundary ++ [w32 x.partial?, w32 x.absent, w32 x.slotsMissing]) b

def execSnapshotAssembled (snapId : W32) (s : State) : Host.Outcome State Fault Refusal := s.act (assembled snapId.toNat)

/-- SNAPSHOT_LIST: the header words of each slot in use. -/
def execSnapshotList (h : Hdr) (s : State) : Host.Outcome State Fault Refusal :=
  s.act (runCmd h 0x0403 [] fun b =>
    let w := (b.snaps.list.filter fun (x : Snap) => 0 < x.st).flatMap Snap.header
    if w.length ≤ 1020 then .ok b w else .bulk b [] w)

/-- SNAPSHOT_READ: a record or a byte range of it, length 0 for the whole. -/
def snapshotRead (id offset length : Nat) (b : Block) : CmdOut :=
  match findSnap b id with
  | none => badArg 0
  | some x =>
    if offset % 4 ≠ 0 ∨ 0x3B1000 ≤ offset then badArg 1
    else if length % 4 ≠ 0 ∨ 0x3B1000 < offset + length then badArg 2
    else if x.st ≠ 2 then .fail .notReady noDetail
    else
      let n := if length = 0 then (0x3B1000 - offset) / 4 else length / 4
      .transfer b [] ((x.record.drop (offset / 4)).take n) (some (.snapshot id)) none

def execSnapshotRead (h : Hdr) (snapId : W32) (offset length : Nat) (s : State) : Host.Outcome State Fault Refusal :=
  s.act (runCmd h 0x0404 [] (snapshotRead snapId.toNat offset length))

/-! ### The telemetry ring (R545) -/

/-- Stride S is held. -/
def ringHolds (b : Block) (S : Nat) : Bool := (List.range 2048).any fun n => (Tbl.get (0, []) b.ring (ringKey S n)).1 == S
  && (Tbl.get (0, []) b.ring (ringKey S n)).2 != []

/-- The records of a range of cells in stride S; one that is not there reads zero. -/
def ringRecords (b : Block) (S cell cells : Nat) : List W32 :=
  w64 S ++ (List.range cells).flatMap fun i =>
    let e := Tbl.get (0, []) b.ring (ringKey S (cell + i))
    (List.range 12).map (word (if e.1 = S then e.2 else []))

/-- RING_READ: the strides held of those named, their number first. -/
def ringRead (first count cell cells : Nat) (b : Block) : CmdOut :=
  if cells = 0 ∨ 2048 < cell + cells then badArg 3
  else
    let ss := ((List.range (Nat.min count 21845)).map (first + ·)).filter (ringHolds b)
    .bulk b [w32 ss.length] (ss.flatMap fun S => ringRecords b S cell cells)

def execRingRead (h : Hdr) (first count : Nat) (cell cells : Nat) (s : State) : Host.Outcome State Fault Refusal :=
  s.act (runCmd h 0x0303 [] (ringRead first count cell cells))

/-! ### Uncorrectable errors (R37, Table 1-13) -/

/-- What stands at an address becomes invalid, by region (Table 1-8). `record`: the fault record that lies there. -/
def ddrInvalid (a record : Nat) (b : Block) : Block :=
  if a < 0x100000000 then { b with sense.hsRing := Tbl.set (0, []) b.sense.hsRing (a / 4800) (0, []) }
  else if a < 0x180000000 then
    let k := (a - 0x100000000) / 48
    { b with ring := Tbl.set (0, []) b.ring k (0, []) }
  else if a < 0x1C0000000 then
    let k := (a - 0x180000000) / 64
    onLedCell (k % 2048) (fun (c : LedCell) => { c with tjPeak := none }) { b with led.history := Tbl.set [] b.led.history k [] }
  else if a < 0x1C4000000 then { b with sense.precRing := Tbl.set (0, []) b.sense.precRing ((a - 0x1C0000000) / 128) (0, []) }
  else if a < 0x1CC000000 then
    { b with recd.store := b.recd.store.map fun (r : RecordR) => if r.id = record then { r with complete := false } else r }
  else if a < 0x1DC000000 then
    let k := (a - 0x1CC000000) / 4194304
    { b with snaps := { b.snaps with list := b.snaps.list.map fun (x : Snap) =>
        if x.slot = k ∧ (x.st = 1 ∨ (x.st = 2 ∧ x.result ≤ 1)) then { x with result := 4 } else x } }
  else if a < 0x1E0000000 then
    let k := (a - 0x1DC000000) / 64
    { b with ev.log := b.ev.log.filter fun r => r.seq.toNat % 1048576 ≠ k }
  else coachMismatch b

/-- A 32-byte burst is read in whose two halves `lo` and `hi` bits are wrong: one is corrected, written back and counted, two
are not correctable and raise EV_DDR_UNCORRECTABLE with the address (R37). -/
def ddrBurst (address lo hi record : Nat) (b : Block) : Block :=
  let fixed := (if lo = 1 then 1 else 0) + (if hi = 1 then 1 else 0)
  let b := { b with fab.ddr.ce := b.fab.ddr.ce + fixed }
  if lo = 2 ∨ hi = 2 then ddrInvalid address record (raise .ddrUncorrectable (w64 address) b) else b

def execDdrUncorrectable (address : BitVec 33) (lo hi : Fin 3) (record : W32) (s : State) : Host.Outcome State Fault Refusal :=
  s.act (ddrBurst address.toNat lo.val hi.val record.toNat)

end Sys2Proof.Machine
end

