-- ==== Sys2Proof/Machine/Actions.lean ====
section
/-! DEFINITION. The actions of one boundary in the order of R51: snapshot latch, calibration switch, bank swap, mode change.
Each row performs the earlier steps still due at this boundary before its own, so that the order holds whichever row comes
first; a step already done finds nothing due. -/

namespace Sys2Proof.Machine

/-- Step 1 of R51, then step 2. -/
def throughCalibration (b : Block) : Block := calibrationSwitch (snapshotLatch b)
/-- Steps 1 to 3. -/
def throughSwap (b : Block) : Block := bankSwap (throughCalibration b)
/-- Steps 1 to 4; on a partner the mode follows the lead's. -/
def throughMode (b : Block) : Block :=
  let b := throughSwap b
  if isPartner b then b else gridWords (modeDue (forcedBoundary b))

def execSnapshotLatch (s : State) : Host.Outcome State Fault Refusal := s.act snapshotLatch
def execCalibrationSwitch (s : State) : Host.Outcome State Fault Refusal := s.act throughCalibration
def execCarveBankSwap (s : State) : Host.Outcome State Fault Refusal := s.act throughSwap
def execModeChange (s : State) : Host.Outcome State Fault Refusal := s.act throughMode

end Sys2Proof.Machine
end

