-- ==== Sys2Proof/Machine/Pairs.lean ====
section
/-! DEFINITION. Pairs (chapter 11): roles, the pair link and its frames, the partner's work and its digests, strikes,
promotion and relinquishing, feeds, cold start, joins. -/

namespace Sys2Proof.Machine

/-! ### What the other unit told last -/

def peerRole (b : Block) : Nat := bits (word b.pair.peerStep 2) 31 29
def peerStride (b : Block) : Nat := join64 (word b.pair.peerStep 0) (word b.pair.peerStep 1)
def peerBib (b : Block) : Nat := bits (word b.pair.peerStep 2) 23 0
/-- The link is UP and the last STEP came from a lead. -/
def peerLeads (b : Block) : Bool := b.pair.up && b.pair.peerAt.isSome && (peerRole b == 2 || peerRole b == 5)
/-- The STEP of stride `X` has arrived from the lead. -/
def leadStep (b : Block) (X : Nat) : Bool := b.pair.peerAt.isSome && peerStride b == X && (peerRole b == 2 || peerRole b == 5)

/-! ### Epochs and roles (R390 to R394, R406) -/

/-- E of R394. -/
def greatestEpoch (b : Block) : Nat :=
  Nat.max (Nat.max b.pair.stored b.pair.epoch) (Nat.max b.pair.bibSeen (peerBib b / 256))

/-- This unit takes the lead with EPOCH = E + 1, or raises EV_PAIR_EPOCH when E is 65,535. -/
def takeLead (b : Block) : Block :=
  let e := greatestEpoch b
  if 65535 ≤ e then raise .pairEpoch [w32 e] b
  else { b with pair := { b.pair with role := 2, epoch := e + 1, storeDue := true, left := false, inStep := false
                                      matchRun := 0, strikes := 0, joining := none } }

/-- Leaving step (R406): RELAY from the next boundary. -/
def leaveStep (cause : Nat) (b : Block) : Block :=
  if !isPartner b ∨ b.pair.roleDue.isSome then b
  else raise .pairStepLost [w32 cause] { b with pair := { b.pair with
    roleDue := some 4, inStep := false, matchRun := 0, strikes := 0 } }

/-- The lead's epoch on a unit that is not lead (R394). -/
def followEpoch (e : Nat) (b : Block) : Block :=
  if b.pair.epoch = e then b else { b with pair := { b.pair with epoch := e, storeDue := true } }

/-- R394: the epoch goes to the pair record of both devices, once no dip stands (R512). -/
def epochWrite (b : Block) : Block :=
  if b.pair.storeDue ∧ flashHeld b = false then { b with pair := { b.pair with stored := b.pair.epoch, storeDue := false } } else b

def execEpochRecordWrite (s : State) : Host.Outcome State Fault Refusal := s.act epochWrite

/-! ### The link (R393, R396, R397) -/

/-- RANK that the other unit announces on the lanes. -/
def lanePeer (b : Block) : Nat :=
  (((List.range 4).filter fun k => hears (port b (32 + k))).map fun k => (port b (32 + k)).partnerRank).foldl Nat.max 0

/-- The link comes up (R393). -/
def linkUp (b : Block) : Block :=
  let r := lanePeer b
  let b := { b with pair := { b.pair with up := true, peerRank := r, peerSolo := r == 0 } }
  if r = 0 then raise .pairConfig [1] b
  else if r = rank b then raise .pairConfig [0] b
  else b

/-- A measurement of the one-way delay in ps: a link beyond 400 ns is held down. -/
def linkDelay (d : Nat) (b : Block) : Block :=
  if !pairEn b ∨ b.pair.lanes = 0 then b
  else
    let b := { b with pair := { b.pair with delay := d } }
    if 400000 < d then
      if b.pair.held then b else raise .pairLink [1] { b with pair := { b.pair with held := true, up := false } }
    else
      let b := if b.pair.held then raise .pairLink [2] { b with pair := { b.pair with held := false } } else b
      if b.pair.up then b else linkUp b

def execPairLinkUp (delay : Nat) (s : State) : Host.Outcome State Fault Refusal :=
  s.act fun b => if b.pair.up then b else linkDelay delay b

def execPairDelayMeasure (delay : Nat) (s : State) : Host.Outcome State Fault Refusal :=
  s.act fun b => if now b % 1000 = 0 then linkDelay delay b else b

/-! ### Alignment (R400) -/

/-- The 64-bit number nearest to `base` with the given low 32 bits. -/
def near32 (base low : Nat) : Nat :=
  let c := base / 2 ^ 32 * 2 ^ 32 + low
  if base + 2 ^ 31 < c then c - 2 ^ 32 else if c + 2 ^ 31 < base then c + 2 ^ 32 else c

/-- A TIME block: `arrival` in ps of this counter. The lead's boundary S+1 is arrival less delay plus OFFSET (80 ps). -/
def timeBlock (pl : BitVec 56) (arrival : Int) (b : Block) : Block :=
  if !b.pair.up ∨ sends b ∨ !crc5Ok 0xC3 pl then b
  else
    let S := near32 (if b.pair.peerAt.isSome then peerStride b else now b) (pf pl 55 24)
    let lead := arrival - b.pair.delay + (pf pl 23 6 : Int) * 80
    let e := ((S : Int) + 1) * 10000000 - lead
    let good := decide (e.natAbs ≤ 1000)
    let bad := decide (2000 < e.natAbs)
    let run := if good then Nat.min 100 (b.pair.alignRun + 1) else 0
    let bads := if bad then Nat.min 16 (b.pair.alignBad + 1) else 0
    { b with pair := { b.pair with
      steer := e, alignRun := run, alignBad := bads
      alignOk := (b.pair.alignOk || run == 100) && bads != 16 } }

/-- The other unit answers each TIME with ECHO (R397). -/
def timeEcho (pl : BitVec 56) (b : Block) : Block :=
  if !b.pair.up ∨ !crc5Ok 0xC3 pl then b else linkSend 1 (pf pl 55 24) 0 [] b

def execTimeBlock (payload : BitVec 56) (arrival : Int) (s : State) : Host.Outcome State Fault Refusal :=
  s.act fun b => if sends b then b else timeEcho payload (timeBlock payload arrival b)

/-! ### Frames sent (R398, R401, R405, R406) -/

/-- Three-bit lane-slot states in the order of Table 3-10. -/
def slotCode (s : SlotSt) : Nat :=
  match s with
  | .blocked => 0
  | .integrating => 1
  | .active => 2
  | .bypassing => 3
  | .bypassed => 4
  | .unbypassing => 5
def slotOf (n : Nat) : SlotSt :=
  match n with
  | 1 => .integrating
  | 2 => .active
  | 3 => .bypassing
  | 4 => .bypassed
  | 5 => .unbypassing
  | _ => .blocked

/-- Fields of `w` bits side by side, the first lowest. -/
def packRow (w : Nat) (l : List Nat) : Nat := l.foldr (fun x n => x % 2 ^ w + 2 ^ w * n) 0
def rowField (w n k : Nat) : Nat := n / 2 ^ (w * k) % 2 ^ w

/-- Status of a record in INPUT: 0 folded, 1 late, 2 missing. -/
def recStatus (b : Block) (n : Nat) : Nat :=
  if (hub b n).recAt = some (work b) then (if (hub b n).folded then 0 else 1) else 2

/-- Data words of the INPUT of chain p: 64 records, statuses, lane-slot states (Table 11-3). -/
def inputData (p : Nat) (b : Block) : List W32 :=
  let cs := (List.range 64).map (64 * p + ·)
  (cs.flatMap fun n => if recStatus b n = 2 then List.replicate 12 0 else (List.range 12).map (recW b n))
  ++ bitmapWords 128 (packRow 2 (cs.map (recStatus b)))
  ++ bitmapWords 192 (packRow 3 (cs.map fun n => slotCode (hub b n).slot))

def execPairInputSend (port : Fin 32) (s : State) : Host.Outcome State Fault Refusal :=
  s.act fun b =>
    if isLead b ∧ b.pair.up = true ∧ chainEnd b port.val ≠ 0 then
      linkSend 5 (work b) port.val (inputData port.val b)
        { b with pair := { b.pair with inputSent := Tbl.set [] b.pair.inputSent port.val (inputData port.val b) } }
    else b

/-- MEAS, and behind it the mirrored commands of the stride (R398, R403). -/
def measSend (b : Block) : Block :=
  let w := (List.range 128).map fun i => xread b (0x0B00 + i)
  let b := linkSend 3 (now b) 0 w { b with pair := { b.pair with measSent := w } }
  (b.pair.cmdSent.filter fun c => c.1 == now b).foldl (fun (b : Block) c => linkSend 6 c.1 c.2.1 (w32 c.2.1 :: c.2.2) b) b

def execPairMeasSend (s : State) : Host.Outcome State Fault Refusal :=
  s.act fun b => if isLead b ∧ b.pair.up = true then measSend b else b

/-- The data of mirrored commands in the order sent. -/
def cmdData (l : List (Nat × Nat × List W32)) : List W32 := l.flatMap fun c => w32 c.2.1 :: c.2.2

/-- INPUT_DIGEST over MEAS, the INPUT of each chain and CMD (R405). -/
def digestIn (meas : List W32) (inputs : List (List W32)) (cmds : List (Nat × Nat × List W32)) : Nat :=
  crc64 (meas ++ inputs.flatten ++ cmdData cmds)

/-- The 24 words of an edge buffer: 16 edges and 8 parameters. -/
def edgeBuffer (b : Block) (n : Nat) : List W32 :=
  (List.range 16).map (word (hub b n).edges) ++ (List.range 8).map (word (hub b n).params)

/-- OUTPUT_DIGEST (R406). -/
def digestOut (b : Block) : Nat :=
  crc64 ((List.range 2048).flatMap (edgeBuffer b) ++ ((List.range 16).flatMap fun k => Tbl.range 0 (engine b (256 + k)).post 0 80)
    ++ [xread b 0x0B60])

/-- A block line is asserted, or R44 acts. -/
def tripped (b : Block) : Bool := b.prot.copyA.line || b.prot.copyB.line || b.prot.patrolLost

/-- The words of STEP (Table 11-4). -/
def stepWords (b : Block) : List W32 :=
  w64 (work b) ++ [pack [fld b.pair.role 31 29, flg (isPartner b && b.pair.inStep) 28, flg (isLead b && b.pair.relinquish) 27,
      flg b.pair.localFault 26, flg (tripped b) 25, flg (b.safe.degr != 0) 24, fld (bib b) 23 0],
    fld b.md.mode.code 31 29] ++ w64 b.pair.inDigest ++ w64 b.pair.outDigest

/-- S+8.7 µs: a lead's digests are taken here, a partner's stand; a unit without work sends digests of nothing. -/
def stepSend (b : Block) : Block :=
  if !pairEn b ∨ !b.pair.up ∨ b.sup.stage < 2 then b
  else
    let b := if isLead b then { b with pair := { b.pair with
        inDigest := digestIn b.pair.measSent (b.pair.inputSent.map Prod.snd) (b.pair.cmdSent.filter fun c => c.1 == now b)
        outDigest := digestOut b } }
      else if isPartner b then b else { b with pair := { b.pair with inDigest := 0, outDigest := 0 } }
    linkSend 2 (work b) 0 (stepWords b) { b with pair := { b.pair with stepSent := stepWords b } }

def execPairStepSend (s : State) : Host.Outcome State Fault Refusal := s.act stepSend

/-! ### Frames received (R398, R399, R404, R411) -/

/-- The check of a received frame (R399): its kind by the row of Table 11-3, stride and key. One that fails is asked for
again by NAK; one that fails twice is lost. -/
def frameCheck (kind stride key : Nat) (ok : Bool) (b : Block) : Bool × Block :=
  let f := (kind, stride, key)
  if ok then (true, { b with pair := { b.pair with failed := b.pair.failed.filter (· != f) } })
  else if b.pair.failed.contains f then
    (false, { b with pair := { b.pair with
      failed := b.pair.failed.filter (· != f)
      lost := if kind = 3 ∨ kind = 5 ∨ kind = 6 then stride :: b.pair.lost else b.pair.lost } })
  else (false, linkSend 8 stride key [] { b with pair := { b.pair with failed := f :: b.pair.failed, naks := f :: b.pair.naks } })

/-- Frames pass while the link is UP, at a unit of a pair (R396). -/
def linkCarries (b : Block) : Bool := pairEn b && b.pair.up
def dataOk (data : List W32) (crc : W32) : Bool := crc32 (bytesOf data) == crc

/-- A STEP that checks. -/
def takeStep (w : List W32) (b : Block) : Block :=
  let b := { b with pair := { b.pair with peerStep := w, peerAt := some (now b) } }
  let r := peerRole b
  let b := { b with pair := { b.pair with
    peerRank := peerBib b % 256
    peerCmdAt := if r = 0 ∨ r = 2 ∨ r = 5 then some (now b) else b.pair.peerCmdAt } }
  if r = 2 ∨ r = 5 then
    if sends b then (if bib b < peerBib b then demote b else b) else followEpoch (peerBib b / 256) b
  else b

def execStepFrame (words : List W32) (crc : W32) (s : State) : Host.Outcome State Fault Refusal :=
  s.act fun b =>
    if !linkCarries b ∨ words.length ≠ 8 then b
    else
      let (ok, b) := frameCheck 2 (join64 (word words 0) (word words 1)) 0 (dataOk words crc) b
      if ok then takeStep words b else b

def execInputFrame (port : Fin 32) (stride : Nat) (data : List W32) (crc : W32) (s : State) :
    Host.Outcome State Fault Refusal :=
  s.act fun b =>
    if !linkCarries b ∨ !lagging b ∨ data.length ≠ 778 then b
    else
      let (ok, b) := frameCheck 5 stride port.val (dataOk data crc) b
      if ok then { b with pair := { b.pair with
          inputs := (b.pair.inputs.filter fun x => x.1 != stride || x.2.1 != port.val) ++ [(stride, port.val, data)] } } else b

def execMeasFrame (stride : Nat) (data : List W32) (crc : W32) (s : State) : Host.Outcome State Fault Refusal :=
  s.act fun b =>
    if !linkCarries b ∨ !lagging b ∨ data.length ≠ 128 then b
    else
      let (ok, b) := frameCheck 3 stride 0 (dataOk data crc) b
      if ok then { b with pair := { b.pair with meas := (b.pair.meas.filter fun x => x.1 != stride) ++ [(stride, data)] } } else b

/-- What a CMD does as it arrives: the lead's servo state, an enumeration (ENUM from the head end, collecting at the tail
end, R88, R395) or feeds it asks for, the start of a join;
anything else waits for the work of its stride. -/
def takeCmd (stride op : Nat) (l : List W32) (b : Block) : Block :=
  if op = cmdTimeState then { b with time.leadState := (word l 0).toNat }
  else if op = cmdEnumerate then
    let p := (word l 0).toNat % 32
    let b := if bit (word l 1) 0 then onChain p (fun (c : Chain) => { c with approved := true }) b else b
    if chainEnd b p = 0 then b else startEnum p ((chain b p).st == .ready) b
  else if op = cmdFeed then { b with pair := { b.pair with feedAsk := (word l 0).toNat } }
  else if op = 0x0703 then
    if b.pair.role = 4 then { b with pair := { b.pair with
      joining := some (join64 (word l 0) (word l 1)), installed := [], derated := [], syncWait := [], workAt := none, ledAt := none } } else b
  else { b with pair := { b.pair with cmds := b.pair.cmds ++ [(stride, op, l)] } }

def execCmdFrame (stride opcode : Nat) (data : List W32) (crc : W32) (s : State) : Host.Outcome State Fault Refusal :=
  s.act fun b =>
    if !linkCarries b ∨ (b.pair.role ≠ 3 ∧ b.pair.role ≠ 4 ∧ (opcode ≠ cmdEnumerate ∨ b.pair.role = 0)) then b
    else
      let (ok, b) := frameCheck 6 stride opcode (dataOk (w32 opcode :: data) crc) b
      if ok then takeCmd stride opcode data b else b

/-- R399: the sender sends a frame once more, in its own class. -/
def execNakFrame (kind : Fin 8) (stride key : Nat) (s : State) : Host.Outcome State Fault Refusal :=
  s.act fun b =>
    let f := (kind.val, stride, key)
    if !linkCarries b ∨ b.pair.resent.contains f then b
    else
      (b.pair.sent.filter fun x => x.1 == kind.val && x.2.1 == stride && x.2.2.1 == key).foldl
        (fun (b : Block) x => linkSend kind.val stride key x.2.2.2 b) { b with pair := { b.pair with resent := f :: b.pair.resent } }

/-! ### The partner's work (R402, R403, R405) -/

def inputOf (b : Block) (X p : Nat) : Option (List W32) :=
  (b.pair.inputs.find? fun x => x.1 == X && x.2.1 == p).map fun x => x.2.2
def measOfStride (b : Block) (X : Nat) : Option (List W32) := (b.pair.meas.find? fun x => x.1 == X).map Prod.snd
def cmdsOf (b : Block) (X : Nat) : List (Nat × Nat × List W32) := b.pair.cmds.filter fun c => c.1 == X

/-- Chains in use, whose INPUT belongs to the input of a stride. -/
def usedChains (b : Block) : List Nat := (List.range 32).filter fun p => chainEnd b p != 0

/-- The input of stride X is complete (R399). -/
def inputComplete (b : Block) (X : Nat) : Bool :=
  !b.pair.lost.contains X && (measOfStride b X).isSome && (usedChains b).all fun p => (inputOf b X p).isSome

/-- One cell's share of the INPUT of its chain. -/
def takeInputCell (data : List W32) (n : Nat) (b : Block) : Block :=
  let c := n % 64
  let st := bits (word data (768 + c / 16)) (2 * (c % 16) + 1) (2 * (c % 16))
  let slots := ((data.drop 772).take 6).foldr (fun w m => w.toNat + 2 ^ 32 * m) 0
  let slot := slotOf (rowField 3 slots c)
  let b := if (hub b n).slot = slot then b else slotTo n slot b
  if (hub b n).info.isNone then b
  else if st = 2 then
    onHub n (fun (h : HubCell) => { h with stale := true, folded := false, silence := h.silence + 1 }) b
  else
    let r := (data.drop (12 * c)).take 12
    let b := onHub n (fun (h : HubCell) => { h with
      prev := h.record, prevAt := h.recAt, record := r, recAt := some (work b), stale := false
      silence := 0, silent := false, folded := st == 0, faultKind := bits (word r 8) 10 8 }) b
    ringPut n r (imageRecord n r (setLaneWords n 0 r b))

/-- The INPUT of chain p. -/
def takeInput (p : Nat) (data : List W32) (b : Block) : Block :=
  (List.range 64).foldl (fun (b : Block) c => takeInputCell data (64 * p + c) b) b

/-- One side from MEAS: what the lead's mode manager publishes; the unit's own sources stay (R402). -/
def takeSide (w : List W32) (s : Nat) (b : Block) : Block :=
  let k := fun i => word w (0x40 + 16 * s + i)
  let st := k 8
  let free := bit st 25
  onSide s (fun (x : Side) => { x.newCtrl (work b) (k 0) with
    step := k 1, free := free, fHold := if free then k 4 else x.fHold, acc := (k 0).toNat * 2 ^ 32
    jumpClass := bits st 28 27, cl := bit st 26, syncOk := bit st 24
    correcting := !free && bits st 28 27 == 1, corr := if !free && bits st 28 27 == 1 then s32 (k 3) else 0, corrAt := work b
    clLeft := bits (k 9) 31 16, clAt := work b, syncRun := bits (k 9) 15 0, class3At := none }) b

/-- Mode, phase, stop and P_MODE from MEAS. -/
def takeMode (w : List W32) (b : Block) : Block :=
  let st := word w 0x60
  let old := b.md.mode
  let new := Mode.ofCode (bits st 31 29)
  let X := work b
  let b := { b with md := { b.md with
    mode := new, prev := Mode.ofCode (bits st 28 26), phase := bits st 25 24, stop := bit st 23
    jumpAt := if bit st 18 then some (b.md.jumpAt.getD X) else none
    stopLeft := bits (word w 0x61) 31 16, pMode := word w 0x62
    coastStrides := if new = .coast then (word w 0x63).toNat else 0
    enteredAt := if new = old then b.md.enteredAt else X
    phaseAt := if new = old ∧ b.md.phase = bits st 25 24 then b.md.phaseAt else X
    imm := none, orderly := none
    returnAt := if new = .coast ∧ [0, 1].all (fun s => !(side b s).free) then some (X + 1) else none } }
  if new = old then b else modeEffects old new b

/-- The MEAS of the stride in place of the unit's own Sense die and mode manager. -/
def takeMeas (w : List W32) (b : Block) : Block :=
  takeMode w (takeSide w 1 (takeSide w 0 (xwrites 0x0B00 w b)))

/-- A CHAIN_CONFIG of the lead names its own end of the chain: this unit holds the other. -/
def otherEnd (st : Nat) (l : List W32) : List W32 :=
  if st ≠ 0x01 then l
  else
    let e := bits (word l 0) 25 24
    [setBits (word l 0) 25 24 (if e = 1 then 2 else if e = 2 then 1 else e)]

/-- A mirrored command of the stride (R403, R570). -/
def applyMirrored (op : Nat) (l : List W32) (b : Block) : Block :=
  match op with
  | 0x0101 =>
    let st := bits (word l 0) 31 24
    applyCfg st (bits (word l 0) 23 8) (otherEnd st (l.drop 1)) b
  | 0x0103 => (List.range (l.length / 2)).foldl (fun (b : Block) i => xwrite (word l (2 * i)).toNat (word l (2 * i + 1)) b) b
  | 0x0105 =>
    { b with led.loops := Tbl.upd {} b.led.loops (word l 0).toNat fun (c : Coolant) =>
      { c with temp := word l 1, scale := word l 2, next := none, lastAt := some (now b), stale := false } }
  | 0x0801 =>
    let slot := (word l 0).toNat % 32
    match slotSection b slot with
    | .ok img => if measurement img.words = (l.drop 10).take 16 then loadSlot img (engineList ((l.drop 1).take 9)) b else leaveStep 6 b
    | .error _ => leaveStep 6 b
  | 0x0802 =>
    let es := engineList (l.take 9)
    if (swapRefused b es).isSome then b
    else raise .carveSwapped (w64 (work b) ++ engineWords es) (swapEngines es (word l 9 == 1) b)
  | 0x0804 =>
    let img := stored b 6 0 (bits (word l 0) 23 23)
    if img.valid ∧ calibDigest img = (l.drop 1).take 16 then
      applyRecords img (fun _ => true) (setActive 6 (bits (word l 0) 23 23) false b) else leaveStep 6 b
  | 0x0B05 =>
    setLives ((word l 0).toNat % 2048) ((List.range 4).map fun p => join64 (word l (1 + 2 * p)) (word l (2 + 2 * p))) b
  | 0xF002 => { b with sup.capFactor := word l 0 }
  | _ => b

/-- The input of X is complete: records, measurements and commands are taken, INPUT_DIGEST is computed and held against
the lead's. A joining relay takes the records alone. -/
def partnerWork (b : Block) : Block :=
  let X := work b
  if !lagging b ∨ b.pair.roleDue.isSome ∨ b.pair.workAt = some X ∨ (isPartner b = true ∧ X < b.pair.joinedAt)
      ∨ inputComplete b X = false then b
  else
    let m := (measOfStride b X).getD []
    let ins := (usedChains b).map fun p => (p, (inputOf b X p).getD [])
    let cmds := cmdsOf b X
    let d := digestIn m (ins.map Prod.snd) cmds
    let bad := isPartner b && leadStep b X && join64 (word b.pair.peerStep 4) (word b.pair.peerStep 5) != d
      && b.pair.struckAt != some X
    if bad then leaveStep 1 b
    else
      let b := cmds.foldl (fun (b : Block) c => applyMirrored c.2.1 c.2.2 b) b
      let b := if isPartner b then takeMeas m b else b
      let b := ins.foldl (fun (b : Block) x => takeInput x.1 x.2 b) b
      { b with pair := { b.pair with inDigest := d, workAt := some X } }

def execPartnerWork (s : State) : Host.Outcome State Fault Refusal := s.act partnerWork

/-- R405: the input is incomplete at X+1 +4.8 µs; a strike defers it (R407). -/
def inputDeadline (b : Block) : Block :=
  let X := work b
  if isPartner b ∧ b.pair.joinedAt ≤ X ∧ inputComplete b X = false ∧ b.pair.struckAt ≠ some X then leaveStep 0 b else b

def execPairInputDeadline (s : State) : Host.Outcome State Fault Refusal := s.act inputDeadline

/-- Table 11-5, at X+1 +8.6 µs; IN_STEP stays 0 while a rail dips (R509). -/
def digestCompare (b : Block) : Block :=
  let X := work b
  if !isPartner b ∨ b.pair.roleDue.isSome ∨ b.pair.workAt ≠ some X ∨ b.pair.cmpAt = some X then b
  else
    let d := digestOut b
    let b := { b with pair := { b.pair with outDigest := d, cmpAt := some X } }
    if !leadStep b X then b
    else if join64 (word b.pair.peerStep 6) (word b.pair.peerStep 7) = d then
      let m := Nat.min 4095 (b.pair.matchRun + 1)
      { b with pair := { b.pair with matchRun := m, inStep := !flashHeld b && (b.pair.inStep || decide (16 ≤ m)) } }
    else if bit (word b.pair.peerStep 2) 26 then { b with pair := { b.pair with matchRun := 0 } }
    else if b.pair.localFault then leaveStep 2 b
    else raise .pairDiverge (w64 X) (leaveStep 3 b)

def execDigestCompare (s : State) : Host.Outcome State Fault Refusal := s.act digestCompare

/-! ### Strikes and promotion (R407, R409) -/

/-- UP ports whose chains hold a cell of a configured limb. -/
def evidencePorts (b : Block) : List Nat :=
  (List.range 32).filter fun p => (port b p).st == .up && chainLimbs b p != []

/-- X+1 +4.0 µs; `heads`: ports on which a BIB header of stride X came from the lead. -/
def strike (heads : BitVec 32) (b : Block) : Block :=
  if !isPartner b ∨ !b.pair.inStep then b
  else
    let X := work b
    let ps := evidencePorts b
    let silent := ps.filter fun p => !heads.getLsbD p
    if leadStep b X ∨ ps = [] ∨ 2 * silent.length < ps.length then { b with pair := { b.pair with strikes := 0 } }
    else if b.pair.struckAt = some X then b
    else { b with pair := { b.pair with strikes := b.pair.strikes + 1, struckAt := some X } }

def execStrike (heads : BitVec 32) (s : State) : Host.Outcome State Fault Refusal := s.act (strike heads)

/-- Slalom and the ledger unit take a dropped stride as one of NOLIST (R250, R409). -/
def dropStride (X : Nat) (b : Block) : Block :=
  let cells := (b.cells.filter fun kv => kv.2.info.isSome).map Prod.fst
  let b := cells.foldl (fun (b : Block) n => onSlCell n (fun (c : SlCell) =>
    let last := c.hist.getD 0 {}
    c.push { at? := some X, start := last.stop, stop := last.stop, h := last.h, lam := last.lam }) b) b
  { b with led.cells := Tbl.mapAll {} b.led.cells fun _ (c : LedCell) => { c with h3 := c.h2, h2 := c.h1 } }

/-- Own records take the place of those of the INPUT (R409). -/
def ownRecords (b : Block) : Block :=
  { b with cells := Tbl.mapAll {} b.cells fun _ (h : HubCell) =>
      if h.ownAt.isSome then { h with prev := h.record, prevAt := h.recAt, record := h.ownRec, recAt := h.ownAt, ownRec := [], ownAt := none }
      else h }

/-- The lead relinquished in its STEP of the last stride. -/
def leadGaveUp (b : Block) : Bool := leadStep b (work b) && bit (word b.pair.peerStep 2) 27

/-- Promotion in this stride (R409). -/
def promotion (b : Block) : Block :=
  if !isPartner b ∨ !b.pair.inStep ∨ (b.pair.strikes < 2 ∧ leadGaveUp b = false) then b
  else
    let old := bib b
    let P := now b
    let last := b.pair.workAt.getD (m64 (P + 2 ^ 64 - 1))
    let b' := takeLead b
    if b'.pair.role ≠ 2 then b'
    else
      let dropped := P - 1 - last
      let b := (List.range (Nat.min dropped 4)).foldl (fun (b : Block) i => dropStride (last + 1 + i) b) (ownRecords b')
      let b := { b with pair := { b.pair with inputs := [], meas := [], cmds := [], roleDue := none, dualUntil := some (P + 1) } }
      raise .pairPromote ([w32 old, w32 (bib b)] ++ w64 last ++ [w32 dropped]) (timeRole b)

def execPromotion (s : State) : Host.Outcome State Fault Refusal := s.act promotion

/-! ### Relinquishing (R408) -/

/-- A cause of R408 acts in this stride. -/
def relinquishCause (b : Block) : Bool :=
  b.pair.localFault || b.pair.giveUp || b.eng.any (fun kv => kv.2.failed && kv.2.missStride == some (work b))
  || !(synth b 1).locked || !(synth b 2).locked || degrActs b false || b.pair.handover == some (now b + 1)

def relinquish (b : Block) : Block :=
  if covered b ∧ relinquishCause b = true then { b with pair := { b.pair with relinquish := true } } else b

def execRelinquish (s : State) : Host.Outcome State Fault Refusal := s.act relinquish

/-! ### Feeds (R413, R414) -/

/-- Chains to feed in this stride before the limits; `reached`: ports that the lead's downlink of the last stride reached
complete. Shedding step 6 leaves those the lead asks for (Table 15-8); a stride with a pair step feeds none (R458). -/
def feedWish (reached : BitVec 32) (b : Block) : List Nat :=
  let mask := cfgW b 0x81 0 1
  let auto := cfgBit b 0x81 0 0 21
  (usedChains b).filter fun p =>
    b.pair.feedAsk.testBit p || (!feedsShed b && (bit mask p || (auto && !reached.getLsbD p)))

/-- The chains a relay feeds within 12,000 blocks. -/
def feedFit (b : Block) : List Nat → Nat → List Nat
  | [], _ => []
  | p :: ps, room => if dlLoad b p ≤ room then p :: feedFit b ps (room - dlLoad b p) else []

def feedDecision (reached : BitVec 32) (b : Block) : Block :=
  if b.pair.role ≠ 3 ∧ b.pair.role ≠ 4 then { b with pair := { b.pair with feeding := 0 } }
  else
    let wish := if b.time.pairStepAt = some (now b) then [] else feedWish reached b
    let fed := if isPartner b then wish.take 2 else feedFit b wish 12000
    let b := { b with pair := { b.pair with feeding := bitmapOf fed } }
    let told : Bool := match b.pair.feedLimitAt with
      | some t => decide (now b < t + 1000)
      | none => false
    if fed.length = wish.length ∨ told = true then b
    else raise .pairFeedLimit [w32 (bitmapOf wish), w32 (bitmapOf fed)] { b with pair := { b.pair with feedLimitAt := some (now b) } }

def execFeedDecision (reached : BitVec 32) (s : State) : Host.Outcome State Fault Refusal := s.act (feedDecision reached)

/-- The lead's frames of a fed chain go out on its port with the lead's bib, after the unit's own STRIDE. A relay's lane
leaves idle for them and returns (R152, `Port.slot`). -/
def feedFrame (p off : Nat) (hd : BitVec 56) (words : List W32) (svc : List (BitVec 56 × W32)) (snap : Option (BitVec 56))
    (b : Block) : Block :=
  if !b.pair.feeding.testBit p ∨ (port b p).st ≠ .up ∨ linkRuns b p = false then b
  else
    let st := withCrc5 0xC3 (now b % 2 ^ 32 * 2 ^ 24 + off % 2 ^ 18 * 2 ^ 6)
    let b := onChain p (fun (c : Chain) => { c with
      sentStride := some st, sentBib := some hd, downlink := words, sentSvc := svc, sentSnap := snap }) b
    let b := sendFrame p 0x5A hd words (sendFrame p 0xC3 st [] b)
    let b := svc.foldl (fun (b : Block) x => sendFrame p 0x55 x.1 [x.2, 0] b) b
    let b := match snap with
      | some x => sendFrame p 0xA5 x [] b
      | none => b
    { b with pair.cmdAt := some (now b) }

def execFeedFrame (port : Fin 32) (offset : BitVec 18) (bib : BitVec 56) (words : List W32) (svc : List (BitVec 56 × W32))
    (snap : Option (BitVec 56)) (crc : W32) (s : State) : Host.Outcome State Fault Refusal :=
  s.act fun b =>
    if !linkCarries b ∨ (b.pair.role ≠ 3 ∧ b.pair.role ≠ 4) then b
    else
      let (ok, b) := frameCheck 4 (now b) port.val (dataOk words crc) b
      if ok then feedFrame port.val offset.toNat bib words svc snap b else b

/-! ### Start (R415) -/

/-- Both NONE with the link UP: one takes the lead; NONE beside a lead becomes RELAY. `peerPref`: PREF_LEAD of the other
unit. -/
def coldStart (peerPref : Bool) (b : Block) : Block :=
  if b.pair.role ≠ 1 ∨ b.pair.left = true ∨ !b.pair.up ∨ b.pair.peerAt.isNone ∨ b.pair.peerSolo = true
      ∨ b.pair.peerRank = rank b then b
  else if peerLeads b then timeRole { b with pair := { b.pair with role := 4 } }
  else if peerRole b ≠ 1 ∨ b.sup.stage < 2 then b
  else
    let pref := cfgBit b 0x81 0 0 22
    if (pref && !peerPref) || (pref == peerPref && decide (b.pair.peerRank < rank b)) then timeRole (takeLead b) else b

def execPairColdStart (peerPref : Bool) (s : State) : Host.Outcome State Fault Refusal := s.act (coldStart peerPref)

/-! ### Joins (R417 to R419) -/

/-- A ledger slot with its entries of R250. -/
def installSlot (n : Nat) (w : List W32) (b : Block) : Block :=
  let b := lsets n 0 ((List.range 64).map (word w)) b
  let b := onLedCell n (fun (c : LedCell) => { c with has := true, h1 := word w 64, h2 := word w 65, h3 := word w 66, lam := s32 (word w 67) }) b
  { b with pair := { b.pair with installed := Tbl.set false b.pair.installed n true } }

/-- Slots whose stride's ledger step is done. -/
def installDue (b : Block) : Block :=
  let ready : Nat × Nat × List W32 → Bool := fun x => match b.pair.ledAt with
    | some t => decide (x.1 ≤ t)
    | none => false
  (b.pair.syncWait.filter ready).foldl (fun (b : Block) x => installSlot x.2.1 x.2.2 b)
    { b with pair := { b.pair with syncWait := b.pair.syncWait.filter fun x => !ready x } }

def takeSync (stride : Nat) (d : SyncData) (b : Block) : Block :=
  match d with
  | .slot c w => installDue { b with pair := { b.pair with syncWait := b.pair.syncWait ++ [(stride, c.val, w)] } }
  | .limb l k since below hot =>
    let b := onLedLimb l.val (fun (x : LedLimb) => { x with k := k, since := since, below := below, hot := hot }) b
    { b with pair := { b.pair with derated := Tbl.set false b.pair.derated l.val true } }

def execSyncFrame (stride : Nat) (d : SyncData) (ok : Bool) (s : State) : Host.Outcome State Fault Refusal :=
  s.act fun b =>
    if !linkCarries b ∨ b.pair.role ≠ 4 ∨ b.pair.joining.isNone then b
    else
      let key := match d with
        | .slot c _ => c.val
        | .limb l _ _ _ _ => 2048 + l.val
      let (good, b) := frameCheck 7 stride key ok b
      if good then takeSync stride d b else b

/-- Both units start alike at B: engines as R236 for KEEP_STATE = 0, limb residuals 0, list history NOLIST. -/
def joinReset (b : Block) : Block :=
  let b := (List.range 272).foldl (fun (b : Block) e => onEngine e Engine.reinit b) b
  { b with slal := { b.slal with
    limb := Tbl.mapAll {} b.slal.limb fun _ (x : SlLimb) => { x with r := 0 }
    cells := Tbl.mapAll {} b.slal.cells fun _ (c : SlCell) => { c with hist := [] } } }

/-- The join stands at its boundary: on the joining unit every slot and derating state is there, on the lead all went out to
a relay. -/
def joinHolds (b : Block) : Bool :=
  if isLead b then b.pair.up && peerRole b == 4 && decide (2048 ≤ b.pair.syncNext)
  else b.pair.role == 4 && b.pair.up && (List.range 2048).all (fun n => Tbl.get false b.pair.installed n)
    && (limbs b).all fun l => Tbl.get false b.pair.derated l

/-- Boundary B of a join, on either unit. -/
def joinAt (b : Block) : Block :=
  match b.pair.joining with
  | none => b
  | some B =>
    if now b < B then b
    else
      let ok := joinHolds b
      let (due, b) := dueActions (fun a => match a.kind with | .join => true | _ => false) b
      let b := due.foldl (fun (b : Block) a => actionEvent a (if ok then .ok else .notReady) b) b
      let b := { b with pair := { b.pair with joining := none, syncWait := [] } }
      if !ok then raise .pairJoinFail [] b
      else
        let b := joinReset b
        if isLead b then b
        else timeRole { b with pair := { b.pair with role := 3, joinedAt := B, workAt := none, inStep := false, matchRun := 0, strikes := 0 } }

def execJoinAtBoundary (s : State) : Host.Outcome State Fault Refusal := s.act joinAt

/-- PAIR_JOIN (R417); `peerAlign`, `peerMeas`: ALIGN_OK and the three measurements of the other unit. -/
def pairJoin (h : Hdr) (B : Nat) (peerAlign : Bool) (peerMeas : List W32) (b : Block) : CmdOut :=
  if !isLead b then .fail .pairRole noDetail
  else if b.pair.joining.isSome then .fail .busy noDetail
  else if atRest b = false ∨ b.pair.up = false ∨ peerRole b ≠ 4 ∨ b.pair.lanes ≠ 4 ∨ peerAlign = false
      ∨ peerMeas ≠ joinMeas b ∨ (checkBoundary b B).isSome then .fail .notReady noDetail
  else
    let b := { b with pair := { b.pair with joining := some B, syncNext := 0 } }
    .ok (mirror (now b) cmdCapFactor [b.sup.capFactor]
      (mirror (now b) 0x0703 (w64 B) (addAction { boundary := B, kind := .join, op := 0x0703, h := h } b))) []

def execPairJoin (h : Hdr) (boundary : Nat) (peerAlign : Bool) (peerMeas : List W32) (s : State) :
    Host.Outcome State Fault Refusal :=
  s.act (runCmd h 0x0703 [] (pairJoin h boundary peerAlign peerMeas))

/-! ### The other commands (R392, R394, R416, R420, R421) -/

/-- PAIR_FEED: FEED_AUTO and FEED_MASK from the next boundary. -/
def execPairFeed (h : Hdr) (auto : Bool) (mask : W32) (s : State) : Host.Outcome State Fault Refusal :=
  s.act (runCmd h 0x0701 [] fun b =>
    if b.pair.role = 0 then .fail .pairRole noDetail
    else .ok { b with pair := { b.pair with feedDue := some (mask.toNat, auto) } } [])

/-- PAIR_TAKE_LEAD: the role changes at the next boundary. -/
def pairTakeLead (b : Block) : CmdOut :=
  let alive : Bool := match b.pair.aliveAt with
    | some t => decide (now b < t + 1000)
    | none => false
  if b.pair.role ≠ 1 then .fail .pairRole noDetail
  else if peerLeads b ∨ alive = true then .fail .pairConflict noDetail
  else if 65535 ≤ greatestEpoch b then .part (raise .pairEpoch [w32 (greatestEpoch b)] b) .notReady []
  else .ok { b with pair := { b.pair with roleDue := some 2 } } []

def execPairTakeLead (h : Hdr) (s : State) : Host.Outcome State Fault Refusal := s.act (runCmd h 0x0702 [] pairTakeLead)

/-- PAIR_LEAVE: NONE from the next boundary. -/
def pairLeave (b : Block) : CmdOut :=
  if b.pair.role = 0 ∨ b.pair.role = 1 then .fail .pairRole noDetail
  else if isLead b ∧ atRest b = false then .fail .wrongMode noDetail
  else .ok { b with pair := { b.pair with roleDue := some 1 } } []

def execPairLeave (h : Hdr) (s : State) : Host.Outcome State Fault Refusal := s.act (runCmd h 0x0704 [] pairLeave)

/-- PAIR_HANDOVER: only on a covered lead. -/
def pairHandover (h : Hdr) (B : Nat) (b : Block) : CmdOut :=
  if b.pair.role ≠ 5 then .fail .pairRole noDetail
  else match checkBoundary b B with
    | some st => .fail st 0
    | none =>
      let b := cancelActions (fun a => match a.kind with | .handover => true | _ => false) .cancelled b
      .ok (addAction { boundary := B, kind := .handover, op := 0x0705, h := h }
        { b with pair := { b.pair with handover := some B } }) []

def execPairHandover (h : Hdr) (boundary : Nat) (s : State) : Host.Outcome State Fault Refusal :=
  s.act (runCmd h 0x0705 [] (pairHandover h boundary))

/-- No command frame for 68 strides. -/
def quiet (b : Block) (at? : Option Nat) : Bool :=
  match at? with
  | some t => decide (t + 68 ≤ now b)
  | none => true

/-- PAIR_EPOCH_RESET (R394). -/
def epochReset (b : Block) : CmdOut :=
  if b.pair.role = 0 then .fail .pairRole noDetail
  else if b.pair.role ≠ 1 ∨ b.pair.up = false ∨ b.pair.peerAt.isNone ∨ peerRole b ≠ 1
      ∨ quiet b b.pair.cmdAt = false ∨ quiet b b.pair.peerCmdAt = false then .fail .notReady noDetail
  else .ok { b with pair := { b.pair with stored := 0, epoch := 0, storeDue := false } } []

def execPairEpochReset (h : Hdr) (s : State) : Host.Outcome State Fault Refusal := s.act (runCmd h 0x0706 [] epochReset)

/-! ### The boundary (R390 to R392, R404, R408, R412, R420) -/

/-- The role that falls due. -/
def roleBoundary (b : Block) : Block :=
  let due := b.pair.roleDue
  let b := { b with pair := { b.pair with roleDue := none } }
  match due with
  | some 1 => { b with pair := { b.pair with role := 1, left := true, inStep := false, joining := none } }
  | some 2 => if b.pair.role = 1 then takeLead b else b
  | some 4 => if b.pair.role = 3 then { b with pair := { b.pair with role := 4 } } else b
  | _ => b

/-- A lead that has relinquished becomes RELAY; a hand-over reports at its boundary. -/
def relinquishBoundary (b : Block) : Block :=
  let gave := b.pair.relinquish && isLead b
  let (due, b) := dueActions (fun a => match a.kind with | .handover => true | _ => false) b
  let b := due.foldl (fun (b : Block) a => actionEvent a (if gave then .ok else .notReady) b) b
  let b := if due = [] then b else { b with pair := { b.pair with handover := none } }
  if gave then { b with pair := { b.pair with role := 4, relinquish := false, inStep := false, joining := none } }
  else { b with pair := { b.pair with relinquish := false } }

/-- LEAD or LEAD_COVERED (R391, R412). -/
def coverBoundary (b : Block) : Block :=
  if !isLead b then b
  else
    let fresh : Bool := match b.pair.peerAt with
      | some t => decide (now b ≤ t + 2)
      | none => false
    let cov := b.pair.up && fresh && peerRole b == 3 && bit (word b.pair.peerStep 2) 28
    { b with pair := { b.pair with role := if cov then 5 else 2 } }

/-- A partner's TRIPPED of the last stride stops the lead (R404). -/
def peerTrip (b : Block) : Block :=
  if isLead b ∧ b.pair.peerAt = some (m64 (now b + 2 ^ 64 - 1)) ∧ peerRole b = 3 ∧ bit (word b.pair.peerStep 2) 25 = true then
    immediateStop 8 b
  else b

/-- NONE and RELAY hold SAFE (R285). -/
def restRole (b : Block) : Block :=
  if (b.pair.role = 1 ∨ b.pair.role = 4) ∧ b.md.mode ≠ .safe then setMode .safe 12 (cancelMode false b) else b

/-- Chains whose tail segment the lead asks the other unit to feed (R118). -/
def feedAsks (b : Block) : Block :=
  let m := bitmapOf ((usedChains b).filter fun p => (chain b p).broken && (chain b p).everReady)
  if isLead b ∧ m ≠ b.pair.asked then mirror (now b) cmdFeed [w32 m] { b with pair := { b.pair with asked := m } } else b

/-- What a boundary does to the pair manager. -/
def pairBoundary (b : Block) : Block :=
  let b := match b.pair.feedDue with
    | some (m, a) => setCfg 0x81 0 [setBits (cfgW b 0x81 0 0) 21 21 a.toNat, w32 m] { b with pair := { b.pair with feedDue := none } }
    | none => b
  let b := peerTrip (coverBoundary (relinquishBoundary (roleBoundary b)))
  let S := now b
  let b := { b with pair := { b.pair with
    localFault := false, giveUp := false, inputSent := [], measSent := []
    timeSent := if isLead b && b.pair.up then some S else b.pair.timeSent
    cmdSent := b.pair.cmdSent.filter fun c => decide (S ≤ c.1)
    inputs := b.pair.inputs.filter fun x => decide (S ≤ x.1 + 1)
    meas := b.pair.meas.filter fun x => decide (S ≤ x.1 + 1)
    cmds := b.pair.cmds.filter fun x => decide (S ≤ x.1 + 1)
    failed := b.pair.failed.filter fun x => decide (S ≤ x.2.1 + 2)
    naks := [], resent := b.pair.resent.filter fun x => decide (S ≤ x.2.1 + 2)
    sent := b.pair.sent.filter fun x => decide (S ≤ x.2.1 + 2)
    lost := b.pair.lost.filter fun x => decide (S ≤ x + 2) } }
  let b := timeRole (feedAsks (restRole b))
  if isLead b ∧ b.pair.up = true then linkSend 0 S 0 [] b else b

/-- PAIR_STATUS (Table 11-8). -/
def pairStatus (b : Block) : W32 :=
  pack [fld b.pair.role 31 29, flg b.pair.inStep 28, flg b.pair.alignOk 27, fld b.pair.lanes 26 24, fld (Nat.min b.pair.strikes 2) 23 22,
    flg b.pair.joining.isSome 21, flg (b.pair.feeding != 0) 20, fld b.pair.peerRank 19 12, fld b.pair.matchRun 11 0]

end Sys2Proof.Machine
end

