-- ==== Sys2Proof/Machine/Supply.lean ====
section
/-! DEFINITION. Dips of the rails (R508 to R513), the thermal monitor, throttling and shutdown (R517 to R527), the ledger
step in its place in the pair (R251, R418, R419) and the life checkpoints of the Coach (R279). -/

namespace Sys2Proof.Machine

/-! ### Rails (Table 15-3) -/

/-- Warning and reset thresholds and hysteresis of a rail in mV, in the order of Table 15-3; VSO resets nothing. -/
def railSpec (r : Nat) : Nat × Nat × Nat :=
  match r with
  | 0 => (3100, 2900, 30)
  | 1 => (760, 720, 10)
  | 2 => (710, 690, 10)
  | 3 => (1700, 1620, 20)
  | 4 => (855, 830, 10)
  | 5 => (1140, 1100, 15)
  | 6 => (1000, 960, 10)
  | 7 => (855, 830, 10)
  | 8 => (475, 455, 5)
  | 9 => (760, 720, 10)
  | 10 => (4800, 4600, 40)
  | _ => (20400, 0, 400)

/-- A sample below warning; above warning plus hysteresis; below the reset threshold (R508, R510). The monitor's own error of
1 % counts as the rail's voltage (log 16). -/
def railLow (r mv : Nat) : Bool := decide (mv < (railSpec r).1)
def railBack (r mv : Nat) : Bool := decide ((railSpec r).1 + (railSpec r).2.2 < mv)
def railFails (r mv : Nat) : Bool := decide (mv < (railSpec r).2.1)

/-! ### Dips -/

def rail (b : Block) (r : Nat) : Rail := Tbl.get {} b.sup.rails r
def onRail (r : Nat) (f : Rail → Rail) (b : Block) : Block := { b with sup.rails := Tbl.upd {} b.sup.rails r f }

/-- Time in µs of the counter, `us` into the stride. -/
def micros (b : Block) (us : Nat) : Nat := now b * 10 + us

/-- The dip record of Table 15-5. -/
def dipRecord (r begin outcome dur vMin : Nat) : List W32 :=
  w64 (begin / 10) ++ [pack [fld r 31 28, fld outcome 27 26, fld (Nat.min dur 67108863) 25 0], pack [fld vMin 31 16]]

/-- A record enters the last 64, with EV_SUPPLY_DIP; that of a dip that goes on takes the place of its earlier one. -/
def writeDip (w : List W32) (b : Block) : Block :=
  let same : List W32 → Bool := fun d => d.take 2 == w.take 2 && bits (word d 2) 31 28 == bits (word w 2) 31 28
  let l := b.sup.dips.filter (fun d => !same d) ++ [w]
  raise .supplyDip w { b with sup.dips := l.drop (l.length - 64) }

/-- R508: below warning; within 10 ms of the end of the last dip the same dip goes on. -/
def dipBegin (r us mv : Nat) (b : Block) : Block :=
  let q := rail b r
  let t := micros b us
  let goesOn : Bool := match q.lastEnd with
    | some e => decide (t ≤ e + 10000)
    | none => false
  if q.dipAt.isSome ∨ railLow r mv = false then b
  else
    let b := onRail r (fun (x : Rail) => if goesOn then
        { x with dipAt := some x.lastBegin, vMin := Nat.min x.lastMin mv, long := x.lastLong, crossed := false }
      else { x with dipAt := some t, vMin := mv, long := false, crossed := false }) b
    let b := { b with pair.inStep := b.pair.inStep && !isPartner b }
    if goesOn then b else raise .supplyWarn [w32 r] b

def execDipBegin (rail : Fin 12) (us : Fin 10) (mv : BitVec 16) (s : State) : Host.Outcome State Fault Refusal :=
  s.act (dipBegin rail.val us.val mv.toNat)

/-- The flash work that dips deferred (R510, R512). -/
def deferredWork (b : Block) : Block :=
  if flashHeld b then b
  else match b.led.heldCkpt with
    | some o => checkpoint false o.2 o.1 b
    | none => b

/-- R510: above warning plus hysteresis; the record waits for the Summit die where that is in reset. -/
def dipEnd (r us mv : Nat) (b : Block) : Block :=
  let q := rail b r
  match q.dipAt with
  | none => b
  | some t0 =>
    if railBack r mv = false then b
    else
    let t := micros b us
    let v := Nat.min q.vMin mv
    let w := dipRecord r t0 (if q.crossed then 2 else if q.long then 1 else 0) (t - t0) v
    let b := onRail r (fun (x : Rail) => { x with
      dipAt := none, crossed := false, long := false, lastEnd := some t, lastBegin := t0, lastMin := v, lastLong := x.long }) b
    let b := if b.prot.summitReset then { b with sup.dipsDue := b.sup.dipsDue ++ [w] } else writeDip w b
    deferredWork b

def execDipEnd (rail : Fin 12) (us : Fin 10) (mv : BitVec 16) (s : State) : Host.Outcome State Fault Refusal :=
  s.act (dipEnd rail.val us.val mv.toNat)

/-- Stops of supply and heat by the role (R511, R525): a partner leaves step, a covered lead relinquishes. -/
def byRole (cause : Nat) (stop : Block → Block) (b : Block) : Block :=
  if isPartner b then leaveStep cause b
  else if covered b then { b with pair.giveUp := true }
  else stop b

/-- R510, R511: a dip of 2 ms. -/
def dipLong (r us : Nat) (b : Block) : Block :=
  match (rail b r).dipAt with
  | none => b
  | some t0 =>
    if (rail b r).long ∨ (rail b r).crossed ∨ micros b us < t0 + 2000 then b
    else byRole 4 (orderlyCause 6) (onRail r (fun (x : Rail) => { x with long := true }) b)

def execDip2ms (rail : Fin 12) (us : Fin 10) (s : State) : Host.Outcome State Fault Refusal :=
  s.act (dipLong rail.val us.val)

/-- SUPPLY_LOG_READ: the dip records, oldest first. -/
def execSupplyLogRead (h : Hdr) (s : State) : Host.Outcome State Fault Refusal :=
  s.act (runCmd h 0x0B06 [] fun b => .ok b b.sup.dips.flatten)

/-! ### CAP_FACTOR and shedding (R520 to R523) -/

/-- CAP_FACTOR as the thermal cap now calls for it. A lead with the other unit at work passes it on and applies it with it
at the next boundary; a partner that needs less than its lead leaves step. -/
def capUpdate (b : Block) : Block :=
  let f := capFactor b
  if lagging b then (if flt f b.sup.capFactor then leaveStep 5 b else b)
  else if isLead b ∧ (b.pair.role = 5 ∨ peerRole b = 3 ∨ b.pair.joining.isSome) then
    if b.sup.capDue.getD b.sup.capFactor = f then b
    else mirror (now b) cmdCapFactor [f] { b with sup.capDue := some f }
  else { b with sup.capFactor := f, sup.capDue := none }

/-- A boundary: a lead's new CAP_FACTOR; what a changed cost asks of a cap below the greatest. -/
def capBoundary (b : Block) : Block :=
  let b := match b.sup.capDue with
    | some f => { b with sup.capFactor := f, sup.capDue := none }
    | none => b
  if effectiveCap b = 78000 then b else capUpdate (shed b)

/-- The throttle level changes: shedding or restoring, CAP_FACTOR, EV_THROTTLE. -/
def setThrottle (n : Nat) (b : Block) : Block :=
  if b.sup.n = n then b
  else
    let up := decide (b.sup.n < n)
    let b := { b with sup.n := n }
    let b := capUpdate (if up then shed b else restore b)
    raise .throttle [w32 n, w32 (effectiveCap b), w32 (shedStep b.sup.shed)] b

/-- The greatest level of n: that at which CAP_FACTOR reaches 0.3 (R522). -/
def nGreatest (b : Block) : Nat :=
  ((List.range 16).find? fun n => capTenths { b with sup.n := n } == 3).getD 16

/-- An evaluation of n is due: the first at the first T of 115 °C or more, then one each 1 s, 10 ms early at most (R520). -/
def throttleDue (b : Block) : Bool :=
  match b.sup.evalAt with
  | none => decide (7360 ≤ b.sup.temp)
  | some t => decide (t + 99000 ≤ now b)

/-- The level after an evaluation; from a shutdown until T < 120 °C it is held (R526). -/
def throttleStep (b : Block) : Block :=
  if b.sup.shutdown then b
  else if 7360 ≤ b.sup.temp then setThrottle (if capTenths b = 3 then b.sup.n else b.sup.n + 1) b
  else if b.sup.temp < 7040 then
    let k := b.sup.n - 1
    if k = b.sup.n then restore b else setThrottle k b
  else b

/-- THROTTLE_EVAL. -/
def throttleEval (b : Block) : Block :=
  if throttleDue b then throttleStep { b with sup.evalAt := some (now b) } else b

def execThrottleEval (s : State) : Host.Outcome State Fault Refusal := s.act throttleEval

/-! ### Readings (R517, R519) -/

/-- The slope of the last readings by least squares, as a fraction of 1/64 °C per reading (1 ms); newest first. -/
def slopeOf (l : List Int) : Int × Nat :=
  let m : Int := l.length
  let ix := (List.range l.length).map fun (i : Nat) => -(i : Int)
  let sum := fun (x : List Int) => x.foldl (· + ·) 0
  let st := sum ix
  (m * sum ((ix.zip l).map fun p => p.1 * p.2) - st * sum l, (m * sum (ix.map fun t => t * t) - st * st).toNat)

/-- t_pred below 20 ms; its value in s, infinite while the slope is not positive (R524). -/
def soon (temp num : Int) (den : Nat) : Bool := decide (0 < num ∧ (8320 - temp) * den < 20 * num)
def tPred (temp num : Int) (den : Nat) : W32 :=
  if num ≤ 0 then 0x7F800000 else ofRat ((8320 - temp) * den) (num * 1000).toNat

/-- T reaches 125 °C (R524 to R526). -/
def shutdown (b : Block) : Block :=
  let (num, den) := slopeOf (b.sup.readings.take 10)
  let T := b.sup.temp
  let b := shedSet shedLast { b with sup := { b.sup with shutdown := true, afterShut := true } }
  let b := setThrottle (Nat.max b.sup.n (nGreatest b)) b
  let b := raise .thermShutdown [ofRat T 64, if den = 0 then 0 else ofRat (num * 1000) (64 * den), tPred T num den] b
  byRole 5 (fun (b : Block) =>
    if soon T num den then immediateStop 7 b
    else if b.md.stop || b.md.orderly.isSome then { b with sup.stopBy := some (now b + 2000) }
    else orderlyCause 7 b) b

/-- The levels of Table 15-7, by T in 1/64 °C. -/
def levels (b : Block) : Block :=
  let T := b.sup.temp
  let b := if !b.sup.warn && decide (6720 ≤ T) then raise .thermWarn [1, ofRat T 64] { b with sup.warn := true }
    else if b.sup.warn && decide (T < 6400) then raise .thermWarn [0, ofRat T 64] { b with sup.warn := false }
    else b
  let b := if decide (7360 ≤ T) then { b with sup.throttle := true }
    else if decide (T < 7040) then { b with sup.throttle := false, sup.afterShut := false } else b
  let b := if !b.sup.shutdown && decide (8000 ≤ T) then shutdown b
    else if decide (T < 7680) then { b with sup := { b.sup with shutdown := false, hard := false }, prot.therm66 := false }
    else b
  if decide (8320 ≤ T) then { b with sup.hard := true, prot.therm66 := true } else b

/-- T of the last four readings. -/
def meanTemp (l : List Int) : Int := (l.take 4).foldl (· + ·) 0 / ((l.take 4).length : Int)

/-- A reading falls due every 100 strides (R517). -/
def readingDue (b : Block) : Bool :=
  match b.sup.thermAt with
  | some t => decide (t + 100 ≤ now b)
  | none => true

/-- A reading of the diode in 1/64 °C (R517): one outside −55 °C to 150 °C does not enter T, and none does while the diode is
faulty. -/
def thermalReading (v : Int) (b : Block) : Block :=
  if b.prot.summitReset then b
  else if v < -3520 ∨ 9600 < v then
    let run := Nat.min 3 (b.sup.badRun + 1)
    let b := { b with sup := { b.sup with badRun := run, okRun := 0 } }
    if run = 3 ∧ b.sup.diodeFault = false then
      let b := raise .thermDiode [ofRat b.sup.temp 64] { b with sup.diodeFault := true }
      if isPartner b then b else orderlyCause 11 b
    else b
  else
    let ok := Nat.min 100 (b.sup.okRun + 1)
    let b := { b with sup := { b.sup with badRun := 0, okRun := ok } }
    if b.sup.diodeFault && decide (ok < 100) then b
    else
      let l := (v :: (if b.sup.diodeFault then [] else b.sup.readings)).take 10
      levels { b with sup := { b.sup with diodeFault := false, readings := l, temp := meanTemp l } }

def execThermalReading (code : BitVec 16) (s : State) : Host.Outcome State Fault Refusal :=
  s.act fun b => if readingDue b then thermalReading code.toInt { b with sup.thermAt := some (now b) } else b

/-! ### The ledger step and checkpoints -/

/-- Whether the ledger unit works in this stride: at the roles that compute and at a joining relay (R419), there once the
input of the stride is in. -/
def ledgerWorks (b : Block) : Bool :=
  if !sysRuns b then false
  else if lagging b then b.pair.workAt == some (work b) else computes b

/-- What a lead sends of a join in a stride, by cell from `syncNext` on, ledger slots with their entries of R250, and first
the derating state of each limb (R419). -/
def syncSend (b : Block) : Block :=
  let X := work b
  let b := if b.pair.syncNext = 0 then (limbs b).foldl (fun (b : Block) l =>
      let x := Tbl.get {} b.led.limb l
      linkSend 7 X (2048 + l) [w32 x.k, w32 x.since, w32 x.below, x.hot] b) b else b
  let b := ((List.range 35).filter fun i => decide (b.pair.syncNext + i < 2048)).foldl (fun (b : Block) i =>
      let n := b.pair.syncNext + i
      let c := ledCell b n
      linkSend 7 X n ((List.range 64).map (lget b n) ++ [c.h1, c.h2, c.h3, w32 (c.lam % 2 ^ 32).toNat]) b) b
  { b with pair := { b.pair with syncNext := Nat.min 2048 (b.pair.syncNext + 35) } }

/-- LEDGER_STEP: the step, the slots of a join that wait for it, and on a lead the slots it sends (35 a stride). -/
def ledgerWork (b : Block) : Block :=
  if !ledgerWorks b then b
  else
    let b := ledgerStep b.sup.capFactor b
    let b := installDue { b with pair := { b.pair with ledAt := some (work b) } }
    if isLead b ∧ b.pair.joining.isSome then syncSend b else b

def execLedgerStep (s : State) : Host.Outcome State Fault Refusal := s.act ledgerWork

/-- R279: every LIFE_CKPT minutes, while the Coach runs. -/
def lifeCheckpoint (b : Block) : Block :=
  if !b.host.coachUp || !periodOver b.led.periodicAt (cfgN b 0x0E 0 0 29 19 * 6000000) (now b) then b
  else checkpoint (flashHeld b) false (b.md.mode == .safe) { b with led.periodicAt := some (now b) }

def execLifeCheckpointDue (s : State) : Host.Outcome State Fault Refusal := s.act lifeCheckpoint

/-- LEDGER_CHECKPOINT: ends when the write has. -/
def ledgerCheckpoint (b : Block) : CmdOut := .wait (checkpoint (flashHeld b) true (b.md.mode == .safe) b) [.flash] []

def execLedgerCheckpoint (h : Hdr) (s : State) : Host.Outcome State Fault Refusal :=
  s.act (runCmd h 0x0B04 [.flash] ledgerCheckpoint)

end Sys2Proof.Machine
end

