-- ==== Sys2Proof/Machine/Lift.lean ====
section
/-! DEFINITION. Lift (R499 to R504): its stages and failures, the resets of the whole device and of a die (R475, R506,
R588), their release, and the stored configuration applied at Mid-station (R515, R562, R568). -/

namespace Sys2Proof.Machine

/-! ### What a reset leaves -/

/-- A lockout counts on from Lift (R447): what is left of it, from stride 0. -/
def lockLeft (b : Block) : Option Nat := b.safe.lockUntil.map fun t => t - now b

/-- The whole device in reset (R451, R499): flash, fuses and what they hold stay (R279, R394, R437, R447, R448, R513, R563),
and the cells are not the unit's. -/
def deviceReset (b : Block) : Block :=
  { prot.comps := Tbl.mapAll {} b.prot.comps fun _ (v : Comp) => { passedAt := v.passedAt }
    terms := b.terms, free := b.free
    ports := b.ports.filter fun e => decide (36 ≤ e.1)
    trust := { b.trust with challenge := none, bus := .patrol }
    safe := { pw := b.safe.pw, fails := b.safe.fails, lockUntil := lockLeft b, log := b.safe.log, logSeq := b.safe.logSeq }
    led := { ckpts := b.led.ckpts, nextDev := b.led.nextDev }
    pair := { stored := b.pair.stored }
    sup := { dips := b.sup.dips, dipsDue := b.sup.dipsDue } }

/-- The register block as the loss of the Summit die leaves it: only Lift resets it (R530); the session and its commands are
gone. -/
def hostAfter (h : HostIf) : HostIf :=
  { h with
    requests := [], busy := 0, held := [], coachUp := false, sessionOpen := false, sessionAccepted := false, features := 0
    evEn := false, channels := [], bulkWait := [], waiting := [], actions := [], hostVars := [] }

/-- The Summit die released from reset (R475, R506): every register of the die is as after reset but the register block
(R530), the TAI counter and what is numbered from Lift (R453, R539). What Patrol, flash and the LPDDR5X hold stays. -/
def summitRestart (b : Block) : Block :=
  let b := endBulk .restarted (endAllWaiting .restarted (if trialOf b 1 then revertImage 1 1 b else b))
  let t := b.time
  let u := b.sup
  let p := b.prot
  { cfg := (b.cfg.filter fun e => patrolStructs.contains (e.1 / 65536))
    host := hostAfter b.host, ev := b.ev, terms := b.terms, free := b.free, dbg := b.dbg, safe := b.safe
    trust := { b.trust with bus := if b.trust.bus = .coach then .free else b.trust.bus }
    ports := b.ports.filter fun e => decide (36 ≤ e.1)
    time := { sec := t.sec, ns := t.ns, sub := t.sub, steps := t.steps, liftStep := t.liftStep, acquired := t.acquired
              state := if t.state = 0 then 0 else 4, lostAt := if acquired b then some (now b) else t.lostAt
              refBad := t.refBad, refOk := t.refOk }
    sup := { good := u.good, patrolBank := u.patrolBank, pcfgOk := u.pcfgOk, fail := u.fail, rails := u.rails
             dips := u.dips, dipsDue := u.dipsDue, senseReset := u.senseReset }
    sense := { lost := u.senseReset }
    recd := { store := b.recd.store, nextId := b.recd.nextId }
    snaps := { list := b.snaps.list.filter fun x => x.st == 2, nextId := b.snaps.nextId }
    prot := { p with
      summitLost := false, summitReset := false, heldFor := 0, resetAt := none, missed := 0, sysOut := false, sent := none, got := false
      writes := [], want66 := false, therm66 := false, patrolLost := false, statusMissed := 0, statusAt := now b, lossLine := false, goose := [], avs := []
      avRoots := [], avMaps := [], stops := [] }
    md := { enteredAt := now b, phaseAt := now b }
    pair := { stored := b.pair.stored, bibSeen := b.pair.bibSeen }
    led := { ckpts := b.led.ckpts, nextDev := b.led.nextDev, history := b.led.history, histSets := b.led.histSets } }

/-! ### Supplies good -/

/-- An authorization ends at Lift (R579); Table 17-14 has no cause for it, 0 stands. -/
def debugAtLift (b : Block) : Block :=
  match b.trust.auth with
  | none => b
  | some _ => raise .debugOff [0] { b with trust.auth := none }

/-- Lift begins (R499): trial images are given up (R568), debug access ends. -/
def suppliesGood (b : Block) : Block :=
  if b.sup.good then b
  else
    let b := [1, 2].foldl (fun (b : Block) k => if trialOf b k then revertImage k 3 b else b) (debugAtLift b)
    { b with sup := { b.sup with good := true, patrolBank := activeBank b 2 == 1 } }

def execSuppliesGood (s : State) : Host.Outcome State Fault Refusal := s.act suppliesGood

/-- R588: a low of 120 ns or more on RESET_N is taken, one below 80 ns is not; between, the filter is free (log 2). -/
def resetNLow (ns : Nat) (b : Block) : Block :=
  if ns < 80 then b
  else if 120 ≤ ns then deviceReset b
  else if bit (fresh b).1 0 then deviceReset (fresh b).2 else (fresh b).2

def execResetNLow (ns : Nat) (s : State) : Host.Outcome State Fault Refusal := s.act (resetNLow ns)

/-! ### Base -/

/-- The entries of the Patrol configuration section, with the feeds of PAIR_CFG at their reset values. -/
def loadSection (b : Block) : Block :=
  let b := withSection (if b.prot.pcfgBad then [] else sectionTbl b) b
  setCfg 0x81 0 [setBits (cfgW b 0x81 0 0) 21 21 1, 0] b

/-- Patrol's bank where the device of the one it has booted does not read (Table 1-13). -/
def patrolFlash (failed : BitVec 2) (b : Block) : Block :=
  let f := b.trust.flashFailed ||| failed
  let b := flashRead failed [2] b
  let a := if b.sup.patrolBank then 1 else 0
  if f.getLsbD a && !f.getLsbD (1 - a) then { b with sup.patrolBank := !b.sup.patrolBank } else b

/-- The Patrol items of Base, once per Lift: the section is loaded, each comparator armed (R327), the Patrol die runs the
image of its bank; then Patrol releases the flash bus to the Coach (R20). -/
def patrolBase (failed : BitVec 2) (b : Block) : Block :=
  if cfgWritten b 0x81 0 then b
  else
    let b := loadSection (patrolFlash failed b)
    (List.range 48).foldl (fun (b : Block) c => armComp c 0 b) (busTo .free { b with sup.pcfgOk := !b.prot.pcfgBad })

/-- SYS, LANE-0 and LANE-1 are locked. -/
def coreLocked (b : Block) : Bool := [0, 1, 2].all fun k => (synth b k).locked

/-- Base (Table 15-1): the unit's role is known as SOLO or NONE (R392, R421), its ports train (R151), dip records that a
reset held back are written (R510). -/
def baseReached (ms : Nat) (failed : BitVec 2) (b : Block) : Block :=
  if !b.sup.good ∨ b.sup.stage ≠ 0 ∨ b.sup.fail = 2 ∨ b.prot.summitReset = true ∨ coreLocked b = false then b
  else
    let b := patrolBase failed b
    let b := portsPower { b with pair.role := if pairEn b then 1 else 0 }
    let due := b.sup.dipsDue
    let b := due.foldl (fun (b : Block) w => writeDip w b) { b with sup.dipsDue := [] }
    stageReached 1 ms b

def execBaseReached (ms : Nat) (failed : BitVec 2) (s : State) : Host.Outcome State Fault Refusal := s.act (baseReached ms failed)

/-! ### Mid-station -/

/-- A stored image fails its verification at Lift. -/
def imageLiftFail (kind slot reason : Nat) (b : Block) : Block :=
  raise .imageLiftFail [w32 kind, w32 slot, w32 reason] b

/-- The keyring that governs: the active bank's, else the other bank's, else none (R562). -/
def liftKeyring (b : Block) : Block :=
  let bank := activeBank b 4
  let ok := fun (b : Block) k => (stored b 4 0 k).valid && verifyImage b 4 (stored b 4 0 k).words == 0
  let fails := fun (b : Block) k =>
    let i := stored b 4 0 k
    if i.valid then imageLiftFail 4 k (verifyImage b 4 i.words) (storeImage 4 0 k { i with valid := false } b) else b
  if ok b bank then b
  else
    let b' := setActive 4 (1 - bank) false b
    if ok b' (1 - bank) then fails b' bank
    else { fails (fails b bank) (1 - bank) with trust.active := b.trust.active }

/-- The active image of kind 6 or 7, if it verifies; else EV_IMAGE_LIFT_FAIL. -/
def liftImage (kind : Nat) (b : Block) : Option Image × Block :=
  let i := activeImage b kind
  if !i.valid then (none, b)
  else match verifyImage b kind i.words with
    | 0 => (some i, b)
    | r => (none, imageLiftFail kind (activeBank b kind) r b)

/-- One item of the stored configuration and what it does. -/
structure LiftItem where
  name : List W32
  act : Block → Block

/-- The records of an image as items. -/
def recordItems (kind : Nat) (i : Option Image) : List LiftItem :=
  match i with
  | none => []
  | some i => (imageRecords i.words).map fun r => ⟨[w32 kind, cfgHead r.1 r.2.1], applyCfg r.1 r.2.1 r.2.2⟩

/-- Items in stored order (R515): the first that the cap refuses and every one after it are not applied. -/
def admitItems : List LiftItem → Block → Block
  | [], b => b
  | x :: xs, b => if costRefused b (x.act b) then raise .powerAdmit x.name b else admitItems xs (x.act b)

/-- The slots that ASSIGN maps engines to, and the engines of a slot. -/
def assigned (i : Option Image) (e : Nat) : Nat :=
  match i.bind fun i => sectionOf i.words 6 with
  | some a => bits (word a e) 7 0
  | none => 255

/-- An engine takes the program of its slot as its running one. -/
def programItem (img : Image) (e : Nat) : LiftItem :=
  ⟨[5, w32 e], fun b => onEngine e (fun (g : Engine) => { (g.swap false) with reloaded := false }) (loadSlot img [e] b)⟩

/-- The ASSIGN section as items, engine by engine; a slot that fails, or whose program does not suit the engine, is not
used (R562). -/
def assignItems (i : Option Image) (b : Block) : List LiftItem × Block :=
  let slots := (((List.range 272).map (assigned i)).filter (· < 32)).eraseDups
  let b := slots.foldl (fun (b : Block) k => match slotSection b k with
    | .error r => imageLiftFail 5 k r b
    | .ok _ => b) b
  ((List.range 272).filterMap fun e =>
    if 32 ≤ assigned i e then none
    else match slotSection b (assigned i e) with
      | .error _ => none
      | .ok img => match carveRefused (some (decide (256 ≤ e))) ((sectionOf img.words 2).getD []) with
        | some _ => none
        | none => some (programItem img e), b)

/-- Mid-station (Table 15-1): the Coach runs, the stored configuration is applied (R515, R562), held doorbells are
accepted. -/
def midStation (ms : Nat) (failed : BitVec 2) (b : Block) : Block :=
  if b.sup.stage ≠ 1 ∨ b.sup.fail = 4 then b
  else
    let b := busTo .coach (flashRead failed [1, 4, 6, 7] b)
    let b := setCoachUp true { b with sup := { b.sup with coachOk := true, coachBank := activeBank b 1 == 1 } }
    let b := if b.sup.fail = 0 then b else raise .liftFail [w32 b.sup.fail] b
    let b := liftKeyring b
    let (c, b) := liftImage 6 b
    let (f, b) := liftImage 7 b
    let (progs, b) := assignItems f b
    let b := admitItems (recordItems 6 c ++ recordItems 7 f ++ progs) b
    let b := stageReached 2 ms b
    b.host.held.foldl (fun (b : Block) m => acceptDoorbell m b) { b with host.held := [] }

def execMidStationReached (ms : Nat) (failed : BitVec 2) (s : State) : Host.Outcome State Fault Refusal := s.act (midStation ms failed)

/-! ### Failures (Table 15-2a) -/

/-- Patrol holds the Summit die in reset. -/
def holdSummit (b : Block) : Block := lanesIdle { b with prot := { b.prot with summitReset := true, summitLost := true } }

/-- R504: during Lift, the Coach's image after Base at the latest, the rest before it. -/
def liftFail (fail : Nat) (b : Block) : Block :=
  let b' := { b with sup.fail := fail }
  if !b.sup.good ∨ 2 ≤ b.sup.stage ∨ (fail ≠ 4 ∧ b.sup.stage ≠ 0) then b
  else match fail with
  | 1 => { b' with sup.patrolBank := !b.sup.patrolBank }
  | 2 => holdSummit b'
  | 3 => setInput 69 true { b' with prot.pcfgBad := true }
  | 4 => setCoachUp false { b' with sup.coachOk := false }
  | 5 => holdSummit (patrolBase 0 b')
  | _ => b

def execLiftFail (fail : Fin 6) (s : State) : Host.Outcome State Fault Refusal := s.act (liftFail fail.val)

/-! ### Resets by the rails (Table 15-3, R506, R510) -/

/-- A rail falls below its reset threshold: the reset of its scope acts at once. VSO resets nothing. -/
def railReset (r us mv : Nat) (b : Block) : Block :=
  let t := micros b us
  if 11 ≤ r ∨ railFails r mv = false then b
  else
    let b := onRail r (fun (x : Rail) => { x with
      dipAt := some (x.dipAt.getD t), crossed := true, vMin := if x.dipAt.isSome then Nat.min x.vMin mv else mv }) b
    if r ≤ 1 then
      let t0 := ((rail b r).dipAt).getD t
      deviceReset { b with sup.dipsDue := b.sup.dipsDue ++ [dipRecord r t0 2 (t - t0) (rail b r).vMin] }
    else if r ≤ 8 then (if b.prot.summitReset then { b with prot.heldFor := 0 } else loseSummit true b)
    else senseLost { b with sup := { b.sup with senseReset := true, senseResetAt := t } }

def execRailReset (rail : Fin 12) (us : Fin 10) (mv : BitVec 16) (s : State) : Host.Outcome State Fault Refusal :=
  s.act (railReset rail.val us.val mv.toNat)

/-- A die is released (R506). -/
def dieRelease (summit : Bool) (b : Block) : Block :=
  if summit then (if b.prot.summitReset = true ∧ b.sup.fail ≠ 2 then summitRestart b else b)
  else { b with sup.senseReset := false }

/-- The rails of a die in reset can have been good for 1 ms: so long has the reset lasted since it was last asserted. -/
def railsSettled (summit : Bool) (b : Block) : Bool :=
  if summit then decide (100 ≤ b.prot.heldFor) else decide (b.sup.senseResetAt + 1000 ≤ now b * 10)

def execDieRelease (summit : Bool) (s : State) : Host.Outcome State Fault Refusal :=
  s.act fun b => if railsSettled summit b then dieRelease summit b else b

/-- A rail of the Summit die has crossed its reset threshold and its dip stands (R506). -/
def summitRailLow (b : Block) : Bool := b.sup.rails.any fun kv => decide (2 ≤ kv.1) && decide (kv.1 ≤ 8) && kv.2.crossed && kv.2.dipAt.isSome

/-- R475: the Summit die is released 1 ms after its reset began, provided REFCLK is present and its rails stand. -/
def execSummitResetRelease (s : State) : Host.Outcome State Fault Refusal :=
  s.act fun b => if b.time.refOk ∧ railsSettled true b = true ∧ summitRailLow b = false then dieRelease true b else b

/-! ### LIFT_STATUS (Table 15-2) -/

def liftStatus (b : Block) : W32 :=
  let u := b.sup
  pack [fld u.stage 31 30, flg u.patrolBank 29, flg u.coachBank 28, flg u.pcfgOk 27, flg u.coachOk 26,
    flg (b.time.refOk && (synth b 0).locked) 25, fld u.fail 24 21, fld u.liftMs 20 0]

end Sys2Proof.Machine
end

