-- ==== Sys2Proof/Machine/Boundary.lean ====
section
/-! DEFINITION. The start of a stride (R47 to R49): the counter passes the boundary and what every boundary does, beside the
actions of R51 and the rows that have a meaning of their own. -/

namespace Sys2Proof.Machine

/-- The outputs of the stride before are past: committed records, references, deliveries (R55, R163). -/
def outputsPast (b : Block) : Block :=
  { b with
    slal := { b.slal with cmd := [], ref := [] }
    eng := Tbl.mapAll {} b.eng fun _ (g : Engine) => { g with running := false, delivered := false, undo := none } }

/-- Device words 0x0A00 to 0x0A03: stride number, mode, role (Table 6-8). -/
def deviceWords (b : Block) : Block := xwrites 0x0A00 (w64 (work b) ++ [w32 b.md.mode.code, w32 b.pair.role]) b

/-- RAMP_STRIDES as it stood in the stride that ends (R238). -/
def keepRamp (b : Block) : Block := { b with fab.rampWas := cfgN b 0x0A 0 0 23 10 }

/-- PRP supervision frames go out of both ports of the pair every 2 s (R465); the phase is the model's choice (log 33). -/
def prpSupervise (b : Block) : Block :=
  if now b % 200000 ≠ 0 then b
  else { b with net := ((List.range 4).filter (prpPort b)).foldl (fun t j =>
      Tbl.upd {} t j fun (n : NetPort) => { n with supervised := some (now b) }) b.net }

/-- The Summit die starts a stride: the pair manager's role, entries and values whose boundary this is, and the words that
are written at it, beside the floor credits of the memory controller (R35). -/
def summitStart (b : Block) : Block :=
  let b := noteAcquired (pairBoundary (ddrCredit (keepRamp (outputsPast (prpSupervise b)))))
  let b := releaseHostVars (coolantBoundary (nextEntries b))
  let b := snapLadders (capBoundary (liftNoStep (chainBoundary b)))
  deviceWords b

/-- The boundary: EV_DEGRADED of the stride that ends (R437), the counter (R49), and the work of a Summit die that runs: held in
reset, or on the holding clock of SYS, it does none (R475). -/
def strideBoundary (b : Block) : Block :=
  let b := nextBoundary (degrEvent b)
  let b := if b.prot.summitReset then { b with prot.heldFor := b.prot.heldFor + 1 } else b
  if b.prot.summitReset || b.prot.sysOut then b else summitStart b

def execStrideBoundary (s : State) : Host.Outcome State Fault Refusal := s.act strideBoundary

end Sys2Proof.Machine
end

