-- ==== Sys2Proof/Machine/Carve.lean ====
section
/-! DEFINITION. The Carve instructions (Table 6-6): one row of the table is one instruction of one engine. -/

namespace Sys2Proof.Machine

def execCvNop (e : Fin 272) (f : FmtR) (s : State) : Host.Outcome State Fault Refusal :=
  runR (.cvNop e f) e f 1 (fun _ _ acc => acc) s
def execCvFadd (e : Fin 272) (f : FmtR) (s : State) : Host.Outcome State Fault Refusal := binOp (.cvFadd e f) e f 1 fadd s
def execCvFsub (e : Fin 272) (f : FmtR) (s : State) : Host.Outcome State Fault Refusal := binOp (.cvFsub e f) e f 1 fsub s
def execCvFmul (e : Fin 272) (f : FmtR) (s : State) : Host.Outcome State Fault Refusal := binOp (.cvFmul e f) e f 1 fmul s
/-- vD = vD + vA × vB with one rounding. -/
def execCvFma (e : Fin 272) (f : FmtR) (s : State) : Host.Outcome State Fault Refusal :=
  runR (.cvFma e f) e f 2 (fun e0 j acc =>
    acc.vset j f.d.val (ffma (e0.vget j f.d.val) (e0.vget j f.a.val) (e0.vget j f.b.val))) s
def execCvFmin (e : Fin 272) (f : FmtR) (s : State) : Host.Outcome State Fault Refusal := binOp (.cvFmin e f) e f 1 fmin s
def execCvFmax (e : Fin 272) (f : FmtR) (s : State) : Host.Outcome State Fault Refusal := binOp (.cvFmax e f) e f 1 fmax s
def execCvFabs (e : Fin 272) (f : FmtR) (s : State) : Host.Outcome State Fault Refusal := unOp (.cvFabs e f) e f 1 fabs s
def execCvFneg (e : Fin 272) (f : FmtR) (s : State) : Host.Outcome State Fault Refusal :=
  unOp (.cvFneg e f) e f 1 (fun a => fcanon (fneg a)) s
def execCvFrcp (e : Fin 272) (f : FmtR) (s : State) : Host.Outcome State Fault Refusal := unOp (.cvFrcp e f) e f 4 frcp s
def execCvFsqrt (e : Fin 272) (f : FmtR) (s : State) : Host.Outcome State Fault Refusal := unOp (.cvFsqrt e f) e f 6 fsqrt s
/-- X[2:0] is the condition. -/
def execCvFcmp (e : Fin 272) (f : FmtR) (s : State) : Host.Outcome State Fault Refusal :=
  cmpOp (.cvFcmp e f) e f (fcond (f.x.val % 8)) s
def execCvIadd (e : Fin 272) (f : FmtR) (s : State) : Host.Outcome State Fault Refusal :=
  binOp (.cvIadd e f) e f 1 (fun a b => satI (s32 a + s32 b)) s
def execCvIsub (e : Fin 272) (f : FmtR) (s : State) : Host.Outcome State Fault Refusal :=
  binOp (.cvIsub e f) e f 1 (fun a b => satI (s32 a - s32 b)) s
def execCvIaddw (e : Fin 272) (f : FmtR) (s : State) : Host.Outcome State Fault Refusal :=
  binOp (.cvIaddw e f) e f 1 (fun a b => a + b) s
def execCvIsubw (e : Fin 272) (f : FmtR) (s : State) : Host.Outcome State Fault Refusal :=
  binOp (.cvIsubw e f) e f 1 (fun a b => a - b) s
/-- (vA × vB + 2^(q−1)) >> q, saturating; no rounding term when q = 0. -/
def execCvImulq (e : Fin 272) (f : FmtR) (s : State) : Host.Outcome State Fault Refusal :=
  binOp (.cvImulq e f) e f 2 (fun a b =>
    let q := f.x.val % 32
    satI ((s32 a * s32 b + (if q = 0 then 0 else 2 ^ (q - 1))) / 2 ^ q)) s
def execCvIshl (e : Fin 272) (f : FmtR) (s : State) : Host.Outcome State Fault Refusal :=
  unOp (.cvIshl e f) e f 1 (fun a => satI (s32 a * 2 ^ (f.x.val % 32))) s
def execCvIshr (e : Fin 272) (f : FmtR) (s : State) : Host.Outcome State Fault Refusal :=
  unOp (.cvIshr e f) e f 1 (fun a => a.sshiftRight (f.x.val % 32)) s
def execCvAnd (e : Fin 272) (f : FmtR) (s : State) : Host.Outcome State Fault Refusal :=
  binOp (.cvAnd e f) e f 1 (fun a b => a &&& b) s
def execCvOr (e : Fin 272) (f : FmtR) (s : State) : Host.Outcome State Fault Refusal :=
  binOp (.cvOr e f) e f 1 (fun a b => a ||| b) s
def execCvXor (e : Fin 272) (f : FmtR) (s : State) : Host.Outcome State Fault Refusal :=
  binOp (.cvXor e f) e f 1 (fun a b => a ^^^ b) s
def execCvIcmp (e : Fin 272) (f : FmtR) (s : State) : Host.Outcome State Fault Refusal :=
  cmpOp (.cvIcmp e f) e f (fun a b => icond (f.x.val % 8) (s32 a) (s32 b)) s
def execCvUcmp (e : Fin 272) (f : FmtR) (s : State) : Host.Outcome State Fault Refusal :=
  cmpOp (.cvUcmp e f) e f (fun a b => icond (f.x.val % 8) a.toNat b.toNat) s
def execCvFtoi (e : Fin 272) (f : FmtR) (s : State) : Host.Outcome State Fault Refusal :=
  unOp (.cvFtoi e f) e f 1 (ftoi (f.x.val % 32)) s
def execCvItof (e : Fin 272) (f : FmtR) (s : State) : Host.Outcome State Fault Refusal :=
  unOp (.cvItof e f) e f 1 (itof (f.x.val % 32)) s
/-- vD = sine, vD+1 = cosine; the loader keeps D at 30 or less. -/
def execCvSincos (e : Fin 272) (f : FmtR) (s : State) : Host.Outcome State Fault Refusal :=
  runR (.cvSincos e f) e f 6 (fun e0 j acc =>
    (acc.vset j f.d.val (fsin (e0.vget j f.a.val))).vset j (f.d.val + 1) (fcos (e0.vget j f.a.val))) s
/-- Angle of (x = vB, y = vA); a NaN operand counts toward EV_CARVE_NAN. -/
def execCvAtan2 (e : Fin 272) (f : FmtR) (s : State) : Host.Outcome State Fault Refusal :=
  runR (.cvAtan2 e f) e f 8 (fun e0 j acc =>
    let y := e0.vget j f.a.val
    let x := e0.vget j f.b.val
    let acc := acc.vset j f.d.val (fatan2 y x)
    if fIsNaN x || fIsNaN y then acc.nanLane j else acc) s
/-- X[2:0] names the predicate that selects. -/
def execCvSel (e : Fin 272) (f : FmtR) (s : State) : Host.Outcome State Fault Refusal :=
  runR (.cvSel e f) e f 1 (fun e0 j acc => acc.vset j f.d.val
    (if e0.pget j (f.x.val % 8) then e0.vget j f.a.val else e0.vget j f.b.val)) s
def execCvPand (e : Fin 272) (f : FmtR) (s : State) : Host.Outcome State Fault Refusal :=
  predOp (.cvPand e f) e f (fun x y => x && y) s
def execCvPor (e : Fin 272) (f : FmtR) (s : State) : Host.Outcome State Fault Refusal :=
  predOp (.cvPor e f) e f (fun x y => x || y) s
def execCvPnot (e : Fin 272) (f : FmtR) (s : State) : Host.Outcome State Fault Refusal :=
  predOp (.cvPnot e f) e f (fun x _ => !x) s
/-- Added in lane order, each addition rounded. -/
def execCvLsum (e : Fin 272) (f : FmtR) (s : State) : Host.Outcome State Fault Refusal :=
  acrossOp (.cvLsum e f) e f 3 (fun l => match l with | [] => 0 | x :: xs => xs.foldl fadd (fcanon x)) s
def execCvLmax (e : Fin 272) (f : FmtR) (s : State) : Host.Outcome State Fault Refusal :=
  acrossOp (.cvLmax e f) e f 2 (fun l => match l with | [] => 0 | x :: xs => xs.foldl fmax (fcanon x)) s
def execCvLmin (e : Fin 272) (f : FmtR) (s : State) : Host.Outcome State Fault Refusal :=
  acrossOp (.cvLmin e f) e f 2 (fun l => match l with | [] => 0 | x :: xs => xs.foldl fmin (fcanon x)) s
/-- vA of lane X[2:0]. -/
def execCvLget (e : Fin 272) (f : FmtR) (s : State) : Host.Outcome State Fault Refusal :=
  runR (.cvLget e f) e f 1 (fun e0 j acc => acc.vset j f.d.val (e0.vget (f.x.val % 8) f.a.val)) s
/-- Lane memory word IMM; the loader keeps IMM at 255 or less. -/
def execCvLd (e : Fin 272) (f : FmtM) (s : State) : Host.Outcome State Fault Refusal :=
  runM (.cvLd e f) e f 1 (fun e0 j acc => acc.vset j f.d.val (if f.imm.val < 256 then e0.mget j f.imm.val else 0)) s

/-- Where ST writes: a shadow law's CMD words go to CMD_SHADOW (R230). -/
def stTarget (e : Engine) (w : Nat) : Nat := if e.sect = .shadow ∧ 12 ≤ w ∧ w ≤ 23 then w + 12 else w

def execCvSt (e : Fin 272) (f : FmtM) (s : State) : Host.Outcome State Fault Refusal :=
  runM (.cvSt e f) e f 1 (fun e0 j acc =>
    if f.imm.val < 256 then acc.mset j (stTarget e0 f.imm.val) (e0.vget j f.d.val) else acc) s
/-- Program word IMM of the active bank. -/
def execCvLdc (e : Fin 272) (f : FmtM) (s : State) : Host.Outcome State Fault Refusal :=
  runM (.cvLdc e f) e f 1 (fun e0 j acc => acc.vset j f.d.val (Tbl.get 0 e0.bank.words f.imm.val)) s
/-- Mirror word IMM, whatever its age. -/
def execCvXld (e : Fin 272) (f : FmtM) (s : State) : Host.Outcome State Fault Refusal :=
  runM (.cvXld e f) e f 1 (fun e0 j acc => acc.vset j f.d.val (Tbl.get {} e0.mirFront f.imm.val).val) s
/-- Freshness of mirror word IMM against MAX_AGE of its subscription (R225). -/
def execCvXok (e : Fin 272) (f : FmtM) (s : State) : Host.Outcome State Fault Refusal :=
  let age := cfgN s.blk 0x09 e.val (17 + f.imm.val) 15 8
  runM (.cvXok e f) e f 1 (fun e0 j acc => acc.pset j (f.d.val % 8)
    (decide (ageOf s.blk (Tbl.get {} e0.mirFront f.imm.val) ≤ age))) s
/-- Mirror word IMM + lane. -/
def execCvXldl (e : Fin 272) (f : FmtM) (s : State) : Host.Outcome State Fault Refusal :=
  runM (.cvXldl e f) e f 1 (fun e0 j acc => acc.vset j f.d.val (Tbl.get {} e0.mirFront (f.imm.val + j)).val) s
/-- Integrator D[3:0] with increment vA (R216). -/
def execCvIntg (e : Fin 272) (f : FmtR) (s : State) : Host.Outcome State Fault Refusal :=
  runR (.cvIntg e f) e f 1 (fun e0 j acc => intgLane (f.d.val % 16) (e0.vget j f.a.val) e0 j acc) s
/-- Output X[3:0] from vA (R217). -/
def execCvLim (e : Fin 272) (f : FmtR) (s : State) : Host.Outcome State Fault Refusal :=
  runR (.cvLim e f) e f 2 (fun e0 j acc => limLane (f.x.val % 16) f.d.val (e0.vget j f.a.val) e0 j acc) s
/-- Integrator D[3:0], rest vA, pair output X[3:0] (R240). -/
def execCvBump (e : Fin 272) (f : FmtR) (s : State) : Host.Outcome State Fault Refusal :=
  runR (.cvBump e f) e f 2 (fun e0 j acc =>
    bumpLane e0.ramp (f.d.val % 16) (f.x.val % 16) (e0.vget j f.a.val) e0 j acc) s
/-- Output B[3:0], rest vA, pair output X[3:0] (R240). -/
def execCvBumpo (e : Fin 272) (f : FmtR) (s : State) : Host.Outcome State Fault Refusal :=
  runR (.cvBumpo e f) e f 2 (fun e0 j acc =>
    bumpoLane e0.ramp (f.b.val % 16) (f.x.val % 16) (e0.vget j f.a.val) e0 j acc) s
/-- Post-buffer word IMM + lane × s; a shadow law writes the shadow copy (R229, R230). -/
def execCvPost (e : Fin 272) (f : FmtM) (s : State) : Host.Outcome State Fault Refusal :=
  runM (.cvPost e f) e f 1 (fun e0 j acc =>
    let w := f.imm.val + j * (if f.x.val % 2 = 0 then 1 else 8)
    if 79 < w then acc
    else if e0.sect = .shadow then { acc with postShadow := Tbl.set 0 acc.postShadow w (e0.vget j f.d.val) }
    else { acc with post := Tbl.set 0 acc.post w (e0.vget j f.d.val) }) s

/-- What COMMIT and PUBLISH share: delivery, LAST_CYCLE, SAT_RUN and its events, ramps, EV_CARVE_NAN and the end of
a hand-over's preload (R218, R220, R241, R243, R244). -/
def delivery (en : Nat) (b : Block) : Block :=
  let old := engine b en
  let e1 := (decayRamps (updateSatRuns old)).issue 1
  let e2 := { e1 with
    delivered := true, lastCycle := old.cyc
    undo := some { mem := old.mem, hoPhase := old.hoPhase, trackRun := old.trackRun, maxDelta := old.maxDelta, lastCycle := old.lastCycle } }
  let b1 := nanEvent en (satEvents en old e2 (onEngine en (fun _ => e2) b))
  if old.hoPhase = 2 then
    raise .handover [w32 en, w32 (old.lastLaw.getD 0), w32 (old.law.getD 0), w32 old.trackRun, old.maxDelta]
      (onEngine en (fun e => { e with hoPhase := 0, trackRun := 0, maxDelta := 0 }) b1)
  else b1

/-- COMMIT or PUBLISH in a stride: one that is a miss already delivers nothing (R68, R245). -/
def deliver (en : Nat) (b : Block) : Block :=
  if (engine b en).missStride = some (work b) then onEngine en (Engine.issue · 1) b else delivery en b

/-- R229: the post buffer is frozen and released to the fabric. -/
def execCvPublish (e : Fin 272) (f : FmtR) (s : State) : Host.Outcome State Fault Refusal :=
  whenNext (.cvPublish e f) e (deliver e.val) s
/-- R228: the CMD words of all lanes are handed to the commit bus. -/
def execCvCommit (e : Fin 272) (f : FmtR) (s : State) : Host.Outcome State Fault Refusal :=
  whenNext (.cvCommit e f) e (deliver e.val) s

end Sys2Proof.Machine
end

