-- ==== Sys2Proof/Machine/CellSide.lean ====
section
/-! DEFINITION. The far-end contract: what a cell terminal does (chapter 3, the ladder of Table 2-3, and the cell side
of the link in chapter 4). A frame arrives as its control-block payload, whose check is computed here. -/

namespace Sys2Proof.Machine

/-- The cell's highest bib: the greatest heard within the bib window of L + 2 strides (R95). -/
def CellTerm.highest (c : CellTerm) : Nat :=
  (c.bibs.filter fun x => c.own ≤ x.1 + c.silenceL + 1).foldl (fun m x => Nat.max m x.2) 0

/-- A bib is heard in the current stride, counted on the cell's own boundaries (R95). -/
def CellTerm.hear (c : CellTerm) (bib : Nat) : CellTerm :=
  { c with bibs := (c.own, bib) :: c.bibs.filter fun x => c.own ≤ x.1 + c.silenceL + 1 && x != (c.own, bib) }

/-- All switches off and BLOCKED with a cause; the local stage stops (Table 2-3, R73, R105). -/
def CellTerm.block (c : CellTerm) (cause : Nat) : CellTerm :=
  { c with ladder := .blocked, blockCause := cause, sw := 0, dueOns := [], localRun := false, lists := [] }

/-- R84: power-up: BLOCKED, all off, no identity from an earlier enumeration, both ports training. `ranges`: ranges of the
kind's own for its parameter words (R99, R100). The bypass switch keeps the position it had: DESIGN CHOICE (log 42); the
spec says of a power-up only that switches are off and the ladder BLOCKED. -/
def execCellPowerUp (cell : Fin 2048) (serial : BitVec 64) (firmware : W32) (asym : W32) (desc : List W32)
    (ranges : List (Option (W32 × W32))) (s : State) : Host.Outcome State Fault Refusal :=
  s.act fun b =>
    let b := onTerm cell.val (fun c => { powered := true, serial := serial.toNat, firmware := firmware, ranges := ranges
                                         asym := s32 asym, desc := desc, bypassed := c.bypassed }) b
    let up : Port := { st := .train, txIdle := false, timer := true }
    onPort (64 + 2 * cell.val) (fun _ => up) (onPort (65 + 2 * cell.val) (fun _ => up) b)

/-- R83, R89: without power the cell stops forwarding, its ports fall silent and the T port of the cell before it, or
nothing at position 0, goes dark. -/
def execCellPowerLoss (cell : Fin 2048) (s : State) : Host.Outcome State Fault Refusal :=
  s.act fun b =>
    let n := cell.val
    let b := onTerm n (fun c => { c with powered := false, sw := 0, dueOns := [], localRun := false, ladder := .blocked, lists := []
                                         last := none }) b
    let b := onPort (64 + 2 * n) (fun _ => {}) (onPort (65 + 2 * n) (fun _ => {}) b)
    if n % 64 = 0 then b
    else onPort (63 + 2 * n) (fun p => { p with st := .dark, rxLock := false, txIdle := true, timer := false }) b

/-! ### Execution of a list (R102 to R104) -/

/-- The legs of the cell as pairs of switch indices. -/
def CellTerm.legs (c : CellTerm) : List (Nat × Nat) := (List.range (dNLegs c.desc)).map (dLeg c.desc)

/-- The other switch of the leg of a switch. -/
def CellTerm.partner (c : CellTerm) (i : Nat) : Option Nat :=
  (c.legs.find? fun hl => hl.1 == i || hl.2 == i).map fun hl => if hl.1 = i then hl.2 else hl.1

/-- A switch mask with a switch on, and with it off. -/
def swOn (v i : Nat) : Nat := v ||| (1 <<< i)
def swOff (v i : Nat) : Nat := v &&& (0xFFFF - (1 <<< i) % 65536)

/-- R104: the on of a switch falls less than MIN_GAP after the off of the other of its leg: the end of the gap. -/
def CellTerm.gapEnd (c : CellTerm) (t : Int) (i : Nat) : Option Int :=
  match c.partner i with
  | none => none
  | some j =>
    match Tbl.get none c.offAt j with
    | some t0 => if t < t0 + dMinGap c.desc then some (t0 + dMinGap c.desc) else none
    | none => none

/-- Switches that are on go off at time `t`. -/
def CellTerm.putOff (c : CellTerm) (t : Int) (l : List Nat) : CellTerm :=
  let on := l.filter fun i => c.sw.testBit i
  { c with sw := l.foldl swOff c.sw, offAt := on.foldl (fun o i => Tbl.set none o i (some t)) c.offAt }

/-- Switches go on at one instant. A leg whose two switches would then be on has neither on-command carried out and both
switches off, counted once (R103). -/
def CellTerm.putOn (c : CellTerm) (t : Int) (l : List Nat) : CellTerm :=
  let want := l.foldl swOn c.sw
  let bad := c.legs.filter fun hl => want.testBit hl.1 && want.testBit hl.2
  let both := bad.flatMap fun hl => [hl.1, hl.2]
  let c := if bad = [] then c else { c.putOff t both with curInterlock := true }
  { c with sw := (l.filter fun i => !both.contains i).foldl swOn c.sw
           rejectCnt := bad.foldl (fun n _ => satInc 255 n) c.rejectCnt }

/-- Stretched on-commands that fall due by time `t` are driven. -/
def CellTerm.fire (c : CellTerm) (t : Int) : CellTerm :=
  (c.dueOns.filter fun x => decide (x.1 ≤ t)).foldl (fun c x => c.putOn x.1 [x.2])
    { c with dueOns := c.dueOns.filter fun x => decide (t < x.1) }

/-- One simultaneous change: the edges of one time, given as switch and on/off (R102). Off-commands are always carried
out, and end a stretched on of the same switch; an on within MIN_GAP of the partner's off waits for its end (R104). -/
def CellTerm.change (c : CellTerm) (t : Int) (es : List (Nat × Bool)) : CellTerm :=
  let c := c.fire t
  let offs := (es.filter fun e => !e.2).map Prod.fst
  let ons := (es.filter fun e => e.2).map Prod.fst
  let c := { c.putOff t offs with curEdges := c.curEdges + es.length
                                  dueOns := c.dueOns.filter fun x => !offs.contains x.2 }
  let late := ons.filterMap fun i => (c.gapEnd t i).map fun e => (e, i)
  let c := { c with dueOns := c.dueOns ++ late, curGap := c.curGap || !late.isEmpty
                    gapCnt := late.foldl (fun n _ => satInc 255 n) c.gapCnt }
  c.putOn t (ons.filter fun i => (c.gapEnd t i).isNone)

/-- Edges grouped by equal time, in order (R102); `fuel` bounds the groups. -/
def runEdges : Nat → CellTerm → List W32 → CellTerm
  | 0, c, _ => c
  | _, c, [] => c
  | fuel + 1, c, e :: es =>
    let t := bits e 31 15
    let same := es.takeWhile fun x => bits x 31 15 == t
    runEdges fuel (c.change (t : Int) ((e :: same).map fun x => (bits x 14 11, bits x 10 9 == 1)))
      (es.dropWhile fun x => bits x 31 15 == t)

/-- Execute a list from the cell's present switch state (R56, R102). -/
def CellTerm.execute (c : CellTerm) (l : CellList) : CellTerm := runEdges l.edges.length c l.edges

/-- A stride of 125,000 UI is over: stretched on-commands due in it are driven, and times count from the new boundary. -/
def CellTerm.strideEnds (c : CellTerm) : CellTerm :=
  let c := c.fire 124999
  { c with dueOns := c.dueOns.map fun x => (x.1 - 125000, x.2)
           offAt := Tbl.mapAll none c.offAt fun _ t => t.map fun v => v - 125000 }

/-- Parameter word j of a set passes Table 3-8 and the range that the cell's kind has of its own for it, as the band of
code 4 (R99, R100). -/
def paramOk (d : List W32) (own : Option (W32 × W32)) (j : Nat) (v : W32) : Bool :=
  (match own with
    | some (lo, hi) => fle lo v && fle v hi
    | none => true)
  && match dParamCode d j with
  | 1 => fInRange v (-1, 2) (1, 2)
  | 2 => fInRange v (0, 1) (1, 1)
  | 3 => fInRange v (0, 1) (1, 1)
  | 4 => flt 0 v && !fIsInf v
  | 5 => feq v 0 || feq v 0x3F800000
  | 6 => fle 0 v && fle v (dIRated d)
  | _ => true

/-- Load a parameter set whole, or refuse it whole (R100). -/
def CellTerm.loadParams (c : CellTerm) (ps : List W32) : CellTerm :=
  if ps = [] then c
  else if (List.range ps.length).all fun j => paramOk c.desc (c.ranges.getD j none) j (word ps j) then
    { c with params := ps, paramStale := false }
  else { c with paramStale := true }

/-- The local stage runs outside BLOCKED on the last accepted parameters, unless its enable word is 0.0 (R73). -/
def CellTerm.setLocal (c : CellTerm) : CellTerm :=
  { c with localRun := dHasLocal c.desc && c.ladder != .blocked && c.params != []
      && (List.range c.params.length).all fun j => dParamCode c.desc j != 5 || feq (word c.params j) 0x3F800000 }

/-- R72: HOLD: the zero-voltage vector, switches that leave it off first. -/
def CellTerm.zeroVector (c : CellTerm) : CellTerm :=
  let off := (List.range 16).filter fun i => !(dZv c.desc).testBit i
  { c.putOff 0 off with ladder := .hold, m := c.m + 1, sw := dZv c.desc, dueOns := [] }

/-- The ladder at a boundary (Table 2-3, R117): the accepted list of this boundary, or none. -/
def CellTerm.ladderStep (c : CellTerm) (l? : Option CellList) : CellTerm :=
  let faulted := c.sc || c.ov || c.faultKind != 0
  let timed := if c.timingT then c.dT.isSome else c.dH.isSome
  match c.ladder, l? with
  | .blocked, some l =>
    if l.integrate && !faulted && timed then
      ({ c with ladder := .run, m := 0, blockCause := 0, last := some l, listSrc := l.port }.loadParams l.params).execute l
    else c
  | .blocked, none => c
  | _, some l =>
    ({ c with ladder := .run, m := 0, last := some l, listSrc := l.port }.loadParams l.params).execute l
  | .run, none =>
    let c := { c with ladder := .repeat, m := 1 }
    match c.last with
    | some l => c.execute l
    | none => c
  | _, none =>
    if c.m + 1 < c.silenceL then c.zeroVector
    else { c.block 2 with m := c.m + 1 }

/-- Next mapped slot after `k`, wrapping (R109). -/
def nextSlot (d : List W32) (k : Nat) : Nat :=
  match (dSlots d).find? (fun s => decide (k < s)) with
  | some s => s
  | none => (dSlots d).headD 0

/-- Apply the setpoint writes received in the last stride (R107, R110). `cause`: the fault detector still sees the
cause of the latched fault. -/
def CellTerm.applySets (c : CellTerm) (cause : Bool) : CellTerm :=
  c.setPending.foldl (fun c w =>
    let c := { c with outOfTurn := some w.1 }
    if w.1 = 96 then
      if w.2 ≠ 1 then c
      else if cause then { c with faultKind := 7 }
      else { c with sc := false, ov := false, faultKind := 0, faultTime := 0, faultSw := 0, faultCount := 0 }
    else
      let c := { c with slots := Tbl.set 0 c.slots w.1 w.2 }
      if w.1 = 97 && dHasBypass c.desc then { c with bypassed := w.2 == 1 } else c) { c with setPending := [] }

/-- The value of a switch-position slot in its SLOT_FMT (R93). -/
def swValue (d : List W32) (i : Nat) (on : Bool) : W32 := if !on then 0 else if dSlotFmt d i = 0 then 0x3F800000 else 1

/-- A local fault other than a short circuit (R108, Table 3-9): its kind, 2 to 6, and its time; BLOCKED with cause 4. -/
def CellTerm.localFault (c : CellTerm) (kind time : Nat) : CellTerm :=
  let c := { (if c.ladder = .blocked then c else { c.block 4 with last := none }) with
    ov := c.ov || kind == 2, faultCount := satInc 255 c.faultCount }
  if c.faultKind = 0 ∨ c.faultKind = 7 then { c with faultKind := kind, faultTime := time, faultSw := 0 } else c

/-- A boundary of the cell: the stride's last commands, latched samples and switch positions, setpoints, ladder, timing
port, rotation (R54, R71, R93, R108 to R110, R159). A slot written by a setpoint goes out of turn and the rotation waits.
The timing port is that of the list whose boundary this is, and INTEGRATE is tested against the d of the port before it:
DESIGN CHOICE (log 42). -/
def cellBoundary (samples : List (Nat × W32)) (hot cause : Bool) (fault : Option (Nat × Nat)) (c : CellTerm) : CellTerm :=
  let B := c.stride + 1
  let c := match fault with
    | some (k, t) => c.localFault k t
    | none => c
  let c := c.strideEnds
  let c := { c with stride := B, own := c.own + 1, hot := hot
                    interlock := c.curInterlock, gapStretch := c.curGap, edgesExec := c.curEdges
                    curInterlock := false, curGap := false, curEdges := 0, listSrc := 0, outOfTurn := none }
  let slots := samples.foldl (fun (t : Tbl W32) (x : Nat × W32) => Tbl.set 0 t x.1 x.2) c.slots
  let c := { c with slots := (List.range 16).foldl (fun t i =>
    if dMapped c.desc i then Tbl.set 0 t i (swValue c.desc i (c.sw.testBit i)) else t) slots }
  let c := c.applySets cause
  let c := { c with rot := if c.outOfTurn.isSome then c.rot else nextSlot c.desc c.rot }
  let l? := c.lists.find? fun (l : CellList) => l.boundary % 2 ^ 32 == B % 2 ^ 32
  let c : CellTerm := { c with lists := c.lists.filter fun (l : CellList) => l.boundary % 2 ^ 32 != B % 2 ^ 32 }
  let c := (c.ladderStep l?).setLocal
  { c with timingT := match l? with
      | some l => l.port == 2
      | none => c.timingT }

def execCellBoundary (cell : Fin 2048) (samples : List (Fin 128 × W32)) (hot cause : Bool)
    (fault : Option (Fin 5 × Fin 125000)) (s : State) : Host.Outcome State Fault Refusal :=
  s.act (onTerm cell.val (cellBoundary (samples.map fun x => (x.1.val, x.2)) hot cause
    (fault.map fun f => (2 + f.1.val, f.2.val))))

/-- R97, R105: BLOCK at either port, whatever the bib. -/
def execCellBlock (cell : Fin 2048) (octet : BitVec 8) (s : State) : Host.Outcome State Fault Refusal :=
  s.act (onTerm cell.val fun c =>
    if isBlockOctet octet && c.ladder != .blocked then { c.block 1 with last := none } else c)

/-- The keys of a cell's port at which a block comes in and of the other. -/
def inKey (n : Nat) (fromT : Bool) : Nat := 64 + 2 * n + fromT.toNat
def outKey (n : Nat) (fromT : Bool) : Nat := 64 + 2 * n + (!fromT).toNat

/-- The CRC-32 of a record or segment that passed the cell (R108, R130). -/
def passedOk (f : RxFrame) : Bool :=
  (f.octet != 0x33 && f.octet != 0xCC) || crc32 (bytesOf f.words) == BitVec.ofNat 32 (pf f.payload 31 0)

/-- One block received at a port of a cell and what it gives the other port (R129, R139, R141 to R143): the field is
descrambled; a control block whose octet or check fails goes no further, nor do data blocks behind a bad header. A bad
CRC-32 of a frame that passed is counted. The check of SVC covers its data block too, which
has not come when its header is passed on: DESIGN CHOICE (log 47), the header goes on. -/
def cellForward (n : Nat) (fromT slip : Bool) (blk : Block66) (b : Block) : Block :=
  let i := inKey n fromT
  let o := outKey n fromT
  if !(term b n).powered then b
  else
    let x := scrRun true (port b i).descr blk.field
    let b := onPort i (fun p => { p with descr := x.1 }) b
    if blk.sync = syncData then
      match (port b i).stack with
      | [] => b
      | f :: _ =>
        let r := (port b i).rxData (fieldWords x.2)
        let b := onPort i (fun _ => r.1) b
        let b := onPort o (fun p => { p with tx := addData f.octet f.payload x.2 p.tx }) b
        match r.2 with
        | some g => if passedOk g then b else onTerm n (fun c => { c with crcErrCnt := satInc 255 c.crcErrCnt }) b
        | none => b
    else if blk.sync ≠ syncCtl then b
    else
      let oct := fieldOctet x.2
      let pl := fieldPayload x.2
      if isBlockOctet (BitVec.ofNat 8 oct) then
        onPort o (forwardCtl (term b n).pos slip 0xF0 pl) (onPort i Port.other b)
      else if octetClass oct = none then onPort i (fun p => { p.other with stack := [] }) b
      else if oct ≠ 0x55 ∧ payloadOk oct pl 0 = false then
        onPort i (fun p => { p.other with stack := if oct = 0x5A then [] else p.stack }) b
      else
        let b := if oct = 0x0F then b else if frameLen oct pl = 0 then onPort i Port.other b else onPort i (Port.rxHeader oct pl) b
        onPort o (forwardCtl (term b n).pos slip oct pl) b

/-- R141 to R143: a cell passes on a block out of its other port. What the block says to the cell itself is the event of
its own row (CELL_BLOCK, CELL_DOWNLINK_FRAME and so on). -/
def execCellBlockForward (cell : Fin 2048) (fromT slip : Bool) (sync : BitVec 2) (field : BitVec 64) (s : State) :
    Host.Outcome State Fault Refusal :=
  s.act (cellForward cell.val fromT slip { sync := sync, field := field })

/-- Which edges R101 and R176 let through: count, times, indices, actions, order. Two edges of equal time and equal switch
index pass, and of an on and an off of one switch at one instant the on wins: DESIGN CHOICE (log 42); R101 calls ties
ascending and does not say whether an index may repeat. -/
def edgesOk (d : List W32) (es : List W32) : Bool :=
  decide (es.length ≤ dEMax d)
  && es.all (fun e => decide (bits e 31 15 ≤ 124999) && (dSwMap d).testBit (bits e 14 11) && decide (bits e 10 9 ≤ 1))
  && (es.zip es.tail).all (fun (x : W32 × W32) =>
      decide (bits x.1 31 15 < bits x.2 31 15)
      || (bits x.1 31 15 == bits x.2 31 15 && decide (bits x.1 14 11 ≤ bits x.2 14 11)))

/-- A sub-list judged at the moment its frame is complete (R70, R96, R98, R101, R133). -/
def judgeList (fromT early : Bool) (bib lo14 : Nat) (sub : List W32) (c : CellTerm) : CellTerm :=
  let h := word sub 0
  let ne := bits h 9 5
  let np := bits h 4 1
  let body := (sub.drop 1).take ((if ne = 31 then 0 else ne) + np)
  -- the list was built in this stride or in the one before; its boundary is two later
  let s? := [c.stride, c.stride - 1].find? fun s =>
    s % 2 ^ 14 == lo14 && listCrc bib s (w32 (bits h 15 0)) body == bits h 31 16
  match s? with
  | none => { c with rejectCnt := satInc 255 c.rejectCnt }
  | some s =>
    if some (bits h 15 10) ≠ c.pos ∨ (17 ≤ ne ∧ ne ≤ 30) ∨ (np ≠ 0 ∧ np ≠ dPWords c.desc) then
      { c with rejectCnt := satInc 255 c.rejectCnt }
    else if ne = 31 then c
    else
      let es := body.take ne
      if !edgesOk c.desc es then { c with rejectCnt := satInc 255 c.rejectCnt }
      else if !early then c
      else
        let l : CellList := { boundary := s + 2, bib := bib, port := if fromT then 2 else 1, edges := es
                              params := body.drop ne, integrate := bit h 0 }
        match c.lists.find? fun x => x.boundary == s + 2 with
        | none => { c with lists := c.lists ++ [l] }
        | some x =>
          if x.bib < bib then { c with lists := l :: c.lists.filter fun y => y.boundary != s + 2 }
          else if x.edges = es ∧ x.params = l.params ∧ x.integrate = l.integrate then c
          else { c with conflictAt := some c.stride }

/-- A downlink frame at a cell (R70, R95 to R98, R131 to R134): the BIB header, and when its DL_LEN data blocks are
complete the sub-list that LAYOUT places in it. -/
def cellDownlink (fromT early : Bool) (p : BitVec 56) (words : List W32) (c : CellTerm) : CellTerm :=
  if !c.powered then c
  else if !crc8Ok 0x5A p then { c with crcErrCnt := satInc 255 c.crcErrCnt }
  else
    let bib := pf p 55 32
    let c := c.hear bib
    match c.layout with
    | none => c
    | some (off, len) =>
      if words.length ≠ 2 * pf p 17 8 ∨ bib < c.highest then c
      else judgeList fromT early bib (pf p 31 18) ((words.drop (2 * off)).take (2 * len)) c

def execCellDownlinkFrame (cell : Fin 2048) (fromT : Bool) (payload : BitVec 56) (words : List W32) (early : Bool)
    (s : State) : Host.Outcome State Fault Refusal :=
  s.act (onTerm cell.val (cellDownlink fromT early payload words))

/-- STRIDE at a cell (R160). `arrival` is the first bit's time against the cell's own boundary S+1, in ps. A BLOCKED
cell steps and takes the stride number; another slews by 80 ps at most and blocks after 16 errors beyond 4 ns. What of e
lies beyond 80 ps is left to the next estimate: DESIGN CHOICE (log 42). -/
def cellStride (fromT : Bool) (p : BitVec 56) (arrival : Int) (c : CellTerm) : CellTerm :=
  if !c.powered then c
  else if !crc5Ok 0xC3 p then { c with crcErrCnt := satInc 255 c.crcErrCnt }
  else if fromT ≠ c.timingT ∨ pf p 5 5 = 1 then c
  else
    match if fromT then c.dT else c.dH with
    | none => if c.ladder = .blocked then { c with stride := pf p 55 24 } else c
    | some d =>
      let e : Int := arrival - 10 * d + 10 * (pf p 23 6 : Int)
      if c.ladder = .blocked then { c with stride := pf p 55 24, phase := c.phase + e, errRun := 0 }
      else
        let c := { c with phase := c.phase + max (-80) (min 80 e)
                          errRun := if e.natAbs > 4000 then c.errRun + 1 else 0 }
        if c.errRun ≥ 16 then { c.block 4 with errRun := 0 } else c

def execCellStrideBlock (cell : Fin 2048) (fromT : Bool) (payload : BitVec 56) (arrival : Int) (s : State) :
    Host.Outcome State Fault Refusal :=
  s.act (onTerm cell.val (cellStride fromT payload arrival))

/-- MEASURE at a cell (R155): the ECHO of its target, and the delay for the position it names. -/
def cellMeasure (fromT : Bool) (p : BitVec 56) (turn : Nat) (c : CellTerm) : CellTerm :=
  if !c.powered then c
  else if !crc8Ok 0x69 p then { c with crcErrCnt := satInc 255 c.crcErrCnt }
  else
    let c := if c.pos = some (pf p 39 34) ∧ pf p 33 10 ≠ 0xFFFFFF then
        (if fromT then { c with dT := some (pf p 33 10) } else { c with dH := some (pf p 33 10) }) else c
    if c.pos = some (pf p 55 49) then
      { c with sentEcho := some (withCrc8 0x96
          (pf p 55 49 * 2 ^ 50 + pf p 48 41 * 2 ^ 42 + pf p 40 40 * 2 ^ 41 + turn % 2 ^ 24 * 2 ^ 17)) }
    else c

/-- The ECHO leaves the port at which the MEASURE came in. -/
def execCellMeasure (cell : Fin 2048) (fromT : Bool) (payload : BitVec 56) (turn : Nat) (s : State) :
    Host.Outcome State Fault Refusal :=
  s.act fun b =>
    let c := term b cell.val
    let b := onTerm cell.val (cellMeasure fromT payload turn) b
    if c.powered && crc8Ok 0x69 payload && c.pos == some (pf payload 55 49) then
      sendFrame (inKey cell.val fromT) 0x96 ((term b cell.val).sentEcho.getD 0) [] b
    else b

/-- ENUM at a cell (R75, R86): only from its H port; POS, L and port number taken, forwarded with the counter
incremented, and three segments owed. -/
def cellEnum (fromT : Bool) (p : BitVec 56) (c : CellTerm) : CellTerm :=
  if !c.powered then c
  else if !crc8Ok 0x66 p then { c with crcErrCnt := satInc 255 c.crcErrCnt }
  else if fromT then c
  else { c with pos := some (pf p 55 49), silenceL := pf p 48 42, port := pf p 41 37, enumLeft := 3, enumAt := c.own
                sentEnum := some (withCrc8 0x66 (p.toNat + 2 ^ 49)) }

def execCellEnum (cell : Fin 2048) (fromT : Bool) (payload : BitVec 56) (s : State) :
    Host.Outcome State Fault Refusal :=
  s.act fun b =>
    let go := (term b cell.val).powered && crc8Ok 0x66 payload && !fromT
    let b := onTerm cell.val (cellEnum fromT payload) b
    if go then sendFrame (65 + 2 * cell.val) 0x66 ((term b cell.val).sentEnum.getD 0) [] b else b

/-- A service frame that checks, is addressed to the cell and carries its highest bib (R96). -/
def serviceFrame (kind : Nat) (p : BitVec 56) (value : W32) (c : CellTerm) : CellTerm × Bool :=
  if !c.powered then (c, false)
  else if !svcOk p value then ({ c with crcErrCnt := satInc 255 c.crcErrCnt }, false)
  else
    let c := c.hear (pf p 39 16)
    (c, c.highest ≤ pf p 39 16 && pf p 55 53 == kind && c.pos == some (pf p 52 47))

/-- A setpoint write (R110): queued for the next boundary when its slot is mapped and of class 96 to 127. -/
def execCellSetpointWrite (cell : Fin 2048) (payload : BitVec 56) (value : W32) (s : State) :
    Host.Outcome State Fault Refusal :=
  s.act (onTerm cell.val fun c =>
    let (c, ok) := serviceFrame 0 payload value c
    let i := pf payload 46 40
    if ok && decide (96 ≤ i) && dMapped c.desc i then { c with setPending := c.setPending ++ [(i, value)] } else c)

/-- R134: LAYOUT: block offset after BIB and planned length. -/
def execCellLayout (cell : Fin 2048) (payload : BitVec 56) (value : W32) (s : State) :
    Host.Outcome State Fault Refusal :=
  s.act (onTerm cell.val fun c =>
    let (c, ok) := serviceFrame 1 payload value c
    if ok then { c with layout := some (bits value 31 16, bits value 15 0) } else c)

/-- SNAPSHOT-AT at a cell (R96, R112). -/
def execCellSnapshotAt (cell : Fin 2048) (payload : BitVec 56) (s : State) : Host.Outcome State Fault Refusal :=
  s.act (onTerm cell.val fun c =>
    if !c.powered then c
    else if !crc8Ok 0xA5 payload then { c with crcErrCnt := satInc 255 c.crcErrCnt }
    else
      let c := c.hear (pf payload 55 32)
      if pf payload 55 32 < c.highest ∨ c.snapAt.contains (pf payload 31 8) then c
      else { c with snapAt := c.snapAt ++ [pf payload 31 8] })

/-- R112, R113: at B the cell latches every mapped slot; an old latch is discarded. -/
def execCellSnapshotLatch (cell : Fin 2048) (s : State) : Host.Outcome State Fault Refusal :=
  s.act (onTerm cell.val fun c =>
    if c.snapAt.contains (c.stride % 2 ^ 24) then
      { c with snapAt := c.snapAt.filter fun B => B != c.stride % 2 ^ 24
               snapSent := 0, snapFrom := c.own
               snapLatch := some ((dSlots c.desc).map fun i => Tbl.get 0 c.slots i) }
    else c)

/-- The 16 words of an enumeration segment (R87, R135). -/
def enumSegment (c : CellTerm) (j : Nat) : List W32 :=
  match j with
  | 0 => w64 c.serial ++ [c.firmware, fld (c.pos.getD 0) 31 26, ofInt c.asym] ++ List.replicate 11 0
  | 1 => (List.range 16).map fun k => word c.desc k
  | _ => (List.range 16).map fun k => word c.desc (16 + k)

/-- R87, R111, R112: at most one segment a stride, enumeration before snapshot, in the strides after that of the ENUM or of
the latch; a snapshot is sent twice and then dropped. `sentSeg`: kind, index, pass, words. -/
def segmentSend (c : CellTerm) : CellTerm :=
  if c.segAt = some c.own then c
  else if 0 < c.enumLeft ∧ c.enumAt < c.own then
    { c with enumLeft := c.enumLeft - 1, segAt := some c.own
             sentSeg := [0, w32 (3 - c.enumLeft), 0] ++ enumSegment c (3 - c.enumLeft) }
  else
    match c.snapLatch with
    | none => { c with sentSeg := [] }
    | some l =>
      if c.own ≤ c.snapFrom then { c with sentSeg := [] }
      else
        let n := (l.length + 15) / 16
        let j := c.snapSent % n
        { c with sentSeg := [1, w32 j, w32 (c.snapSent / n)] ++ (List.range 16).map (fun k => word l (16 * j + k))
                 snapSent := c.snapSent + 1, segAt := some c.own
                 snapLatch := if c.snapSent + 1 ≥ 2 * n then none else some l }

/-- A frame leaves both ports of a cell, DIR 0 head-ward and 1 tail-ward. -/
def bothWays (n o : Nat) (pl : Bool → BitVec 56) (words : List W32) (b : Block) : Block :=
  sendFrame (65 + 2 * n) o (pl true) words (sendFrame (64 + 2 * n) o (pl false) words b)

def execCellSegmentSend (cell : Fin 2048) (s : State) : Host.Outcome State Fault Refusal :=
  s.act fun b =>
    let c := term b cell.val
    if !c.powered then b
    else
      let d := segmentSend c
      let b := onTerm cell.val (fun _ => d) b
      if d.segAt = c.segAt then b
      else bothWays cell.val 0xCC (fun t => segPayload (c.pos.getD 0) (word d.sentSeg 0).toNat (word d.sentSeg 1).toNat
        (word d.sentSeg 2).toNat t (d.sentSeg.drop 3)) (d.sentSeg.drop 3) b

/-- R81: TAIL when the T port is dark, or when its partner announced itself as a unit. A T port that is UP with its
receiver searching does not count as dark: DESIGN CHOICE (log 42). -/
def tailOf (b : Block) (n : Nat) : Bool :=
  let p := port b (65 + 2 * n)
  p.st == .dark || p.st == .off || (p.st == .up && p.partnerRole == 2)

/-- The code of a ladder state (Table 3-9). -/
def Ladder.code : Ladder → Nat
  | .run => 0
  | .repeat => 1
  | .hold => 2
  | .blocked => 3

/-- A temperature slot in 1/64 °C, as word 6 of a record carries it: a binary32 slot holds °C; of every other SLOT_FMT the
low 16 bits stand as they are: DESIGN CHOICE (log 42). -/
def tempField (d : List W32) (i : Nat) (v : W32) : Nat :=
  if dSlotFmt d i = 0 then ((max (-32768) (min 32767 (ffloor (fadd (fmul v (ofNatF 64)) (ofRat 1 2))))) % 65536).toNat else bits v 15 0

/-- The telemetry record of the cell's current stride (Table 3-9). -/
def recordOf (c : CellTerm) (tail : Bool) : List W32 :=
  let rot := c.outOfTurn.getD c.rot
  let v := fun i => Tbl.get 0 c.slots i
  [ pack [fld (c.pos.getD 0) 31 26, fld c.ladder.code 25 24, fld c.m 23 17, fld c.blockCause 16 14, flg c.sc 13,
          flg c.ov 12, flg c.interlock 11, flg c.gapStretch 10,
          flg (decide (c.conflictAt = some (c.stride - 1) ∧ 0 < c.stride)) 9, flg c.snapLatch.isSome 8, flg tail 7,
          flg c.bypassed 6, flg c.localRun 5, flg c.paramStale 4, flg c.hot 3],
    w32 c.stride, v 16, v 17, v 18, v 19,
    pack [fld (tempField c.desc 20 (v 20)) 31 16, fld (tempField c.desc 21 (v 21)) 15 0], v 22,
    pack [fld c.faultTime 31 15, fld c.faultSw 14 11, fld c.faultKind 10 8, fld c.faultCount 7 0],
    pack [fld c.edgesExec 31 27, fld c.listSrc 26 25, fld c.rejectCnt 23 16, fld c.crcErrCnt 15 8, fld c.gapCnt 7 0],
    pack [fld c.highest 31 8, fld rot 6 0], v rot ]

/-- R74, R108: the record goes out both ways in every ladder state and while bypassed. -/
def execCellRecordSend (cell : Fin 2048) (s : State) : Host.Outcome State Fault Refusal :=
  s.act fun b =>
    let c := term b cell.val
    let r := recordOf c (tailOf b cell.val)
    if c.powered then
      bothWays cell.val 0x33 (fun t => uprecPayload (c.pos.getD 0) c.stride t r) r (onTerm cell.val (fun c => { c with sentRec := r }) b)
    else b

/-- R106: short circuit on an own switch. The first fault stays in the word; later ones count. -/
def execCellShortCircuit (cell : Fin 2048) (switch : Fin 16) (time : Fin 125000) (s : State) :
    Host.Outcome State Fault Refusal :=
  s.act (onTerm cell.val fun c =>
    let c := { c.block 3 with sc := true, last := none, faultCount := satInc 255 c.faultCount }
    if c.faultKind = 0 ∨ c.faultKind = 7 then
      { c with faultKind := 1, faultTime := time.val, faultSw := switch.val } else c)

end Sys2Proof.Machine
end

