-- ==== Sys2Proof/Machine/Telem.lean ====
section
/-! DEFINITION. TELEM_READ (R550, Table 16-11): status items as they stood at one boundary. -/

namespace Sys2Proof.Machine

/-- Items of a kind; none: no such kind. -/
def telemCount (kind : Nat) : Nat :=
  match kind with
  | 0x01 | 0x02 | 0x13 => 32
  | 0x03 => 272
  | 0x04 | 0x07 | 0x0A => 48
  | 0x05 | 0x06 | 0x15 => 2048
  | 0x08 | 0x0D | 0x0E | 0x10 | 0x12 | 0x14 => 1
  | 0x09 | 0x0F => 2
  | 0x0B => 16
  | 0x0C => 4
  | 0x11 => 5
  | _ => 0

/-- Volt-second readout (Table 5-9). -/
def vsReadout (b : Block) (n : Nat) : List W32 :=
  let c := ledCell b n
  (List.range 16).map (lget b n) ++ [c.clipped, c.dropped, match cellLimb b n with
    | some l => (slLimb b l).clip
    | none => 0, 0]

/-- The last telemetry record, bit 0 of word 0 set where it was missing (R545). -/
def lastRecord (b : Block) (n : Nat) : List W32 :=
  let h := hub b n
  let here := h.recAt == some (now b)
  let r := if here then h.prev else h.record
  let at? := if here then h.prevAt else h.recAt
  let missing := at? != some (m64 (now b + 2 ^ 64 - 1))
  setBits (word r 0) 0 0 missing.toNat :: (List.range 11).map fun k => word r (k + 1)

/-- One item in its table's layout. -/
def telemItem (b : Block) (kind i : Nat) : List W32 :=
  match kind with
  | 0x01 => [chainStatus b i]
  | 0x02 => [portStatus b i]
  | 0x03 => [engineStatus b i]
  | 0x04 => [(slLimb b i).status0, (slLimb b i).r]
  | 0x05 => vsReadout b i
  | 0x06 => (List.range 64).map (lget b i)
  | 0x07 => limbWords b.sup.capFactor b i
  | 0x08 => (modeWords b).take 3
  | 0x09 => sideWords b i
  | 0x0A => [compStatus b i]
  | 0x0B => [legStatus b i]
  | 0x0C => driveStatus b i
  | 0x0D => [pairStatus b]
  | 0x0E => [safetyStatus b]
  | 0x0F => [soStatus b i]
  | 0x10 => timeStatus b
  | 0x11 => [synthStatus b i]
  | 0x12 => powerStatus b
  | 0x13 => [w32 (Nat.min (Tbl.get 0 b.slal.cmdErr i) 0xFFFFFFFF)]
  | 0x14 => [ofInt b.time.synciOff]
  | 0x15 => lastRecord b i
  | _ => []

/-- The response: stride number, then the items; longer than 1,020 words it goes by bulk transfer. -/
def telemRead (args : List W32) (b : Block) : CmdOut :=
  let w := word args 0
  let kind := bits w 31 24
  let first := bits w 23 12
  let count := bits w 11 0
  if args.length ≠ 1 ∧ args.length ≠ 4 then .fail .badArg noDetail
  else if count = 0 ∨ telemCount kind < first + count then badArg 0
  else
    let r := w64 (now b) ++ (List.range count).flatMap fun i => telemItem b kind (first + i)
    if r.length ≤ 1020 then .ok b r
    else if args.length = 4 then .bulk b [] r
    else .fail .badArg noDetail

def execTelemRead (h : Hdr) (args : List W32) (s : State) : Host.Outcome State Fault Refusal :=
  s.act (runCmd h 0x0301 [] (telemRead args))

end Sys2Proof.Machine
end

