-- ==== Sys2Proof/Machine/Dispatch.lean ====
section
/-! DEFINITION. One arm for each command: its meaning, or its rejection by name. -/

namespace Sys2Proof.Machine

def exec (i : Instr) (s : State) : Host.Outcome State Fault Refusal :=
  match i with
  | .hostBlockSet key => Sys2Proof.Machine.execHostBlockSet key s
  | .hostBlockClear key => Sys2Proof.Machine.execHostBlockClear key s
  | .hostWdogWrite v => Sys2Proof.Machine.execHostWdogWrite v s
  | .hostKick => Sys2Proof.Machine.execHostKick s
  | .hostWdogExpiry => Sys2Proof.Machine.execHostWdogExpiry s
  | .pcieLinkDown => Sys2Proof.Machine.execPcieLinkDown s
  | .mbxDoorbell ring requests => Sys2Proof.Machine.execMbxDoorbell ring requests s
  | .mbxDoneClear mask => Sys2Proof.Machine.execMbxDoneClear mask s
  | .evringEnable => Sys2Proof.Machine.execEvringEnable s
  | .evringTailWrite tail => Sys2Proof.Machine.execEvringTailWrite tail s
  | .registerWrite offset v => Sys2Proof.Machine.execRegisterWrite offset v s
  | .eventRingWrite => Sys2Proof.Machine.execEventRingWrite s
  | .eventCoalesceTimeout => Sys2Proof.Machine.execEventCoalesceTimeout s
  | .bulkTransferDone channel error list => Sys2Proof.Machine.execBulkTransferDone channel error list s
  | .indirectArgsFetched mbx args => Sys2Proof.Machine.execIndirectArgsFetched mbx args s
  | .sessionOpen h args => Sys2Proof.Machine.execSessionOpen h args s
  | .sessionAccept h args => Sys2Proof.Machine.execSessionAccept h args s
  | .sessionClose h => Sys2Proof.Machine.execSessionClose h s
  | .cfgWrite h args => Sys2Proof.Machine.execCfgWrite h args s
  | .cfgRead h args => Sys2Proof.Machine.execCfgRead h args s
  | .hostVarWrite h vars => Sys2Proof.Machine.execHostVarWrite h vars s
  | .endpointWrite h address value => Sys2Proof.Machine.execEndpointWrite h address value s
  | .ledgerCoolant h loop temp scale => Sys2Proof.Machine.execLedgerCoolant h loop temp scale s
  | .powerCap h cap => Sys2Proof.Machine.execPowerCap h cap s
  | .pmuNames h stream names => Sys2Proof.Machine.execPmuNames h stream names s
  | .modeRequest h args => Sys2Proof.Machine.execModeRequest h args s
  | .syncheckStart h => Sys2Proof.Machine.execSyncheckStart h s
  | .chainEnumerate h port => Sys2Proof.Machine.execChainEnumerate h port s
  | .portRetrain h port => Sys2Proof.Machine.execPortRetrain h port s
  | .cellIntegrate h cell => Sys2Proof.Machine.execCellIntegrate h cell s
  | .cellBypass h cell => Sys2Proof.Machine.execCellBypass h cell s
  | .cellUnbypass h cell => Sys2Proof.Machine.execCellUnbypass h cell s
  | .protClearComp h rsv lo hi => Sys2Proof.Machine.execProtClearComp h rsv lo hi s
  | .protClearLeg h rsv lo hi => Sys2Proof.Machine.execProtClearLeg h rsv lo hi s
  | .protClearMatrix h rsv lo hi => Sys2Proof.Machine.execProtClearMatrix h rsv lo hi s
  | .protClearCell h rsv lo hi => Sys2Proof.Machine.execProtClearCell h rsv lo hi s
  | .protClearCellResult cell => Sys2Proof.Machine.execProtClearCellResult cell s
  | .spbReset h => Sys2Proof.Machine.execSpbReset h s
  | .safetyArm h => Sys2Proof.Machine.execSafetyArm h s
  | .safetyArmStep current => Sys2Proof.Machine.execSafetyArmStep current s
  | .safetyDisarm h => Sys2Proof.Machine.execSafetyDisarm h s
  | .safetyDegrClear h mask => Sys2Proof.Machine.execSafetyDegrClear h mask s
  | .driveReset h drive => Sys2Proof.Machine.execDriveReset h drive s
  | .telemRead h args => Sys2Proof.Machine.execTelemRead h args s
  | .endpointRead h addresses => Sys2Proof.Machine.execEndpointRead h addresses s
  | .ringRead h first count cell cells => Sys2Proof.Machine.execRingRead h first count cell cells s
  | .logRead h first count => Sys2Proof.Machine.execLogRead h first count s
  | .protAvRead h id => Sys2Proof.Machine.execProtAvRead h id s
  | .snapshotRequest h args => Sys2Proof.Machine.execSnapshotRequest h args s
  | .snapshotCancel h snapId => Sys2Proof.Machine.execSnapshotCancel h snapId s
  | .snapshotList h => Sys2Proof.Machine.execSnapshotList h s
  | .snapshotRead h snapId offset length => Sys2Proof.Machine.execSnapshotRead h snapId offset length s
  | .recTrigger h => Sys2Proof.Machine.execRecTrigger h s
  | .recList h => Sys2Proof.Machine.execRecList h s
  | .recRead h recId part => Sys2Proof.Machine.execRecRead h recId part s
  | .twEventRead h twId => Sys2Proof.Machine.execTwEventRead h twId s
  | .twRemote h args => Sys2Proof.Machine.execTwRemote h args s
  | .timeStep h boundary delta => Sys2Proof.Machine.execTimeStep h boundary delta s
  | .pairFeed h auto mask => Sys2Proof.Machine.execPairFeed h auto mask s
  | .pairTakeLead h => Sys2Proof.Machine.execPairTakeLead h s
  | .pairJoin h boundary peerAlign peerMeas => Sys2Proof.Machine.execPairJoin h boundary peerAlign peerMeas s
  | .pairLeave h => Sys2Proof.Machine.execPairLeave h s
  | .pairHandover h boundary => Sys2Proof.Machine.execPairHandover h boundary s
  | .pairEpochReset h => Sys2Proof.Machine.execPairEpochReset h s
  | .carveLoad h slot engines => Sys2Proof.Machine.execCarveLoad h slot engines s
  | .carveSwap h boundary engines keepState => Sys2Proof.Machine.execCarveSwap h boundary engines keepState s
  | .imageWrite h kind slot image => Sys2Proof.Machine.execImageWrite h kind slot image s
  | .imageActivate h kind bank rsv boundary => Sys2Proof.Machine.execImageActivate h kind bank rsv boundary s
  | .imageConfirm h kind rsv => Sys2Proof.Machine.execImageConfirm h kind rsv s
  | .svnCommit h svn rsv readBack => Sys2Proof.Machine.execSvnCommit h svn rsv readBack s
  | .imageStatus h kind => Sys2Proof.Machine.execImageStatus h kind s
  | .attestReport h nonce => Sys2Proof.Machine.execAttestReport h nonce s
  | .certRead h index => Sys2Proof.Machine.execCertRead h index s
  | .debugChallenge h => Sys2Proof.Machine.execDebugChallenge h s
  | .debugAuthorize h image => Sys2Proof.Machine.execDebugAuthorize h image s
  | .debugRevoke h => Sys2Proof.Machine.execDebugRevoke h s
  | .debugExpiry => Sys2Proof.Machine.execDebugExpiry s
  | .safeCfgSetpw h password => Sys2Proof.Machine.execSafeCfgSetpw h password s
  | .safeCfgOpen h password label => Sys2Proof.Machine.execSafeCfgOpen h password label s
  | .safeCfgWrite h args => Sys2Proof.Machine.execSafeCfgWrite h args s
  | .safeCfgPw h password => Sys2Proof.Machine.execSafeCfgPw h password s
  | .safeCfgCommit h => Sys2Proof.Machine.execSafeCfgCommit h s
  | .safeCfgAbort h => Sys2Proof.Machine.execSafeCfgAbort h s
  | .safeLogRead h first count => Sys2Proof.Machine.execSafeLogRead h first count s
  | .safeCfgSessionTimeout => Sys2Proof.Machine.execSafeCfgSessionTimeout s
  | .safeCfgLockoutEnd => Sys2Proof.Machine.execSafeCfgLockoutEnd s
  | .compSelftest h channels => Sys2Proof.Machine.execCompSelftest h channels s
  | .compSelftestChannelDone cha chr cla clr => Sys2Proof.Machine.execCompSelftestChannelDone cha chr cla clr s
  | .driveKeCheck h drive => Sys2Proof.Machine.execDriveKeCheck h drive s
  | .resolverOffset h drive found => Sys2Proof.Machine.execResolverOffset h drive found s
  | .ledgerCheckpoint h => Sys2Proof.Machine.execLedgerCheckpoint h s
  | .ledgerRestore h cell serial life => Sys2Proof.Machine.execLedgerRestore h cell serial life s
  | .supplyLogRead h => Sys2Proof.Machine.execSupplyLogRead h s
  | .unknownOpcode h opcode => Sys2Proof.Machine.execUnknownOpcode h opcode s
  | .cvNop e f => Sys2Proof.Machine.execCvNop e f s
  | .cvFadd e f => Sys2Proof.Machine.execCvFadd e f s
  | .cvFsub e f => Sys2Proof.Machine.execCvFsub e f s
  | .cvFmul e f => Sys2Proof.Machine.execCvFmul e f s
  | .cvFma e f => Sys2Proof.Machine.execCvFma e f s
  | .cvFmin e f => Sys2Proof.Machine.execCvFmin e f s
  | .cvFmax e f => Sys2Proof.Machine.execCvFmax e f s
  | .cvFabs e f => Sys2Proof.Machine.execCvFabs e f s
  | .cvFneg e f => Sys2Proof.Machine.execCvFneg e f s
  | .cvFrcp e f => Sys2Proof.Machine.execCvFrcp e f s
  | .cvFsqrt e f => Sys2Proof.Machine.execCvFsqrt e f s
  | .cvFcmp e f => Sys2Proof.Machine.execCvFcmp e f s
  | .cvIadd e f => Sys2Proof.Machine.execCvIadd e f s
  | .cvIsub e f => Sys2Proof.Machine.execCvIsub e f s
  | .cvIaddw e f => Sys2Proof.Machine.execCvIaddw e f s
  | .cvIsubw e f => Sys2Proof.Machine.execCvIsubw e f s
  | .cvImulq e f => Sys2Proof.Machine.execCvImulq e f s
  | .cvIshl e f => Sys2Proof.Machine.execCvIshl e f s
  | .cvIshr e f => Sys2Proof.Machine.execCvIshr e f s
  | .cvAnd e f => Sys2Proof.Machine.execCvAnd e f s
  | .cvOr e f => Sys2Proof.Machine.execCvOr e f s
  | .cvXor e f => Sys2Proof.Machine.execCvXor e f s
  | .cvIcmp e f => Sys2Proof.Machine.execCvIcmp e f s
  | .cvUcmp e f => Sys2Proof.Machine.execCvUcmp e f s
  | .cvFtoi e f => Sys2Proof.Machine.execCvFtoi e f s
  | .cvItof e f => Sys2Proof.Machine.execCvItof e f s
  | .cvSincos e f => Sys2Proof.Machine.execCvSincos e f s
  | .cvAtan2 e f => Sys2Proof.Machine.execCvAtan2 e f s
  | .cvSel e f => Sys2Proof.Machine.execCvSel e f s
  | .cvPand e f => Sys2Proof.Machine.execCvPand e f s
  | .cvPor e f => Sys2Proof.Machine.execCvPor e f s
  | .cvPnot e f => Sys2Proof.Machine.execCvPnot e f s
  | .cvLsum e f => Sys2Proof.Machine.execCvLsum e f s
  | .cvLmax e f => Sys2Proof.Machine.execCvLmax e f s
  | .cvLmin e f => Sys2Proof.Machine.execCvLmin e f s
  | .cvLget e f => Sys2Proof.Machine.execCvLget e f s
  | .cvLd e f => Sys2Proof.Machine.execCvLd e f s
  | .cvSt e f => Sys2Proof.Machine.execCvSt e f s
  | .cvLdc e f => Sys2Proof.Machine.execCvLdc e f s
  | .cvXld e f => Sys2Proof.Machine.execCvXld e f s
  | .cvXok e f => Sys2Proof.Machine.execCvXok e f s
  | .cvXldl e f => Sys2Proof.Machine.execCvXldl e f s
  | .cvIntg e f => Sys2Proof.Machine.execCvIntg e f s
  | .cvLim e f => Sys2Proof.Machine.execCvLim e f s
  | .cvBump e f => Sys2Proof.Machine.execCvBump e f s
  | .cvBumpo e f => Sys2Proof.Machine.execCvBumpo e f s
  | .cvPost e f => Sys2Proof.Machine.execCvPost e f s
  | .cvPublish e f => Sys2Proof.Machine.execCvPublish e f s
  | .cvCommit e f => Sys2Proof.Machine.execCvCommit e f s
  | .strideBoundary => Sys2Proof.Machine.execStrideBoundary s
  | .mirrorFreeze engine => Sys2Proof.Machine.execMirrorFreeze engine s
  | .summitWindowStart => Sys2Proof.Machine.execSummitWindowStart s
  | .squadWindowStart => Sys2Proof.Machine.execSquadWindowStart s
  | .sectionStart engine => Sys2Proof.Machine.execSectionStart engine s
  | .closingRoundPost squad => Sys2Proof.Machine.execClosingRoundPost squad s
  | .referenceSlots k => Sys2Proof.Machine.execReferenceSlots k s
  | .fabricBackgroundCycle coach ledger snapshot carve weights => Sys2Proof.Machine.execFabricBackgroundCycle coach ledger snapshot carve weights s
  | .commitTake => Sys2Proof.Machine.execCommitTake s
  | .deadlineMiss engine => Sys2Proof.Machine.execDeadlineMiss engine s
  | .slalomBuild => Sys2Proof.Machine.execSlalomBuild s
  | .slalomOverrun limb => Sys2Proof.Machine.execSlalomOverrun limb s
  | .ledgerStep => Sys2Proof.Machine.execLedgerStep s
  | .ePredUpdate => Sys2Proof.Machine.execEPredUpdate s
  | .ledgerHistoryPeriod => Sys2Proof.Machine.execLedgerHistoryPeriod s
  | .lifeCheckpointDue => Sys2Proof.Machine.execLifeCheckpointDue s
  | .coolantTimeout loop => Sys2Proof.Machine.execCoolantTimeout loop s
  | .localLegFrameSend edges setpoints resolvers => Sys2Proof.Machine.execLocalLegFrameSend edges setpoints resolvers s
  | .localLegFrame => Sys2Proof.Machine.execLocalLegFrame s
  | .localLegFrameMissing => Sys2Proof.Machine.execLocalLegFrameMissing s
  | .summitLost => Sys2Proof.Machine.execSummitLost s
  | .summitResetRelease => Sys2Proof.Machine.execSummitResetRelease s
  | .patrolBoundary => Sys2Proof.Machine.execPatrolBoundary s
  | .patrolStatusFrame crcOk => Sys2Proof.Machine.execPatrolStatusFrame crcOk s
  | .patrolLost => Sys2Proof.Machine.execPatrolLost s
  | .senseLost => Sys2Proof.Machine.execSenseLost s
  | .senseSamples prec high => Sys2Proof.Machine.execSenseSamples prec high s
  | .coachLockstepMismatch => Sys2Proof.Machine.execCoachLockstepMismatch s
  | .coachRestartDone failed => Sys2Proof.Machine.execCoachRestartDone failed s
  | .ddrUncorrectable address lo hi record => Sys2Proof.Machine.execDdrUncorrectable address lo hi record s
  | .engineEccUncorrectable engine cycle => Sys2Proof.Machine.execEngineEccUncorrectable engine cycle s
  | .engineScrub engine corrected bankBad => Sys2Proof.Machine.execEngineScrub engine corrected bankBad s
  | .blockLineAssert copy => Sys2Proof.Machine.execBlockLineAssert copy s
  | .blockLineRelease => Sys2Proof.Machine.execBlockLineRelease s
  | .uplinkRecord cell payload skip record cycle => Sys2Proof.Machine.execUplinkRecord cell payload skip record cycle s
  | .recordMissing cell => Sys2Proof.Machine.execRecordMissing cell s
  | .cellSilent cell => Sys2Proof.Machine.execCellSilent cell s
  | .uplinkLate port => Sys2Proof.Machine.execUplinkLate port s
  | .bypassTimeout cell => Sys2Proof.Machine.execBypassTimeout cell s
  | .unbypassTimeout cell => Sys2Proof.Machine.execUnbypassTimeout cell s
  | .downlinkSend port offset => Sys2Proof.Machine.execDownlinkSend port offset s
  | .layoutSend port => Sys2Proof.Machine.execLayoutSend port s
  | .setpointSend port => Sys2Proof.Machine.execSetpointSend port s
  | .snapshotAtSend port inTime => Sys2Proof.Machine.execSnapshotAtSend port inTime s
  | .measureSend port t1 => Sys2Proof.Machine.execMeasureSend port t1 s
  | .echoReceived port payload t4 => Sys2Proof.Machine.execEchoReceived port payload t4 s
  | .echoTimeout port => Sys2Proof.Machine.execEchoTimeout port s
  | .enumSegment cell payload skip words => Sys2Proof.Machine.execEnumSegment cell payload skip words s
  | .snapshotSegment cell payload skip values => Sys2Proof.Machine.execSnapshotSegment cell payload skip values s
  | .enumTimeout port => Sys2Proof.Machine.execEnumTimeout port s
  | .enumRetry port => Sys2Proof.Machine.execEnumRetry port s
  | .snapshotUploadClose port snapId => Sys2Proof.Machine.execSnapshotUploadClose port snapId s
  | .snapshotLatch => Sys2Proof.Machine.execSnapshotLatch s
  | .snapshotAssembled snapId => Sys2Proof.Machine.execSnapshotAssembled snapId s
  | .calibrationSwitch => Sys2Proof.Machine.execCalibrationSwitch s
  | .carveBankSwap => Sys2Proof.Machine.execCarveBankSwap s
  | .modeChange => Sys2Proof.Machine.execModeChange s
  | .configAtBoundary => Sys2Proof.Machine.execConfigAtBoundary s
  | .cellPowerUp cell serial firmware asym desc ranges => Sys2Proof.Machine.execCellPowerUp cell serial firmware asym desc ranges s
  | .cellBoundary cell samples hot cause fault => Sys2Proof.Machine.execCellBoundary cell samples hot cause fault s
  | .cellBlock cell octet => Sys2Proof.Machine.execCellBlock cell octet s
  | .cellDownlinkFrame cell fromT payload words early => Sys2Proof.Machine.execCellDownlinkFrame cell fromT payload words early s
  | .cellStrideBlock cell fromT payload arrival => Sys2Proof.Machine.execCellStrideBlock cell fromT payload arrival s
  | .cellMeasure cell fromT payload turn => Sys2Proof.Machine.execCellMeasure cell fromT payload turn s
  | .cellEnum cell fromT payload => Sys2Proof.Machine.execCellEnum cell fromT payload s
  | .cellSetpointWrite cell payload value => Sys2Proof.Machine.execCellSetpointWrite cell payload value s
  | .cellLayout cell payload value => Sys2Proof.Machine.execCellLayout cell payload value s
  | .cellSnapshotAt cell payload => Sys2Proof.Machine.execCellSnapshotAt cell payload s
  | .cellSnapshotLatch cell => Sys2Proof.Machine.execCellSnapshotLatch cell s
  | .cellSegmentSend cell => Sys2Proof.Machine.execCellSegmentSend cell s
  | .cellRecordSend cell => Sys2Proof.Machine.execCellRecordSend cell s
  | .cellShortCircuit cell switch time => Sys2Proof.Machine.execCellShortCircuit cell switch time s
  | .cellBlockForward cell fromT slip sync field => Sys2Proof.Machine.execCellBlockForward cell fromT slip sync field s
  | .portRestart p => Sys2Proof.Machine.execPortRestart p s
  | .blockLockGained p converged headers => Sys2Proof.Machine.execBlockLockGained p converged headers s
  | .blockLockLost p signal headers => Sys2Proof.Machine.execBlockLockLost p signal headers s
  | .helloReceived p payload sent => Sys2Proof.Machine.execHelloReceived p payload sent s
  | .kickReceived p payload => Sys2Proof.Machine.execKickReceived p payload s
  | .eidleReceived p payload => Sys2Proof.Machine.execEidleReceived p payload s
  | .idleExitTimeout p => Sys2Proof.Machine.execIdleExitTimeout p s
  | .signalDetected p => Sys2Proof.Machine.execSignalDetected p s
  | .trainTimeout p signal => Sys2Proof.Machine.execTrainTimeout p signal s
  | .darkRetry p => Sys2Proof.Machine.execDarkRetry p s
  | .helloKeepalive p => Sys2Proof.Machine.execHelloKeepalive p s
  | .controlBlockDiscard p octet payload data => Sys2Proof.Machine.execControlBlockDiscard p octet payload data s
  | .compAssert comp samples offset => Sys2Proof.Machine.execCompAssert comp samples offset s
  | .compRelease comp samples offset => Sys2Proof.Machine.execCompRelease comp samples offset s
  | .tripMatrixTrip offset copies => Sys2Proof.Machine.execTripMatrixTrip offset copies s
  | .blockBurstEnd offset => Sys2Proof.Machine.execBlockBurstEnd offset s
  | .matrixDisagree offset => Sys2Proof.Machine.execMatrixDisagree offset s
  | .matrixCrcCheck badA badB => Sys2Proof.Machine.execMatrixCrcCheck badA badB s
  | .legEnRise leg offset => Sys2Proof.Machine.execLegEnRise leg offset s
  | .blankingEnd leg offset => Sys2Proof.Machine.execBlankingEnd leg offset s
  | .legHardTh leg samples offset => Sys2Proof.Machine.execLegHardTh leg samples offset s
  | .legScTh leg samples offset => Sys2Proof.Machine.execLegScTh leg samples offset s
  | .chopPeriod chop offset => Sys2Proof.Machine.execChopPeriod chop offset s
  | .chopEnergyUpdate chop => Sys2Proof.Machine.execChopEnergyUpdate chop s
  | .gooseFrame port f => Sys2Proof.Machine.execGooseFrame port f s
  | .gooseStale sub => Sys2Proof.Machine.execGooseStale sub s
  | .avalancheClose => Sys2Proof.Machine.execAvalancheClose s
  | .evAvalanche => Sys2Proof.Machine.execEvAvalanche s
  | .legChange leg dst offset => Sys2Proof.Machine.execLegChange leg dst offset s
  | .legOnDeferred leg offset => Sys2Proof.Machine.execLegOnDeferred leg offset s
  | .legForceRelease leg offset => Sys2Proof.Machine.execLegForceRelease leg offset s
  | .bootRefresh leg offset => Sys2Proof.Machine.execBootRefresh leg offset s
  | .bootPrecharge leg offset => Sys2Proof.Machine.execBootPrecharge leg offset s
  | .bootStarve leg => Sys2Proof.Machine.execBootStarve leg s
  | .catchWindowEnd drive offset crossings interval forward sector peak vdc => Sys2Proof.Machine.execCatchWindowEnd drive offset crossings interval forward sector peak vdc s
  | .brakeIntervalEnd drive offset => Sys2Proof.Machine.execBrakeIntervalEnd drive offset s
  | .brakeMaxExpiry drive offset => Sys2Proof.Machine.execBrakeMaxExpiry drive offset s
  | .alignEnd drive => Sys2Proof.Machine.execAlignEnd drive s
  | .recoverEnd drive offset => Sys2Proof.Machine.execRecoverEnd drive offset s
  | .bemfZeroCrossing drive offset interval => Sys2Proof.Machine.execBemfZeroCrossing drive offset interval s
  | .sectorCommutate drive offset => Sys2Proof.Machine.execSectorCommutate drive offset s
  | .speedLoop drive offset current => Sys2Proof.Machine.execSpeedLoop drive offset current s
  | .observerLoss drive offset => Sys2Proof.Machine.execObserverLoss drive offset s
  | .driveForced drive offset => Sys2Proof.Machine.execDriveForced drive offset s
  | .debugFreeze => Sys2Proof.Machine.execDebugFreeze s
  | .debugFreezeEnd offset => Sys2Proof.Machine.execDebugFreezeEnd offset s
  | .pairLinkUp delay => Sys2Proof.Machine.execPairLinkUp delay s
  | .pairDelayMeasure delay => Sys2Proof.Machine.execPairDelayMeasure delay s
  | .timeBlock payload arrival => Sys2Proof.Machine.execTimeBlock payload arrival s
  | .pairStepSend => Sys2Proof.Machine.execPairStepSend s
  | .stepFrame words crc => Sys2Proof.Machine.execStepFrame words crc s
  | .inputFrame port stride data crc => Sys2Proof.Machine.execInputFrame port stride data crc s
  | .measFrame stride data crc => Sys2Proof.Machine.execMeasFrame stride data crc s
  | .cmdFrame stride opcode data crc => Sys2Proof.Machine.execCmdFrame stride opcode data crc s
  | .feedFrame port offset bib words svc snap crc => Sys2Proof.Machine.execFeedFrame port offset bib words svc snap crc s
  | .syncFrame stride d ok => Sys2Proof.Machine.execSyncFrame stride d ok s
  | .nakFrame kind stride key => Sys2Proof.Machine.execNakFrame kind stride key s
  | .partnerWork => Sys2Proof.Machine.execPartnerWork s
  | .digestCompare => Sys2Proof.Machine.execDigestCompare s
  | .strike heads => Sys2Proof.Machine.execStrike heads s
  | .promotion => Sys2Proof.Machine.execPromotion s
  | .relinquish => Sys2Proof.Machine.execRelinquish s
  | .feedDecision reached => Sys2Proof.Machine.execFeedDecision reached s
  | .pairColdStart peerPref => Sys2Proof.Machine.execPairColdStart peerPref s
  | .joinAtBoundary => Sys2Proof.Machine.execJoinAtBoundary s
  | .epochRecordWrite => Sys2Proof.Machine.execEpochRecordWrite s
  | .spbFilterChange a b offset => Sys2Proof.Machine.execSpbFilterChange a b offset s
  | .coreDisagree offset => Sys2Proof.Machine.execCoreDisagree offset s
  | .sptTestPulse channel own other => Sys2Proof.Machine.execSptTestPulse channel own other s
  | .spbDiscrepancy => Sys2Proof.Machine.execSpbDiscrepancy s
  | .soTestStart => Sys2Proof.Machine.execSoTestStart s
  | .soTestCheck closed current => Sys2Proof.Machine.execSoTestCheck closed current s
  | .soCoilLow output current strides => Sys2Proof.Machine.execSoCoilLow output current strides s
  | .ploughExpired => Sys2Proof.Machine.execPloughExpired s
  | .ploughBackstop => Sys2Proof.Machine.execPloughBackstop s
  | .testDueCheck => Sys2Proof.Machine.execTestDueCheck s
  | .modeStrideEval => Sys2Proof.Machine.execModeStrideEval s
  | .orderlyStopEnd => Sys2Proof.Machine.execOrderlyStopEnd s
  | .chargeTimeout => Sys2Proof.Machine.execChargeTimeout s
  | .dischargeTimeout => Sys2Proof.Machine.execDischargeTimeout s
  | .coastMaxExpiry => Sys2Proof.Machine.execCoastMaxExpiry s
  | .returnClassify => Sys2Proof.Machine.execReturnClassify s
  | .jumpCorrection => Sys2Proof.Machine.execJumpCorrection s
  | .jumpBlock => Sys2Proof.Machine.execJumpBlock s
  | .jumpBlockEnd => Sys2Proof.Machine.execJumpBlockEnd s
  | .clExpiry => Sys2Proof.Machine.execClExpiry s
  | .gridMeasure => Sys2Proof.Machine.execGridMeasure s
  | .phaseAZeroCrossing lv ps => Sys2Proof.Machine.execPhaseAZeroCrossing lv ps s
  | .syncheckEval => Sys2Proof.Machine.execSyncheckEval s
  | .syncheckTimeout => Sys2Proof.Machine.execSyncheckTimeout s
  | .timeMeasurement => Sys2Proof.Machine.execTimeMeasurement s
  | .liftStep => Sys2Proof.Machine.execLiftStep s
  | .timeStepAct => Sys2Proof.Machine.execTimeStepAct s
  | .pairStepAct => Sys2Proof.Machine.execPairStepAct s
  | .incrUpdate => Sys2Proof.Machine.execIncrUpdate s
  | .ptpMessage port m => Sys2Proof.Machine.execPtpMessage port m s
  | .ppsInEdge stamp label => Sys2Proof.Machine.execPpsInEdge stamp label s
  | .irigFrame stamp label => Sys2Proof.Machine.execIrigFrame stamp label s
  | .timeSourceLost source => Sys2Proof.Machine.execTimeSourceLost source s
  | .holdoverExpiry => Sys2Proof.Machine.execHoldoverExpiry s
  | .leapSecond => Sys2Proof.Machine.execLeapSecond s
  | .refclkOutOfBand => Sys2Proof.Machine.execRefclkOutOfBand s
  | .synciEdge offset => Sys2Proof.Machine.execSynciEdge offset s
  | .synciLost => Sys2Proof.Machine.execSynciLost s
  | .syncoPulse => Sys2Proof.Machine.execSyncoPulse s
  | .ppsOutPulse => Sys2Proof.Machine.execPpsOutPulse s
  | .pllUnlock synth => Sys2Proof.Machine.execPllUnlock synth s
  | .pllLock synth micros => Sys2Proof.Machine.execPllLock synth micros s
  | .pllHop => Sys2Proof.Machine.execPllHop s
  | .phasorReport stream soc index => Sys2Proof.Machine.execPhasorReport stream soc index s
  | .pmuCommand stream idcode cmd tcp => Sys2Proof.Machine.execPmuCommand stream idcode cmd tcp s
  | .twArrival line stride index mode lead codes => Sys2Proof.Machine.execTwArrival line stride index mode lead codes s
  | .twWindowClose line => Sys2Proof.Machine.execTwWindowClose line s
  | .twTag line words => Sys2Proof.Machine.execTwTag line words s
  | .twTagWaitEnd line => Sys2Proof.Machine.execTwTagWaitEnd line s
  | .twHoldoffEnd line => Sys2Proof.Machine.execTwHoldoffEnd line s
  | .recTriggerEval => Sys2Proof.Machine.execRecTriggerEval s
  | .recordClose => Sys2Proof.Machine.execRecordClose s
  | .recCopyDone => Sys2Proof.Machine.execRecCopyDone s
  | .suppliesGood => Sys2Proof.Machine.execSuppliesGood s
  | .baseReached ms failed => Sys2Proof.Machine.execBaseReached ms failed s
  | .midStationReached ms failed => Sys2Proof.Machine.execMidStationReached ms failed s
  | .liftFail fail => Sys2Proof.Machine.execLiftFail fail s
  | .resetNLow ns => Sys2Proof.Machine.execResetNLow ns s
  | .dipBegin rail us mv => Sys2Proof.Machine.execDipBegin rail us mv s
  | .dipEnd rail us mv => Sys2Proof.Machine.execDipEnd rail us mv s
  | .dip2ms rail us => Sys2Proof.Machine.execDip2ms rail us s
  | .railReset rail us mv => Sys2Proof.Machine.execRailReset rail us mv s
  | .dieRelease summit => Sys2Proof.Machine.execDieRelease summit s
  | .flashWaitTimeout => Sys2Proof.Machine.execFlashWaitTimeout s
  | .thermalReading code => Sys2Proof.Machine.execThermalReading code s
  | .throttleEval => Sys2Proof.Machine.execThrottleEval s
  | .trialTimeout patrol => Sys2Proof.Machine.execTrialTimeout patrol s
  | .patrolRestartDone failed => Sys2Proof.Machine.execPatrolRestartDone failed s
  | .recoveryImageWrite h image => Sys2Proof.Machine.execRecoveryImageWrite h image s
  | .cellPowerLoss cell => Sys2Proof.Machine.execCellPowerLoss cell s
  | .flashWriteDone job ok failed => Sys2Proof.Machine.execFlashWriteDone job ok failed s
  | .carveLoadDone slot => Sys2Proof.Machine.execCarveLoadDone slot s
  | .forcedCommutation drive offset => Sys2Proof.Machine.execForcedCommutation drive offset s
  | .refclkReturn => Sys2Proof.Machine.execRefclkReturn s
  | .stationPortLinkChange port up => Sys2Proof.Machine.execStationPortLinkChange port up s
  | .pairMeasSend => Sys2Proof.Machine.execPairMeasSend s
  | .pairInputSend port => Sys2Proof.Machine.execPairInputSend port s
  | .pairInputDeadline => Sys2Proof.Machine.execPairInputDeadline s

end Sys2Proof.Machine
end

