-- ==== Sys2Proof/Safety.lean ====
section
/-! DEFINITION. The words claims are stated in: a command that completes, a host command that is admitted, its answer, and
what counts as a safe run of the block. -/

namespace Sys2Proof

open Machine

/-- The command answers a next state, with the queue as it was and a block of which `P` holds. -/
def Completes (i : Instr) (s : State) (P : Block → Prop) : Prop :=
  ∃ t : State, exec i s = .next t ∧ t.pending = s.pending ∧ P t.blk

/-- A host command of this opcode that names these objects is taken: the Coach runs from an image of its own, the session is
accepted, its feature negotiated, no object held by a waiting command (R535, R546, R547, R576). -/
def Admitted (b : Block) (op : Nat) (objs : List Obj) : Prop :=
  b.sup.fail ≠ 4 ∧ b.host.sessionAccepted = true ∧ feature b (groupFeature op) = true ∧ objs.any (held b) = false

/-- The response of Table 16-4 stands in the mailbox of the request, its DONE is set and its BUSY clear (R534). -/
def Answered (h : Hdr) (st : Status) (detail : Nat) (args : List W32) (b : Block) : Prop :=
  Tbl.get [] b.host.responses h.mbx.val
      = [pack [fld st.code 31 16, fld h.tag.toNat 15 0], pack [fld args.length 31 16, fld detail 15 0]] ++ args
    ∧ b.host.done.getLsbD h.mbx.val = true ∧ b.host.busy.getLsbD h.mbx.val = false

/-- Nothing differs from `b` but one mailbox: its response, DONE, BUSY and one message of vector 1. -/
def OnlyMailbox (m : Fin 8) (b b' : Block) : Prop :=
  Tbl.get 0 b'.host.msix 1 = Tbl.get 0 b.host.msix 1 + 1
    ∧ (∀ v, v ≠ 1 → Tbl.get 0 b'.host.msix v = Tbl.get 0 b.host.msix v)
    ∧ (∀ k : Fin 8, k ≠ m → Tbl.get [] b'.host.responses k.val = Tbl.get [] b.host.responses k.val
        ∧ b'.host.done.getLsbD k.val = b.host.done.getLsbD k.val ∧ b'.host.busy.getLsbD k.val = b.host.busy.getLsbD k.val)
    ∧ b' = { b with host := { b.host with responses := b'.host.responses, done := b'.host.done
                                          busy := b'.host.busy, msix := b'.host.msix } }

/-- The block that `b'` is: `b` with the answer to request `h` and nothing else changed. -/
def Answers (h : Hdr) (st : Status) (detail : Nat) (args : List W32) (b b' : Block) : Prop :=
  Answered h st detail args b' ∧ OnlyMailbox h.mbx b b'

/-- Trip-matrix input `i` is active. -/
def Active (b : Block) (i : Nat) : Prop := b.prot.inputs.getLsbD i = true

/-- The newest event of the log. -/
def LastEvent (b : Block) (e : Ev) (payload : List W32) : Prop :=
  (b.ev.log.head?.map fun r => (r.code, r.payload)) = some (e.code, payload)

/-- The lanes in which an instruction with this predicate is enabled (R214). -/
def lanesOf (g : Engine) (pred : Nat) (pinv : Bool) : List Nat := (List.range 8).filter (g.enabled pred pinv)

/-- The registers with vD of every named lane set to its own value. -/
def writeLanes (g : Engine) (ls : List Nat) (d : Nat) (v : Nat → W32) : Tbl W32 :=
  ls.foldl (fun (t : Tbl W32) j => Tbl.set 0 t (32 * j + d) (v j)) g.regs

/-- The predicates with pD of every named lane set to its own value; p0, p6 and p7 are fixed (R209). -/
def writePreds (g : Engine) (ls : List Nat) (p : Nat) (v : Nat → Bool) : Tbl Bool :=
  if p = 0 ∨ p = 6 ∨ p = 7 then g.preds else ls.foldl (fun (t : Tbl Bool) j => Tbl.set false t (8 * j + p) (v j)) g.preds

/-- The instruction that its engine issues next (R205, R212) completes, leaves everything but its engine as it was, and its engine
as `g'` at the next word after the cycles it takes (R213); one that the engine does not issue changes nothing. -/
def Runs (i : Instr) (s : State) (e : Fin 272) (cost : Nat) (g' : Engine) : Prop :=
  (nextInsn s.blk e = some i → Completes i s fun b =>
    engine b e.val = { g' with lastIssue := some (engine s.blk e.val).cyc, cyc := (engine s.blk e.val).cyc + cost
                               pos := (engine s.blk e.val).pos + 1 }
      ∧ (∀ n, n ≠ e.val → engine b n = engine s.blk n) ∧ b = { s.blk with eng := b.eng })
  ∧ (nextInsn s.blk e ≠ some i → Completes i s fun b => b = s.blk)

/-- The words of a format R and of a format M instruction (Table 6-5). -/
def wordR (op : Nat) (f : FmtR) : W32 :=
  pack [fld op 31 26, fld f.pred.val 25 23, flg f.pinv 22, fld f.d.val 21 17, fld f.a.val 16 12, fld f.b.val 11 7, fld f.x.val 6 0]
def wordM (op : Nat) (m : FmtM) : W32 :=
  pack [fld op 31 26, fld m.pred.val 25 23, flg m.pinv 22, fld m.d.val 21 17, fld m.imm.val 16 7, fld m.x.val 6 0]

/-- No mailbox is BUSY and DONE at once (R534). -/
def MailboxesApart (s : State) : Prop := s.blk.host.busy &&& s.blk.host.done = 0

/-- The tables of cell positions and of cell terminals are in their canonical form: numbers rising, none listed at what an unlisted
one reads as. -/
def Canonical (s : State) : Prop := Tbl.wf {} s.blk.cells = true ∧ Tbl.wf {} s.blk.terms = true

/-- What counts as safe of a run: every command of it is answered with a next state. -/
def SafeRun (s : State) (n : Nat) : Prop := ∃ t, Host.Core.run core n s = .next t

end Sys2Proof
end

