-- ==== Sys2Proof/Certificates/Slice0/Obligations.lean ====
section
/-! DEFINITION. The statements about the block, by family of commands. Where a statement rests on a choice of the model, its
docstring names the log entry. -/

open Sys2Proof Sys2Proof.Machine

/-- A step takes the front command, and every command completes; that one slot of the lanes passes on an empty queue is the model's choice, log 7. -/
def Obligations.StepRunsFront : Prop :=
  (∀ (c : Instr) (q : List Instr) (s : State), step { s with pending := c :: q } = exec c { s with pending := q })
    ∧ (∀ (c : Instr) (s : State), Completes c s fun _ => True)
    ∧ ∀ s : State, s.pending = [] → step s = .next { s with blk := tick s.blk }

/-- Reset values of the direct register block and of the state whose reset the spec gives -/
def Obligations.ResetValues : Prop :=
  (∀ lift : W32, ∀ e ∈ [(0x000, (0x20484542 : W32)), (0x004, 0x01010101), (0x014, 0), (0x018, 0), (0x01C, 0), (0x020, 0), (0x024, 0),
      (0x028, 0), (0x02C, 0), (0x030, 0), (0x034, 0), (0x038, 0), (0x03C, 0), (0x040, 0), (0x044, 0), (0x048, 0x00010A0A),
      (0x04C, 0), (0x050, 0), (0x054, 0)], registerRead lift e.1 State.reset.blk = e.2)
    ∧ State.reset.blk.md.mode = .safe
    ∧ (∀ p, (Tbl.get {} State.reset.blk.chains p).st = .dark)
    ∧ (∀ k, (Tbl.get {} State.reset.blk.ev.queues k).q = []) ∧ State.reset.blk.ev.seq = 0 ∧ State.reset.pending = []
    ∧ Canonical State.reset ∧ MailboxesApart State.reset

/-- HOST_BLOCK: the key, the request, the two trip flags and trip-matrix input 64 -/
def Obligations.HostBlockWrite : Prop :=
  ∀ (key : BitVec 16) (s : State),
    (key = 0xB10C →
      Completes (.hostBlockSet key) s (fun b =>
        b = { s.blk with host := { s.blk.host with req := true, msix := b.host.msix }
                         prot := { s.blk.prot with inputs := s.blk.prot.inputs ||| (1#72 <<< 64) } }
          ∧ (∀ v, Tbl.get 0 b.host.msix v
              = Tbl.get 0 s.blk.host.msix v + if v = 2 ∧ s.blk.host.req = false then 1 else 0))
      ∧ Completes (.hostBlockClear key) s (fun b =>
        b = { s.blk with host := { s.blk.host with req := false, wdogTrip := false, linkTrip := false }
                         prot := { s.blk.prot with inputs := s.blk.prot.inputs &&& ~~~(1#72 <<< 64) } }))
    ∧ (key ≠ 0xB10C → ∀ i ∈ [Instr.hostBlockSet key, .hostBlockClear key],
        Completes i s (fun b => b = { s.blk with
          host.badKey := if s.blk.host.badKey < 255 then s.blk.host.badKey + 1 else s.blk.host.badKey }))

/-- The host watchdog and the link guard -/
def Obligations.HostWatchdog : Prop :=
  ∀ (v : W32) (s : State),
    Completes (.hostWdogWrite v) s (fun b => b = { s.blk with host := { s.blk.host with
        wdogPeriod := bits v 31 16, linkArm := bit v 0, kicks := s.blk.host.kicks + 1, kickAt := now s.blk } })
    ∧ Completes .hostKick s (fun b => b = { s.blk with host := { s.blk.host with kicks := s.blk.host.kicks + 1, kickAt := now s.blk } })
    ∧ (s.blk.host.wdogPeriod = 0 ∨ now s.blk < s.blk.host.kickAt + 99 * s.blk.host.wdogPeriod →
        Completes .hostWdogExpiry s (fun b => b = s.blk))
    ∧ (s.blk.host.wdogPeriod ≠ 0 → s.blk.host.kickAt + 99 * s.blk.host.wdogPeriod ≤ now s.blk → Completes .hostWdogExpiry s (fun b =>
        b = { s.blk with host := { s.blk.host with req := true, wdogTrip := true, msix := b.host.msix }
                         prot := { s.blk.prot with inputs := s.blk.prot.inputs ||| (1#72 <<< 64) } }
          ∧ ∀ v, Tbl.get 0 b.host.msix v = Tbl.get 0 s.blk.host.msix v + if v = 2 ∧ s.blk.host.req = false then 1 else 0))
    ∧ (s.blk.host.channels = [] → s.blk.host.bulkWait = [] →
        Completes .pcieLinkDown s (fun b =>
          b.host = { s.blk.host with sessionOpen := false, sessionAccepted := false, features := 0, evEn := false
                                     channels := [], bulkWait := []
                                     req := s.blk.host.req || s.blk.host.linkArm
                                     linkTrip := s.blk.host.linkTrip || s.blk.host.linkArm, msix := b.host.msix }
            ∧ b = { s.blk with host := b.host
                               prot := { s.blk.prot with inputs :=
                                 if s.blk.host.linkArm = true then s.blk.prot.inputs ||| (1#72 <<< 64) else s.blk.prot.inputs } }))

/-- Doorbells: acceptance, the mailbox in use, a held doorbell, DONE, indirect arguments -/
def Obligations.Doorbells : Prop :=
  ∀ (m : Fin 8) (rs : List (List W32)) (s : State),
    (∀ ring : BitVec 8, s.blk.host.coachUp = true → ring &&& (s.blk.host.busy ||| s.blk.host.done) = 0 →
      (∀ k : Fin 8, ring.getLsbD k.val = true →
        (rs.getD k.val []).length = bits (word (rs.getD k.val []) 1) 31 16 + 2 ∧ bits (word (rs.getD k.val []) 1) 31 16 ≤ 1022
          ∧ bits (word (rs.getD k.val []) 1) 15 0 = 0) →
      Completes (.mbxDoorbell ring rs) s (fun b =>
        (∀ k : Fin 8, Tbl.get [] b.host.requests k.val
            = if ring.getLsbD k.val then rs.getD k.val [] else Tbl.get [] s.blk.host.requests k.val)
          ∧ b = { s.blk with host := { s.blk.host with busy := s.blk.host.busy ||| ring, requests := b.host.requests } }))
    ∧ (s.blk.host.coachUp = true → s.blk.host.busy.getLsbD m.val = false → s.blk.host.done.getLsbD m.val = false →
        (rs.getD m.val []).length = 5 → bits (word (rs.getD m.val []) 1) 31 16 = 3 →
        bits (word (rs.getD m.val []) 1) 15 0 = 2 → feature s.blk 8 = true → bits (word (rs.getD m.val []) 2) 2 0 = 0 →
        1 ≤ (word (rs.getD m.val []) 4).toNat → (word (rs.getD m.val []) 4).toNat ≤ 262144 →
        Completes (.mbxDoorbell (1#8 <<< m.val) rs) s (fun b =>
          b = { s.blk with host := { s.blk.host with
                  busy := s.blk.host.busy ||| (1#8 <<< m.val)
                  requests := Tbl.set [] s.blk.host.requests m.val (rs.getD m.val []) } }))
    ∧ (s.blk.host.coachUp = true → s.blk.host.busy.getLsbD m.val = false → s.blk.host.done.getLsbD m.val = false →
        bits (word (rs.getD m.val []) 1) 15 2 ≠ 0 ∨ bit (word (rs.getD m.val []) 1) 0 = true
          ∨ (rs.getD m.val []).length ≠ bits (word (rs.getD m.val []) 1) 31 16 + 2
          ∨ bits (word (rs.getD m.val []) 1) 31 16 > 1022 →
        Completes (.mbxDoorbell (1#8 <<< m.val) rs) s (fun b =>
          Answered ⟨m, BitVec.ofNat 16 (bits (word (rs.getD m.val []) 0) 15 0)⟩ .badArg noDetail [] b))
    ∧ (s.blk.host.coachUp = true → s.blk.host.busy.getLsbD m.val = true →
        Completes (.mbxDoorbell (1#8 <<< m.val) rs) s (fun b =>
          b = { s.blk with host.dbErr := if s.blk.host.dbErr < 255 then s.blk.host.dbErr + 1 else s.blk.host.dbErr }))
    ∧ (s.blk.host.coachUp = true → s.blk.host.busy.getLsbD m.val = false → s.blk.host.done.getLsbD m.val = true →
        Completes (.mbxDoorbell (1#8 <<< m.val) rs) s (fun b =>
          b = { s.blk with host := { s.blk.host with
                  dbErr := if s.blk.host.dbErr < 255 then s.blk.host.dbErr + 1 else s.blk.host.dbErr
                  requests := Tbl.set [] s.blk.host.requests m.val (rs.getD m.val []) } }))
    ∧ (s.blk.host.coachUp = false → s.blk.sup.fail ≠ 4 →
        Completes (.mbxDoorbell (1#8 <<< m.val) rs) s (fun b =>
          b = { s.blk with host := { s.blk.host with
                  held := s.blk.host.held ++ [m.val]
                  requests := if s.blk.host.busy.getLsbD m.val then s.blk.host.requests
                    else Tbl.set [] s.blk.host.requests m.val (rs.getD m.val []) } }))
    ∧ (∀ mask : BitVec 8, Completes (.mbxDoneClear mask) s (fun b =>
        b = { s.blk with host.done := s.blk.host.done &&& ~~~mask }))
    ∧ (∀ args : List W32, s.blk.host.busy.getLsbD m.val = true →
        bit (word (Tbl.get [] s.blk.host.requests m.val) 1) 1 = true →
        (word (Tbl.get [] s.blk.host.requests m.val) 4).toNat = args.length →
        Completes (.indirectArgsFetched m args) s (fun b =>
          b = { s.blk with
            host.requests := Tbl.set [] s.blk.host.requests m.val ((Tbl.get [] s.blk.host.requests m.val).take 2 ++ args) }))

/-- The event ring: enabling it, one record at HEAD, a full ring, the host's TAIL, coalescing -/
def Obligations.EventRing : Prop :=
  ∀ (s : State),
    Completes .evringEnable s (fun b => b = { s.blk with host := { s.blk.host with
        evEn := true, head := 0, tail := 0, phase := true, unsignalled := 0, ringOut := [] } })
    ∧ (∀ t : W32, Completes (.evringTailWrite t) s (fun b => b = { s.blk with host.tail := t.toNat }))
    ∧ (s.blk.host.evEn = false → Completes .eventRingWrite s (fun b => b = s.blk))
    ∧ (∀ (k : Nat) (r : EvRec) (rest : List EvRec), k < 6 → s.blk.host.evEn = true →
        (∀ j, j < k → (Tbl.get {} s.blk.ev.queues j).q = []) → (Tbl.get {} s.blk.ev.queues k).q = r :: rest →
        ((s.blk.host.head + 1) % 2 ^ s.blk.host.log2N = s.blk.host.tail % 2 ^ s.blk.host.log2N →
          Completes .eventRingWrite s (fun b => b = { s.blk with host.evFull := true }))
        ∧ ((s.blk.host.head + 1) % 2 ^ s.blk.host.log2N ≠ s.blk.host.tail % 2 ^ s.blk.host.log2N →
            (Tbl.get {} s.blk.ev.queues k).lost = 0 → withheld s.blk r.code = false →
          Completes .eventRingWrite s (fun b =>
            Tbl.get [] b.host.ringOut s.blk.host.head = r.words s.blk.host.phase
              ∧ b.host.head = (s.blk.host.head + 1) % 2 ^ s.blk.host.log2N
              ∧ b.host.phase = (if b.host.head = 0 then !s.blk.host.phase else s.blk.host.phase)
              ∧ (rest ≠ [] → Tbl.get {} b.ev.queues k = { q := rest, lost := 0 })
              ∧ (s.blk.host.unsignalled + 1 ≥ s.blk.host.coalN →
                  Tbl.get 0 b.host.msix 0 = Tbl.get 0 s.blk.host.msix 0 + 1 ∧ b.host.unsignalled = 0)
              ∧ (s.blk.host.unsignalled + 1 < s.blk.host.coalN →
                  b.host.msix = s.blk.host.msix ∧ b.host.unsignalled = s.blk.host.unsignalled + 1
                    ∧ (s.blk.host.unsignalled = 0 → b.host.unsigAt = now s.blk))
              ∧ b = { s.blk with ev := { s.blk.ev with queues := b.ev.queues }, fab := { s.blk.fab with ddr := b.fab.ddr }
                                 host := { s.blk.host with ringOut := b.host.ringOut, head := b.host.head, phase := b.host.phase
                                                           msix := b.host.msix, unsignalled := b.host.unsignalled
                                                           unsigAt := b.host.unsigAt } })))
    ∧ (s.blk.host.unsignalled ≠ 0 → s.blk.host.unsigAt + s.blk.host.coalT ≤ now s.blk → Completes .eventCoalesceTimeout s (fun b =>
        Tbl.get 0 b.host.msix 0 = Tbl.get 0 s.blk.host.msix 0 + 1
          ∧ b = { s.blk with host := { s.blk.host with unsignalled := 0, msix := b.host.msix } }))
    ∧ (s.blk.host.unsignalled = 0 ∨ now s.blk < s.blk.host.unsigAt + s.blk.host.coalT → Completes .eventCoalesceTimeout s (fun b => b = s.blk))

/-- Direct register writes by their access code, and reserved fields that read zero -/
def Obligations.DirectRegisters : Prop :=
  (∀ (v : W32) (s : State),
    (s.blk.host.evEn = false →
      Completes (.registerWrite 0x040 v) s (fun b => b = { s.blk with host.evBaseLo := v &&& 0xFFFFF000 })
      ∧ Completes (.registerWrite 0x044 v) s (fun b => b = { s.blk with host.evBaseHi := v }))
    ∧ (s.blk.host.evEn = true → ∀ off ∈ [(0x040 : BitVec 12), 0x044], Completes (.registerWrite off v) s (fun b => b = s.blk))
    ∧ Completes (.registerWrite 0x048 v) s (fun b =>
        b = { s.blk with host := { s.blk.host with
          evFull := s.blk.host.evFull && !bit v 30
          coalN := if s.blk.host.evEn then s.blk.host.coalN else bits v 23 16
          coalT := if s.blk.host.evEn then s.blk.host.coalT else bits v 15 8
          log2N := if s.blk.host.evEn then s.blk.host.log2N else bits v 4 0
          evEn := bit v 31
          head := if bit v 31 then 0 else s.blk.host.head
          tail := if bit v 31 then 0 else s.blk.host.tail
          phase := bit v 31 || s.blk.host.phase
          unsignalled := if bit v 31 then 0 else s.blk.host.unsignalled
          ringOut := if bit v 31 then [] else s.blk.host.ringOut } })
    ∧ exec (.registerWrite 0x014 v) s = exec (if bit v 0 then .hostBlockSet (BitVec.ofNat 16 (bits v 31 16))
        else .hostBlockClear (BitVec.ofNat 16 (bits v 31 16))) s
    ∧ exec (.registerWrite 0x018 v) s = exec (.hostWdogWrite v) s
    ∧ exec (.registerWrite 0x01C v) s = exec .hostKick s
    ∧ exec (.registerWrite 0x028 v) s = exec (.mbxDoneClear (BitVec.ofNat 8 (bits v 7 0))) s
    ∧ exec (.registerWrite 0x050 v) s = exec (.evringTailWrite v) s
    ∧ (∀ off ∈ [(0x000 : BitVec 12), 0x004, 0x008, 0x00C, 0x010, 0x020, 0x024, 0x02C, 0x030, 0x034, 0x038, 0x03C, 0x04C, 0x054, 0x058],
        Completes (.registerWrite off v) s (fun b => b = s.blk)))
  ∧ ∀ (lift : W32) (b : Block), ∀ e ∈ [(0x014, (0xFFFF00F8 : W32)), (0x018, 0x0000FFFE), (0x01C, 0xFFFFFFFF), (0x020, 0xFFFFFFFF),
      (0x02C, 0x3F0000FF), (0x040, 0x00000FFF), (0x048, 0x3F0000E0), (0x054, 0x0FFFFFFF), (0x058, 0xFFFFFFFF)],
      registerRead lift e.1 b &&& e.2 = 0

/-- Bulk channels; that the scatter list is judged when the transfer runs is the model's choice, log 51. -/
def Obligations.BulkTransfers : Prop :=
  ∀ (c : Fin 4) (s : State),
    (Tbl.get none s.blk.host.channels c.val = none → ∀ e l, Completes (.bulkTransferDone c e l) s (fun b => b = s.blk))
    ∧ ∀ x : Bulk, Tbl.get none s.blk.host.channels c.val = some x → x.window = none →
        ∀ (e : Bool) (l : List (W64 × W32 × W32)), Completes (.bulkTransferDone c e l) s (fun b =>
          let sent := (scatter l x.data).flatMap Prod.snd
          Answered x.h (if e then .dmaFault else if scatterOk l then .ok else .badArg) noDetail
              (if !e && scatterOk l then x.pre ++ [w32 (4 * sent.length), crc32 (bytesOf sent)] else []) b
            ∧ (x.data.length ≤ (l.map fun a => a.2.1.toNat / 4).sum → sent = x.data)
            ∧ (e = false → scatterOk l = true → b.host.dmaOut = scatter l x.data)
            ∧ b.host.bulkWait = s.blk.host.bulkWait.tail
            ∧ (∀ y ys, s.blk.host.bulkWait = y :: ys → Tbl.get none b.host.channels c.val = some y)
            ∧ b = { s.blk with host := { s.blk.host with
                      responses := b.host.responses, done := b.host.done, busy := b.host.busy, msix := b.host.msix
                      channels := b.host.channels, bulkWait := b.host.bulkWait, dmaOut := b.host.dmaOut } })

/-- Sessions: open, accept, close, a forced open, and a command outside an accepted session -/
def Obligations.Sessions : Prop :=
  ∀ (h : Hdr) (s : State), s.blk.sup.fail ≠ 4 →
    (∀ w : W32, bits w 30 16 = 0 →
      (s.blk.host.sessionOpen = false → Completes (.sessionOpen h [w]) s (fun b =>
        Answers h .ok noDetail (bitmapWords 128 (offered s.blk) ++ [s.blk.host.sessionId + 1, 1])
          { s.blk with host := { s.blk.host with sessionOpen := true, sessionAccepted := false, features := 0
                                                 sessionId := s.blk.host.sessionId + 1, hostVer := bits w 15 0 } } b))
      ∧ (s.blk.host.sessionOpen = true → bit w 31 = false →
          Completes (.sessionOpen h [w]) s (fun b => Answers h .busy noDetail [] s.blk b))
      ∧ (s.blk.host.sessionOpen = true → bit w 31 = true → s.blk.host.channels = [] → s.blk.host.bulkWait = [] →
          s.blk.host.waiting = [] →
          Completes (.sessionOpen h [w]) s (fun b =>
            b.host.sessionOpen = true ∧ b.host.sessionAccepted = false ∧ b.host.features = 0
              ∧ b.host.sessionId = s.blk.host.sessionId + 1
              ∧ Answered h .ok noDetail (bitmapWords 128 (offered s.blk) ++ [s.blk.host.sessionId + 1, 1]) b)))
    ∧ (∀ a0 a1 a2 a3 : W32, s.blk.host.sessionOpen = true → s.blk.host.sessionAccepted = false →
        let f := a0.toNat + a1.toNat * 2 ^ 32 + a2.toNat * 2 ^ 64 + a3.toNat * 2 ^ 96
        (f &&& offered s.blk = f → f.testBit 0 = true →
          Completes (.sessionAccept h [a0, a1, a2, a3]) s (fun b =>
            Answers h .ok noDetail [] { s.blk with host := { s.blk.host with sessionAccepted := true, features := f } } b))
        ∧ (f &&& offered s.blk ≠ f ∨ f.testBit 0 = false →
          Completes (.sessionAccept h [a0, a1, a2, a3]) s (fun b => Answers h .feature noDetail [] s.blk b)))
    ∧ (s.blk.host.sessionOpen = true → Completes (.sessionClose h) s (fun b =>
        Answers h .ok noDetail [] { s.blk with host := { s.blk.host with
          sessionOpen := false, sessionAccepted := false, features := 0 } } b))
    ∧ (∀ op : BitVec 16, Completes (.unknownOpcode h op) s (fun b =>
        Answers h (if s.blk.host.sessionAccepted then .unknownOp else .session) noDetail [] s.blk b))

/-- CFG_WRITE of an entry its rule admits: at once, to Patrol, at the next boundary, at a named one -/
def Obligations.CfgWriteTakesEffect : Prop :=
  ∀ (h : Hdr) (st ix : Nat) (w lo hi : W32) (l : List W32) (s : State),
    bits w 31 24 = st → bits w 23 8 = ix → bits w 7 0 = 0 → 0 < cfgWords st → st < 0x80 → ix < cfgCount st →
    l.length = cfgWords st → Admitted s.blk 0x0101 [.cfg st ix] → s.blk.pair.role ≠ 3 →
    cfgRefused (soonCfg s.blk) st ix l = none → costRefused (soonCfg s.blk) (setCfg st ix l (soonCfg s.blk)) = false →
    (cfgCalib st = true → lockCal s.blk = false) →
    (join64 lo hi ≠ 0 → cfgTimed st = true ∧ checkBoundary s.blk (join64 lo hi) = none) →
    Completes (.cfgWrite h (w :: lo :: hi :: l)) s (fun b => Answered h .ok noDetail [] b
      ∧ (st ∈ [0x02, 0x10, 0x12, 0x19, 0x23, 0x24] →
          OnlyMailbox h.mbx { s.blk with
            cfg := Tbl.set [] s.blk.cfg (cfgKey st ix) l, pair.cmdSent := b.pair.cmdSent
            nextCfg := s.blk.nextCfg.filter fun e => !(e.1 == st && e.2.1 == ix)
            prot.goose := if st = 0x19 then Tbl.upd {} s.blk.prot.goose ix fun _ => {} else s.blk.prot.goose } b)
      ∧ (st ∈ [0x01, 0x04] ∨ st = 0x03 ∧ bits (word l 0) 22 16 ≠ cfgN s.blk 0x03 ix 0 22 16 →
          Tbl.get [] b.cfg (cfgKey st ix) = l)
      ∧ (toPatrol st = true → OnlyMailbox h.mbx { s.blk with prot.writes := s.blk.prot.writes ++ [(st, ix, l)] } b)
      ∧ (atNext st = true ∨ st = 0x03 ∧ bits (word l 0) 22 16 = cfgN s.blk 0x03 ix 0 22 16 → OnlyMailbox h.mbx { s.blk with
            nextCfg := (s.blk.nextCfg.filter fun e => !(e.1 == st && e.2.1 == ix)) ++ [(st, ix, l)]
            pair.cmdSent := b.pair.cmdSent } b)
      ∧ (cfgTimed st = true → s.blk.host.actions.any (isCfgAction st ix) = false →
          OnlyMailbox h.mbx { s.blk with
            host.actions := s.blk.host.actions ++ [{ boundary := if join64 lo hi = 0 then now s.blk + 100 else join64 lo hi
                                                     kind := if cfgCalib st then .calibration st ix else .config st ix l
                                                     op := 0x0101, h := h, since := now s.blk }]
            staged := if cfgCalib st then Tbl.set [] s.blk.staged (cfgKey st ix) l else s.blk.staged
            pair.cmdSent := b.pair.cmdSent } b))

/-- CFG_WRITE that is refused changes nothing; CFG_READ returns the running or the pending entry -/
def Obligations.CfgWriteRefused : Prop :=
  ∀ (h : Hdr) (st ix : Nat) (w lo hi : W32) (l : List W32) (s : State),
    bits w 31 24 = st → bits w 23 8 = ix → 0 < cfgWords st → st < 0x80 → ix < cfgCount st → l.length = cfgWords st →
    (bits w 7 0 = 0 → Admitted s.blk 0x0101 [.cfg st ix] →
      (s.blk.pair.role ≠ 3 → join64 lo hi ≠ 0 → cfgTimed st = false →
        Completes (.cfgWrite h (w :: lo :: hi :: l)) s (fun b => Answers h .badArg 1 [] s.blk b))
      ∧ (s.blk.pair.role ≠ 3 → join64 lo hi = 0 → cfgCalib st = false → ∀ x k, cfgRefused (soonCfg s.blk) st ix l = some (x, k) →
          Completes (.cfgWrite h (w :: lo :: hi :: l)) s (fun b => Answers h x (3 + k) [] s.blk b))
      ∧ (s.blk.pair.role = 3 → mirrored st = true →
          Completes (.cfgWrite h (w :: lo :: hi :: l)) s (fun b => Answers h .pairRole noDetail [] s.blk b)))
    ∧ (bits w 6 0 = 0 → cfgWords st ≤ 1022 → Admitted s.blk 0x0102 [] →
        (bit w 7 = false → Completes (.cfgRead h [w]) s (fun b =>
          Answers h .ok noDetail ((List.range (cfgWords st)).map (cfgW s.blk st ix)) s.blk b))
        ∧ (bit w 7 = true → ∀ e, pendingEntry s.blk st ix = some e → e.length ≤ 1022 → Completes (.cfgRead h [w]) s (fun b =>
            Answers h .ok noDetail e s.blk b))
        ∧ (bit w 7 = true → pendingEntry s.blk st ix = none → Completes (.cfgRead h [w]) s (fun b =>
            Answers h .notReady noDetail [] s.blk b)))

/-- At its boundary a pending entry becomes the running one and EV_ACTION reports it -/
def Obligations.EntriesAtTheirBoundary : Prop :=
  ∀ (a : Action) (st ix : Nat) (l : List W32) (s : State), s.blk.host.actions = [a] →
    (now s.blk < a.boundary → ∀ i ∈ [Instr.calibrationSwitch, .configAtBoundary], Completes i s (fun b => b = s.blk))
    ∧ (a.boundary ≤ now s.blk → st ∈ [0x0B, 0x0C, 0x0E, 0x1C, 0x1D] → a.kind = .calibration st ix →
        Completes .calibrationSwitch s (fun b =>
          b = { s.blk with cfg := Tbl.set [] s.blk.cfg (cfgKey st ix) (Tbl.get [] s.blk.staged (cfgKey st ix))
                           host := { s.blk.host with actions := [] }, ev := b.ev }
            ∧ LastEvent b .action ([w32 a.op, w32 a.h.tag.toNat, w32 a.h.mbx.val] ++ w64 a.boundary ++ [w32 0])))
    ∧ (a.boundary ≤ now s.blk → st ∈ [0x07, 0x0F] → a.kind = .config st ix l →
        Completes .configAtBoundary s (fun b =>
          b = { s.blk with cfg := Tbl.set [] s.blk.cfg (cfgKey st ix) l, host := { s.blk.host with actions := [] }
                           ev := b.ev, slal := b.slal, led := b.led }
            ∧ (st = 0x07 → b.led = s.blk.led ∧ b.slal = { s.blk.slal with
                limb := Tbl.upd {} s.blk.slal.limb ix fun (q : SlLimb) => { q with r := 0 } })
            ∧ (st = 0x0F → b.slal = s.blk.slal)
            ∧ LastEvent b .action ([w32 a.op, w32 a.h.tag.toNat, w32 a.h.mbx.val] ++ w64 a.boundary ++ [w32 0])))

/-- Host variables, setpoint writes, coolant reports and stream names -/
def Obligations.ConfigurationGroup : Prop :=
  ∀ (h : Hdr) (s : State),
    (∀ vars : List (W32 × W32), Admitted s.blk 0x0103 [] → s.blk.pair.role ≠ 3 → vars ≠ [] →
      (∀ v ∈ vars, 0x1000 ≤ v.1.toNat ∧ v.1.toNat ≤ 0x17FF) →
      Completes (.hostVarWrite h vars) s (fun b => Answers h .ok noDetail []
        { s.blk with host.hostVars := s.blk.host.hostVars ++ [vars.map fun v => (v.1.toNat, v.2)], pair.cmdSent := b.pair.cmdSent } b))
    ∧ (∀ v x : W32, Admitted s.blk 0x0103 [] → s.blk.pair.role ≠ 3 → v.toNat < 0x1000 ∨ 0x17FF < v.toNat →
        Completes (.hostVarWrite h [(v, x)]) s (fun b => Answers h .badArg 0 [] s.blk b))
    ∧ (∀ a v : W32, Admitted s.blk 0x0104 [.cell (bits a 17 7)] → bits a 31 18 = 0 →
        (dMapped (cellDesc s.blk (bits a 17 7)) (bits a 6 0) = false →
          Completes (.endpointWrite h a v) s (fun b => Answers h .noEndpoint noDetail [] s.blk b))
        ∧ (dMapped (cellDesc s.blk (bits a 17 7)) (bits a 6 0) = true →
            (bits a 6 0 < 96 → Completes (.endpointWrite h a v) s (fun b => Answers h .badArg 0 [] s.blk b))
            ∧ (96 ≤ bits a 6 0 → sends s.blk = true → Completes (.endpointWrite h a v) s (fun b =>
                Answers h .ok noDetail [] { s.blk with chains := b.chains } b
                  ∧ Tbl.get {} b.chains (bits a 17 7 / 64)
                      = { Tbl.get {} s.blk.chains (bits a 17 7 / 64) with
                          setQueue := (Tbl.get {} s.blk.chains (bits a 17 7 / 64)).setQueue
                                        ++ [{ pos := bits a 17 7 % 64, index := bits a 6 0, value := v }] }
                  ∧ ∀ p, p ≠ bits a 17 7 / 64 → Tbl.get {} b.chains p = Tbl.get {} s.blk.chains p))))
    ∧ (∀ loop temp scale : W32, Admitted s.blk 0x0105 [] → s.blk.pair.role ≠ 3 → loop.toNat < 4 →
        fInRange scale (1, 2) (8, 1) = true → fIsInf temp = false → fIsNaN temp = false →
        Completes (.ledgerCoolant h loop temp scale) s (fun b =>
          Answers h .ok noDetail [] { s.blk with led.loops := b.led.loops, pair.cmdSent := b.pair.cmdSent } b
            ∧ (Tbl.get {} b.led.loops loop.toNat).next = some (temp, scale)
            ∧ (Tbl.get {} b.led.loops loop.toNat).temp = (Tbl.get {} s.blk.led.loops loop.toNat).temp))
    ∧ (∀ (k : Fin 2) (names : List W32), Admitted s.blk 0x0107 [] → names.length % 4 = 0 → names ≠ [] →
        Completes (.pmuNames h k names) s (fun b =>
          Answers h .ok noDetail [] { s.blk with pmu := b.pmu } b
            ∧ Tbl.get {} b.pmu k.val = { Tbl.get {} s.blk.pmu k.val with names := names }))

/-- POWER_CAP grants a cap, sheds until the declared cost fits it, or is refused -/
def Obligations.PowerCapGrants : Prop :=
  ∀ (h : Hdr) (cap : W32) (s : State), Admitted s.blk 0x0106 [] →
    (30000 ≤ cap.toNat → cap.toNat ≤ 78000 → costFixed s.blk ≤ cap.toNat →
      Completes (.powerCap h cap) s (fun b => Answered h .ok noDetail [] b ∧ b.sup.granted = cap.toNat
        ∧ (cost b ≤ effectiveCap b ∨ shedLast ≤ b.sup.shed)
        ∧ OnlyMailbox h.mbx { s.blk with
            pmu := b.pmu
            sup := { s.blk.sup with granted := cap.toNat, shed := b.sup.shed, ringEvery := b.sup.ringEvery } } b))
    ∧ (30000 ≤ cap.toNat → cap.toNat ≤ 78000 → cap.toNat < costFixed s.blk →
        Completes (.powerCap h cap) s (fun b => Answers h .powerCap noDetail [] s.blk b))
    ∧ (cap.toNat < 30000 ∨ 78000 < cap.toNat → Completes (.powerCap h cap) s (fun b => Answers h .badArg 0 [] s.blk b))

/-- Integration, bypass and unbypass of a cell, and the clear of its fault, by the lane-slot states of Table 3-10 -/
def Obligations.CellCommands : Prop :=
  ∀ (h : Hdr) (n : Fin 2048) (s : State),
    (Admitted s.blk 0x0205 [.cell n.val] → s.blk.pair.role ≠ 3 →
      (integrateBarred s.blk = true → Completes (.cellIntegrate h n) s (fun b => Answers h .wrongMode noDetail [] s.blk b))
      ∧ (integrateBarred s.blk = false → lvShut s.blk n.val = true →
          Completes (.cellIntegrate h n) s (fun b => Answers h .syncRequired noDetail [] s.blk b))
      ∧ (integrateBarred s.blk = false → lvShut s.blk n.val = false → canIntegrate s.blk n.val = true →
          Completes (.cellIntegrate h n) s (fun b => Answers h .ok noDetail []
            { onHub n.val (fun (q : HubCell) => { q with slot := .integrating, slotAt := work s.blk, flagAt := none }) s.blk
              with pair.cmdSent := b.pair.cmdSent } b))
      ∧ (integrateBarred s.blk = false → lvShut s.blk n.val = false → (chain s.blk (n.val / 64)).measured = true →
          3000000 < (chain s.blk (n.val / 64)).rttPs →
          Completes (.cellIntegrate h n) s (fun b => Answers h .rttExceeded noDetail [] s.blk b))
      ∧ (integrateBarred s.blk = false → lvShut s.blk n.val = false → (chain s.blk (n.val / 64)).rttPs ≤ 3000000 →
          canIntegrate s.blk n.val = false →
          Completes (.cellIntegrate h n) s (fun b => Answers h .notReady noDetail [] s.blk b)))
    ∧ (Admitted s.blk 0x0206 [.cell n.val] → sends s.blk = true →
      ((hub s.blk n.val).info.isSome = true → dHasBypass (cellDesc s.blk n.val) = true →
        (hub s.blk n.val).slot = .active ∨ (hub s.blk n.val).slot = .blocked →
        Completes (.cellBypass h n) s (fun b => Answers h .ok noDetail []
          { queueSet n.val 97 1 (onHub n.val (fun (q : HubCell) => { q with
              slot := .bypassing, slotAt := work s.blk, flagAt := none
              edgeNolist := true, edges := [], params := [], integrate := false }) s.blk) with
            cells := b.cells, pair.cmdSent := b.pair.cmdSent } b
          ∧ (hub b n.val).slot = .bypassing ∧ (hub b n.val).edgeNolist = true
          ∧ ∀ m, m ≠ n.val → hub b m = hub s.blk m))
      ∧ (dHasBypass (cellDesc s.blk n.val) = false →
          Completes (.cellBypass h n) s (fun b => Answers h .notReady noDetail [] s.blk b)))
    ∧ (Admitted s.blk 0x0207 [.cell n.val] → sends s.blk = true →
      ((hub s.blk n.val).slot = .bypassed → recLadder s.blk n.val = 3 → recFault s.blk n.val = false →
        fle (recVcap s.blk n.val) (match intWindow s.blk n.val with
          | some x => x.2
          | none => fmul (ofRat 110 100) (dVRated (cellDesc s.blk n.val))) = true →
        Completes (.cellUnbypass h n) s (fun b =>
          b = { queueSet n.val 97 0 (onHub n.val (fun (q : HubCell) => { q with
                  slot := .unbypassing, slotAt := work s.blk, flagAt := none }) s.blk) with
                host.waiting := s.blk.host.waiting ++ [{ h := h, op := 0x0207, objs := [.cell n.val], since := now s.blk }]
                pair.cmdSent := b.pair.cmdSent }))
      ∧ ((hub s.blk n.val).slot ≠ .bypassed →
          Completes (.cellUnbypass h n) s (fun b => Answers h .notReady noDetail [] s.blk b)))
    ∧ (Admitted s.blk 0x0208 [.cell n.val] → sends s.blk = true →
      ((hub s.blk n.val).slot = .blocked ∨ (hub s.blk n.val).slot = .bypassed →
        Completes (.protClearCell h 0 (w32 (128 * n.val)) 0) s (fun b =>
          b = { queueSet n.val 96 1 s.blk with
                host.waiting := s.blk.host.waiting
                  ++ [{ h := h, op := 0x0208, objs := [.cell n.val], data := w64 (now s.blk), since := now s.blk }] }))
      ∧ ((hub s.blk n.val).slot ≠ .blocked → (hub s.blk n.val).slot ≠ .bypassed → 
          Completes (.protClearCell h 0 (w32 (128 * n.val)) 0) s (fun b => Answers h .notReady noDetail [] s.blk b)))
    ∧ ((hub s.blk n.val).slot = .bypassing → (hub s.blk n.val).slotAt + 100 ≤ now s.blk →
        Completes (.bypassTimeout n) s (fun b =>
          b = { onHub n.val (fun (q : HubCell) => { q with slot := .blocked, slotAt := work s.blk, flagAt := none }) s.blk with
                ev := b.ev } ∧ LastEvent b .bypassFail [w32 n.val]))
    ∧ (∀ w : Waiting, (hub s.blk n.val).slot = .unbypassing → (hub s.blk n.val).slotAt + 100 ≤ now s.blk →
        (s.blk.host.waiting.find? fun w => w.op == 0x0207 && w.objs.contains (.cell n.val)) = some w →
        Completes (.unbypassTimeout n) s (fun b => Answered w.h .timeout noDetail [] b
          ∧ b.host.waiting = s.blk.host.waiting.erase w ∧ (hub b n.val).slot = .bypassed
          ∧ b.chains = (queueSet n.val 97 1 s.blk).chains ∧ LastEvent b .unbypassFail [w32 n.val]))

/-- The end of a cell's FAULT_CLEAR: the record 2 to 8 strides after the write, or none -/
def Obligations.CellFaultClearResult : Prop :=
  ∀ (n : Fin 2048) (w : Waiting) (at0 : Nat) (s : State),
    let p : Waiting → Bool := fun w => w.op == 0x0208 && w.objs.contains (.cell n.val)
    let fresh := (hub s.blk n.val).recAt = some (now s.blk) ∧ at0 + 2 ≤ now s.blk ∧ now s.blk ≤ at0 + 8
    (s.blk.host.waiting.find? p = none → Completes (.protClearCellResult n) s (fun b => b = s.blk))
    ∧ (s.blk.host.waiting.find? p = some w → join64 (word w.data 0) (word w.data 1) = at0 →
      ((chain s.blk (n.val / 64)).setQueue.any fun q => q.pos == n.val % 64 && q.index == 96) = false →
      (∀ st : Status, (fresh ∧ bits (recW s.blk n.val 8) 10 8 = 7 ∧ st = .causeActive)
          ∨ (fresh ∧ recFault s.blk n.val = false ∧ st = .ok) ∨ (at0 + 8 < now s.blk ∧ st = .timeout) →
        Completes (.protClearCellResult n) s (fun b =>
          Answers w.h st noDetail [] { s.blk with host.waiting := s.blk.host.waiting.erase w } b))
      ∧ (fresh → bits (recW s.blk n.val 8) 10 8 ≠ 7 → recFault s.blk n.val = true →
          Completes (.protClearCellResult n) s (fun b => b = s.blk)))

/-- A telemetry record at the hub, a missing one, a silent cell, and the lateness of a chain -/
def Obligations.HubRecords : Prop :=
  ∀ (n : Fin 2048) (pl : BitVec 56) (r : List W32) (cyc : Nat) (s : State),
    let rx := (rxFrame (n.val / 64) 0x33 pl 0 r s.blk).1
    (hears (port s.blk (n.val / 64)) = true → uprecOk n.val pl r = true → cyc ≤ 2560 → lagging s.blk = false →
      bits (word r 10) 31 8 ≤ bib s.blk → (chain s.blk (n.val / 64)).st = .ready → (chain s.blk (n.val / 64)).broken = false →
      Completes (.uplinkRecord n pl 0 r cyc) s (fun b =>
        (hub b n.val).record = r ∧ (hub b n.val).prev = (hub s.blk n.val).record
          ∧ (hub b n.val).recAt = some (work s.blk) ∧ (hub b n.val).stale = false ∧ (hub b n.val).silence = 0
          ∧ b.eng = (setLaneWords n.val 0 r s.blk).eng ∧ b.image = (imageRecord n.val r s.blk).image
          ∧ ((hub s.blk n.val).slot = .active → bits (word r 0) 25 24 = 3 → (hub b n.val).slot = .blocked)
          ∧ ((hub s.blk n.val).slot = .active → bits (word r 0) 25 24 ≠ 3 → (hub b n.val).slot = .active)
          ∧ (∀ f, (hub s.blk n.val).slot = .integrating → (hub s.blk n.val).flagAt = some f → f + 2 ≤ work s.blk →
              bits (word r 0) 25 24 = 0 → (hub b n.val).slot = .active)
          ∧ ((hub s.blk n.val).slot = .bypassing → bit (word r 0) 6 = true → work s.blk ≤ (hub s.blk n.val).slotAt + 100 →
              (hub b n.val).slot = .bypassed)
          ∧ ((hub s.blk n.val).slot = .unbypassing → bit (word r 0) 6 = false → work s.blk ≤ (hub s.blk n.val).slotAt + 100 →
              (hub b n.val).slot = .blocked)))
    ∧ (∀ k, hears (port s.blk (n.val / 64)) = false → Completes (.uplinkRecord n pl k r cyc) s (fun b => b = s.blk))
    ∧ (∀ k, hears (port s.blk (n.val / 64)) = true → (rxFrame (n.val / 64) 0x33 pl k r s.blk).2 = none →
        Completes (.uplinkRecord n pl k r cyc) s (fun b => b = (rxFrame (n.val / 64) 0x33 pl k r s.blk).1))
    ∧ (hears (port s.blk (n.val / 64)) = true → r.length = 12 → uprecOk n.val pl r = false →
        Completes (.uplinkRecord n pl 0 r cyc) s (fun b =>
          b = onPort (n.val / 64) (fun (q : Port) => { q with ctrlErr := satInc 255 q.ctrlErr }) rx))
    ∧ (hears (port s.blk (n.val / 64)) = true → uprecOk n.val pl r = true → 2560 < cyc →
        Completes (.uplinkRecord n pl 0 r cyc) s (fun b => b = rx))
    ∧ (lagging s.blk = false → (hub s.blk n.val).info.isSome = true → (hub s.blk n.val).recAt ≠ some (work s.blk) →
        (hub s.blk n.val).slot ≠ .integrating →
        Completes (.recordMissing n) s (fun b =>
          b = { onChain (n.val / 64) (fun (c : Chain) => { c with lateNow := true })
                  (onHub n.val (fun (q : HubCell) => { q with stale := true, folded := false, silence := q.silence + 1 }) s.blk) with
                ring := b.ring, fab := b.fab }
            ∧ ∀ w ws, (hub s.blk n.val).record = w :: ws → ringWrites s.blk (work s.blk) = true →
                Tbl.get (0, []) b.ring (ringKey (work s.blk) n.val) = (work s.blk, (w ||| 1) :: ws)))
    ∧ ((hub s.blk n.val).silent = false → (chain s.blk (n.val / 64)).silenceL ≤ (hub s.blk n.val).silence →
        Completes (.cellSilent n) s (fun b => (hub b n.val).silent = true
          ∧ (hub b n.val).slot = (if (hub s.blk n.val).slot = .active then .blocked else (hub s.blk n.val).slot)
          ∧ (cfgBit s.blk 0x17 0 0 31 = true → b.ev = s.blk.ev ∧ ∃ a ∈ b.prot.avs, AvReport.silent n.val ∈ a.reports)))
    ∧ (∀ p : Fin 32, s.blk.pair.dualUntil = none → (chain s.blk p.val).lateNow = true →
        (chain s.blk p.val).lateRun + 1 = cfgN s.blk 0x03 p.val 0 15 12 → (chain s.blk p.val).lateRun < 63 →
        Completes (.uplinkLate p) s (fun b => LastEvent b .uplinkLate [w32 p.val]
          ∧ (chain b p.val).lateRun = (chain s.blk p.val).lateRun + 1
          ∧ b = { s.blk with chains := b.chains, ev := b.ev }))

/-- Enumeration: a segment taken, the check passed or failed, the timeout, the retry, CHAIN_ENUMERATE -/
def Obligations.EnumerationRules : Prop :=
  ∀ (h : Hdr) (n : Fin 2048) (p : Fin 32) (pl : BitVec 56) (ws : List W32) (s : State),
    let b1 := onHub n.val (fun (q : HubCell) => { q with segs := Tbl.set [] q.segs (pf pl 47 44) ws })
      (rxFrame (n.val / 64) 0xCC pl 0 ws s.blk).1
    (hears (port s.blk (n.val / 64)) = true → segOk n.val 0 2 pl ws = true →
      ((chain s.blk (n.val / 64)).st = .checking ∨ (chain s.blk (n.val / 64)).st = .held →
        Completes (.enumSegment n pl 0 ws) s (fun b => b = b1))
      ∧ (∀ k, (chain s.blk (n.val / 64)).st = .enumerating → now s.blk ≤ (chain s.blk (n.val / 64)).linkUpAt + 200 →
          enumTail b1 (n.val / 64) = some k → (List.range 64).find? (posFails b1 (n.val / 64) k) = none →
          Completes (.enumSegment n pl 0 ws) s (fun b =>
            (chain b (n.val / 64)).st = .checking ∨ (chain b (n.val / 64)).st = .ready))
      ∧ (∀ k i, (chain s.blk (n.val / 64)).st = .enumerating → now s.blk ≤ (chain s.blk (n.val / 64)).linkUpAt + 200 →
          enumTail b1 (n.val / 64) = some k → (List.range 64).find? (posFails b1 (n.val / 64) k) = some i →
          Completes (.enumSegment n pl 0 ws) s (fun b => (chain b (n.val / 64)).st = .held
            ∧ LastEvent b .chainMismatch [w32 (n.val / 64), w32 i]
            ∧ b = { b1 with chains := b.chains, ev := b.ev })))
    ∧ ((chain s.blk p.val).st = .enumerating → (chain s.blk p.val).linkUpAt + 200 ≤ now s.blk → (chain s.blk p.val).retryAt = none →
        Completes (.enumTimeout p) s (fun b => (chain b p.val).retryAt = some (now s.blk + 1000)
          ∧ LastEvent b .enumTimeout [w32 p.val] ∧ b = { s.blk with chains := b.chains, ev := b.ev }))
    ∧ (∀ t, (chain s.blk p.val).st = .enumerating → (chain s.blk p.val).retryAt = some t → t ≤ now s.blk →
        Completes (.enumRetry p) s (fun b => (chain b p.val).st = .enumerating ∧ (chain b p.val).linkUpAt = now s.blk
          ∧ (chain b p.val).retryAt = none
          ∧ (chainEnd s.blk p.val = 1 → (chain b p.val).enumSent.isSome = true)
          ∧ b = { s.blk with chains := b.chains, cells := b.cells, ports := b.ports, pair.cmdSent := b.pair.cmdSent }))
    ∧ (Admitted s.blk 0x0203 [.chain p.val] → sends s.blk = true →
        ((chain s.blk p.val).st = .held → Completes (.chainEnumerate h p) s (fun b => (chain b p.val).st = .enumerating
          ∧ (chain b p.val).approved = true ∧ (chain b p.val).linkUpAt = now s.blk ∧ (chain b p.val).checkPassed = false
          ∧ (chainEnd s.blk p.val = 1 → (chain b p.val).enumSent.isSome = true)
          ∧ Answers h .ok noDetail [] { s.blk with chains := b.chains, cells := b.cells, ports := b.ports
                                                   pair.cmdSent := b.pair.cmdSent } b))
        ∧ ((chain s.blk p.val).st ≠ .held → Completes (.chainEnumerate h p) s (fun b => Answers h .notReady noDetail [] s.blk b)))

/-- What the link engine sends in a stride: STRIDE and the downlink, LAYOUT, one setpoint, SNAPSHOT-AT -/
def Obligations.LinkEngineSends : Prop :=
  ∀ (p : Fin 32) (off : BitVec 18) (s : State),
    let layouts := (layoutOf s.blk p.val).map fun x =>
      let v := pack [fld x.2 31 16, fld (dPlan (cellDesc s.blk x.1)) 15 0]
      (svcMake 1 (x.1 % 64) 0 (bib s.blk) v, v)
    (drives s.blk p.val = false → ∀ i ∈ [Instr.downlinkSend p off, .layoutSend p, .setpointSend p, .snapshotAtSend p true, .snapshotAtSend p false], Completes i s (fun b => b = s.blk))
    ∧ (drives s.blk p.val = true →
      Completes (.downlinkSend p off) s (fun b =>
        b = { onChain p.val (fun (c : Chain) => { c with
                sentStride := some (withCrc5 0xC3 (now s.blk % 2 ^ 32 * 2 ^ 24 + off.toNat * 2 ^ 6))
                sentBib := (chain b p.val).sentBib
                downlink := if (chain s.blk p.val).st = .ready then (chainCells s.blk p.val).reverse.flatMap (subList s.blk) else [] }) s.blk with
              ports := b.ports
              pair := { s.blk.pair with cmdAt := some (now s.blk), laneTurn := b.pair.laneTurn, sent := b.pair.sent } }
          ∧ (port b p.val).tx = (port s.blk p.val).tx
              ++ [ctlFrame 0xC3 (withCrc5 0xC3 (now s.blk % 2 ^ 32 * 2 ^ 24 + off.toNat * 2 ^ 6)) []]
              ++ (match (chain b p.val).sentBib with | some h => [ctlFrame 0x5A h (chain b p.val).downlink] | none => [])
          ∧ ((chain s.blk p.val).st = .ready → (chain b p.val).sentBib = some (withCrc8 0x5A (bib s.blk * 2 ^ 32
              + now s.blk % 2 ^ 14 * 2 ^ 18 + (chain b p.val).downlink.length / 2 * 2 ^ 8)))
          ∧ ((chain s.blk p.val).st ≠ .ready → (chain b p.val).sentBib = none))
      ∧ ((chain s.blk p.val).st = .ready → (chain s.blk p.val).layoutDue = true →
          Completes (.layoutSend p) s (fun b =>
            b = { onChain p.val (fun (c : Chain) => { c with layoutDue := false, sentSvc := c.sentSvc ++ layouts }) s.blk with
                  ports := b.ports }
              ∧ (port b p.val).tx = (port s.blk p.val).tx ++ layouts.map fun x => ctlFrame 0x55 x.1 [x.2, 0]))
      ∧ (∀ w rest, (chain s.blk p.val).setQueue = w :: rest → (chain s.blk p.val).lastSet = none →
          Completes (.setpointSend p) s (fun b => (chain b p.val).setQueue = rest ∧ (chain b p.val).lastSet = some w
            ∧ (chain b p.val).sentSvc = (chain s.blk p.val).sentSvc
                ++ [(svcMake 0 w.pos w.index (bib s.blk) w.value, w.value)]
            ∧ (port b p.val).tx = (port s.blk p.val).tx
                ++ [ctlFrame 0x55 (svcMake 0 w.pos w.index (bib s.blk) w.value) [w.value, 0]]
            ∧ b = { s.blk with chains := b.chains, cells := b.cells, ports := b.ports, host.waiting := b.host.waiting }))
      ∧ (∀ w rest x, (chain s.blk p.val).setQueue = w :: rest → (chain s.blk p.val).lastSet = some x →
          Completes (.setpointSend p) s (fun b => b = s.blk))
      ∧ (∀ t : Bool, (chain s.blk p.val).sentBib = none ∨ (chain s.blk p.val).sentSnap.isSome = true →
          Completes (.snapshotAtSend p t) s (fun b => b = s.blk))
      ∧ (∀ (B : Nat) (t : Bool), (chain s.blk p.val).st = .ready → (chain s.blk p.val).snapAt = [B] →
          B ≤ now s.blk + 67 → now s.blk + 4 ≤ B → (chain s.blk p.val).sentBib.isSome = true → (chain s.blk p.val).sentSnap = none →
          let pl := withCrc8 0xA5 (bib s.blk * 2 ^ 32 + B % 2 ^ 24 * 2 ^ 8)
          Completes (.snapshotAtSend p t) s (fun b =>
            b = { onChain p.val (fun (c : Chain) => { c with
                    snapSent := if t then c.snapSent + 1 else c.snapSent, sentSnap := some pl }) s.blk with ports := b.ports }
              ∧ (port b p.val).tx = (port s.blk p.val).tx ++ [ctlFrame 0xA5 pl []])))

/-- Delay measurement: MEASURE of a sweep, the ECHO that answers it, the timeout -/
def Obligations.DelayMeasurement : Prop :=
  ∀ (p : Fin 32) (t : Nat) (pl : BitVec 56) (s : State),
    (∀ k, (port s.blk p.val).st = .up → linkRuns s.blk p.val = true → (chain s.blk p.val).sentMeasure = none →
      ((chainEnd s.blk p.val = 1 ∧ now s.blk % 1000 = 0 ∨ chainEnd s.blk p.val = 2 ∧ now s.blk % 1000 = 500) ∧ k = nCells s.blk p.val)
        ∨ ((chainEnd s.blk p.val = 1 ∧ now s.blk % 1000 ≠ 0 ∨ chainEnd s.blk p.val = 2 ∧ now s.blk % 1000 ≠ 500)
            ∧ (chain s.blk p.val).sweep = some k) →
      Completes (.measureSend p t) s (fun b => b = { s.blk with chains := b.chains, ports := b.ports }
        ∧ (∃ pl, (chain b p.val).sentMeasure = some pl ∧ (port b p.val).tx = (port s.blk p.val).tx ++ [ctlFrame 0x69 pl []])
        ∧ (chain b p.val).seq = ((chain s.blk p.val).seq + 1) % 256
        ∧ (0 < k → (chain b p.val).sweep = some (k - 1)
            ∧ (chain b p.val).open? = some { seq := ((chain s.blk p.val).seq + 1) % 256, target := k - 1, t1 := t })
        ∧ (k = 0 → (chain b p.val).sweep = none ∧ (chain b p.val).open? = none ∧ (chain b p.val).lastPos = 127)))
    ∧ ((chain s.blk p.val).sentMeasure.isSome = true → Completes (.measureSend p t) s (fun b => b = s.blk))
    ∧ (hears (port s.blk p.val) = true → crc8Ok 0x96 pl = true → ∀ m, (chain s.blk p.val).open? = some m →
        (pf pl 55 50 ≠ m.target ∨ pf pl 49 42 ≠ m.seq → Completes (.echoReceived p pl t) s (fun b => b = onPort p.val Port.other s.blk))
        ∧ (pf pl 55 50 = m.target → pf pl 49 42 = m.seq → pf pl 41 41 = 1 → Completes (.echoReceived p pl t) s (fun b =>
            b = onChain p.val (fun (c : Chain) => { c with open? := none, lastD := none }) (onPort p.val Port.other s.blk)))
        ∧ (pf pl 55 50 = m.target → pf pl 49 42 = m.seq → pf pl 41 41 = 0 →
            let asym : Int := if chainEnd s.blk p.val = 1
              then ((List.range m.target).map fun j => asymPs s.blk (64 * p.val + j)).foldl (· + ·) 0
              else -(((List.range (nCells s.blk p.val)).filter fun j => m.target < j).map fun j =>
                asymPs s.blk (64 * p.val + j)).foldl (· + ·) 0
            Completes (.echoReceived p pl t) s (fun b =>
              (hub b (64 * p.val + m.target)).dly = some (delayOf (160 * ((t : Int) - m.t1) - 10 * (pf pl 40 17 : Int) + asym))
                ∧ (hub b (64 * p.val + m.target)).dlyPrev = (hub s.blk (64 * p.val + m.target)).dly
                ∧ (chain b p.val).open? = none ∧ (chain b p.val).lastD = (hub b (64 * p.val + m.target)).dly
                ∧ (m.target ≠ (if chainEnd s.blk p.val = 1 then nCells s.blk p.val - 1 else 0) →
                    b = { s.blk with chains := b.chains, cells := b.cells, ports := b.ports, ev := b.ev })
                ∧ (m.target = (if chainEnd s.blk p.val = 1 then nCells s.blk p.val - 1 else 0) →
                    (chain b p.val).measured = true
                      ∧ (chain b p.val).rttPs = (160 * ((t : Int) - m.t1) - 10 * (pf pl 40 17 : Int)).toNat))))
    ∧ Completes (.echoTimeout p) s (fun b => b = onChain p.val (fun (c : Chain) =>
        if c.open?.isSome then { c with open? := none, lastD := none } else c) s.blk)

/-- Window comparators: a sample that asserts the filter, one that releases it, and the self-test -/
def Obligations.Comparators : Prop :=
  (∀ (c : Fin 48) (x : BitVec 14) (off : Fin 8192) (s : State),
    let v := comp s.blk c.val
    let n := cfgN s.blk 0x14 c.val 1 31 28
    let k := cfgN s.blk 0x14 c.val 1 27 24
    let hi := rawHi s.blk c.val x.toNat v.rawHi
    let lo := rawLo s.blk c.val x.toNat v.rawLo
    let hh := (2 * v.histHi + hi.toNat) % 32768
    let hl := (2 * v.histLo + lo.toNat) % 32768
    v.testing = false → (∀ j ∈ [0, 1], chopMode s.blk j = 0 ∨ chopComp s.blk j ≠ c.val) →
    (v.fHi = false → v.fLo = false → k ≤ filtCount n hh → (∀ m < 16, legHeld s.blk m = false) →
      Completes (.compAssert c [x] off) s (fun b =>
        (comp b c.val).fHi = true ∧ (comp b c.val).latched = true
          ∧ (compRoute s.blk c.val 17 = true → Active b c.val)
          ∧ (compRoute s.blk c.val 20 = true → s.blk.prot.captures.length < 256 →
              b.prot.captures = s.blk.prot.captures ++ [captureRec s.blk c.val off.val true false])
          ∧ (v.latched = false → compRoute s.blk c.val 19 = true → v.evAt ≠ some (now s.blk) →
              LastEvent b .comp (captureRec s.blk c.val off.val true false))
          ∧ (compRoute s.blk c.val 19 = false → b.ev = s.blk.ev)
          ∧ (∀ j, j ≠ c.val → comp b j = comp s.blk j)
          ∧ b = { s.blk with ev := b.ev, recd := b.recd, prot := { s.blk.prot with
                    comps := b.prot.comps, inputs := b.prot.inputs, captures := b.prot.captures, capLost := b.prot.capLost } }))
    ∧ (v.fHi = true → v.fLo = false → filtCount n hh < k → k ≤ n - filtCount n hh → filtCount n hl < k →
        Completes (.compRelease c [x] off) s (fun b =>
          b = { s.blk with prot := { s.blk.prot with
                  comps := Tbl.upd {} s.blk.prot.comps c.val fun (q : Comp) => { q with
                    input := x.toNat, rawHi := hi, rawLo := lo, histHi := hh, histLo := hl, fHi := false, fLo := false }
                  inputs := if compRoute s.blk c.val 17 = true then s.blk.prot.inputs &&& ~~~(1#72 <<< c.val) else s.blk.prot.inputs
                  captures := b.prot.captures, capLost := b.prot.capLost } })))
  ∧ ∀ (h : Hdr) (chs : List (Fin 48 × Option (Fin 1024 × Fin 1024))) (s : State),
      (Admitted s.blk 0x0B01 (chs.map fun y => Obj.cfg 0x14 y.1.val) →
        (s.blk.md.mode ≠ .service → Completes (.compSelftest h chs) s (fun b => Answers h .wrongMode noDetail [] s.blk b))
        ∧ (∀ y ys, chs = y :: ys → s.blk.md.mode = .service → s.blk.prot.testQueue = [] →
            Completes (.compSelftest h chs) s (fun b => (comp b y.1.val).testing = true
              ∧ b.prot.testQueue = chs.map (fun z => (z.1.val, z.2.map fun e => (e.1.val, e.2.val)))
              ∧ b.host.waiting = s.blk.host.waiting
                  ++ [{ h := h, op := 0x0B01, objs := chs.map fun z => Obj.cfg 0x14 z.1.val, since := now s.blk }]
              ∧ b = { s.blk with prot := { s.blk.prot with comps := b.prot.comps, testQueue := b.prot.testQueue }
                                 host.waiting := b.host.waiting })))
      ∧ ∀ (a r l q : Fin 1024) (c : Nat) (e : Option (Nat × Nat)) (rest : List (Nat × Option (Nat × Nat))),
          s.blk.prot.testQueue = (c, e) :: rest →
          Completes (.compSelftestChannelDone (some a) (some r) (some l) (some q)) s (fun b =>
            b.prot.testQueue = rest
              ∧ ((comp b c).failed = false ↔ ((a.val : Int) - r.val - cfgN s.blk 0x14 c 0 11 6).natAbs ≤ 2
                    ∧ ((q.val : Int) - l.val - cfgN s.blk 0x14 c 0 11 6).natAbs ≤ 2 ∧ ((a.val : Int) - l.val).natAbs ≤ 2
                    ∧ ∀ y t, e = some (y, t) → ((a.val : Int) - y).natAbs ≤ t)
              ∧ LastEvent b .selftest [w32 c, w32 a.val, w32 r.val, w32 l.val, w32 q.val, wBool !(comp b c).failed])

/-- Brake choppers: the PWM of a requested chopper, its resistor energy and its stop -/
def Obligations.Choppers : Prop :=
  ∀ (k : Fin 2) (off : Fin 8192) (s : State),
    let c := chop s.blk k.val
    let e := chopEnergy c.eAcc (cfgW s.blk 0x18 k.val 1) (cfgW s.blk 0x18 k.val 2)
      (highTime s.blk (chopLeg s.blk k.val) (now s.blk * 8000))
    (c.requested = false ∨ chopMode s.blk k.val = 0 ∨ s.blk.prot.frozen = true
        ∨ c.on = chopOnAt s.blk k.val (sampleAt s.blk off.val) → Completes (.chopPeriod k off) s (fun b => b = s.blk))
    ∧ (c.requested = true → chopMode s.blk k.val ≠ 0 → s.blk.prot.frozen = false →
        c.on ≠ chopOnAt s.blk k.val (sampleAt s.blk off.val) → Completes (.chopPeriod k off) s (fun b =>
          let on := chopOnAt s.blk k.val (sampleAt s.blk off.val) && !c.limited
          b.prot.chops = Tbl.upd {} s.blk.prot.chops k.val (fun (q : Chop) => { q with on := on })
            ∧ (on = true → (leg b (chopLeg s.blk k.val)).cmd = 2)
            ∧ b = { s.blk with ev := b.ev, prot := { s.blk.prot with
                      chops := b.prot.chops, legs := b.prot.legs, inputs := b.prot.inputs
                      captures := b.prot.captures, capLost := b.prot.capLost } }))
    ∧ (cfgWritten s.blk 0x18 k.val = false ∨ c.updAt = some (now s.blk) → Completes (.chopEnergyUpdate k) s (fun b => b = s.blk))
    ∧ (cfgWritten s.blk 0x18 k.val = true → c.updAt ≠ some (now s.blk) → Completes (.chopEnergyUpdate k) s (fun b =>
        (Active b 68 ↔ (chop b 0).limited = true ∨ (chop b 1).limited = true)
          ∧ (fle (cfgW s.blk 0x18 k.val 3) e = true → (chop b k.val).limited = true ∧ (chop b k.val).eAcc = e)
          ∧ (fle (cfgW s.blk 0x18 k.val 3) e = true → c.limited = false → LastEvent b .chopLimit [w32 k.val, e])
          ∧ (fle (cfgW s.blk 0x18 k.val 3) e = false → b.ev = s.blk.ev
              ∧ b.prot.chops = Tbl.upd {} s.blk.prot.chops k.val (fun (q : Chop) => { q with
                  eAcc := e, limited := c.limited && flt (cfgW s.blk 0x18 k.val 4) e, updAt := some (now s.blk) })
              ∧ b.prot.legs = Tbl.upd {} s.blk.prot.legs (chopLeg s.blk k.val) (fun (l : Leg) => { l with
                  highAcc := 0, accFrom := now s.blk * 8000 }))
          ∧ b = { s.blk with ev := b.ev, prot := { s.blk.prot with
                    chops := b.prot.chops, legs := b.prot.legs, inputs := b.prot.inputs
                    captures := b.prot.captures, capLost := b.prot.capLost } }))

/-- GOOSE subscriptions: a matching frame, a bad member, a repeated frame, a PRP duplicate, staleness -/
def Obligations.GooseSubscriptions : Prop :=
  ∀ (port : Fin 4) (f : GooseMsg) (k : Fin 16) (s : State),
    (f.prp = none → gooseMatches s.blk k.val port.val f = true → (∀ j < 16, j ≠ k.val → gooseMatches s.blk j port.val f = false) →
      (f.members[cfgN s.blk 0x19 k.val 0 15 8]? = none → Completes (.gooseFrame port f) s (fun b => b = s.blk))
      ∧ (f.members[cfgN s.blk 0x19 k.val 0 15 8]? = some none →
        Completes (.gooseFrame port f) s (fun b => LastEvent b .gooseBad [w32 k.val] ∧ b = { s.blk with ev := b.ev }))
      ∧ (∀ v, f.members[cfgN s.blk 0x19 k.val 0 15 8]? = some (some v) →
          ((goose s.blk k.val).seen = false ∨ (goose s.blk k.val).stNum ≠ f.stNum
              ∨ (goose s.blk k.val).sqNum.toNat < f.sqNum.toNat →
            Completes (.gooseFrame port f) s (fun b =>
              goose b k.val = { seen := true, stNum := f.stNum, sqNum := f.sqNum, request := v, stale := false, expires := now s.blk + f.ttl.toNat * 100 }
                ∧ (∀ j, j ≠ k.val → goose b j = goose s.blk j)
                ∧ b = { s.blk with prot.goose := b.prot.goose }))
          ∧ ((goose s.blk k.val).seen = true → (goose s.blk k.val).stNum = f.stNum →
              f.sqNum.toNat ≤ (goose s.blk k.val).sqNum.toNat → Completes (.gooseFrame port f) s (fun b => b = s.blk))))
    ∧ (∀ src q, f.prp = some (src, q) → prpPort s.blk port.val = true →
        (∃ t, (src.toNat, q.toNat, t) ∈ s.blk.prot.prpSeen ∧ now s.blk ≤ t + 40000) →
        Completes (.gooseFrame port f) s (fun b => b = { s.blk with prot.prpSeen := b.prot.prpSeen }))
    ∧ (cfgBit s.blk 0x19 k.val 0 7 = true → (goose s.blk k.val).seen = true → (goose s.blk k.val).stale = false →
        (goose s.blk k.val).expires ≤ now s.blk → Completes (.gooseStale k) s (fun b => LastEvent b .gooseStale [w32 k.val]
          ∧ goose b k.val = { goose s.blk k.val with
              stale := true, request := (goose s.blk k.val).request || cfgBit s.blk 0x19 k.val 0 5 }
          ∧ (∀ j, j ≠ k.val → goose b j = goose s.blk j)
          ∧ b = { s.blk with ev := b.ev, prot.goose := b.prot.goose }))
    ∧ (cfgBit s.blk 0x19 k.val 0 7 = false ∨ (goose s.blk k.val).seen = false ∨ (goose s.blk k.val).stale = true
        ∨ now s.blk < (goose s.blk k.val).expires → Completes (.gooseStale k) s (fun b => b = s.blk))

/-- The avalanche filter: the close of a window, one event per root, and the bitmap of reporters -/
def Obligations.AvalancheFilter : Prop :=
  ∀ (h : Hdr) (s : State),
    (s.blk.prot.avs = [] → Completes .avalancheClose s (fun b => b = s.blk))
    ∧ (∀ a rest, s.blk.prot.avs = a :: rest →
        (now s.blk < a.s0 + avWindow s.blk → Completes .avalancheClose s (fun b => b = s.blk))
        ∧ (a.s0 + avWindow s.blk ≤ now s.blk → Completes .avalancheClose s (fun b =>
            (∃ roots, b.prot.avRoots = s.blk.prot.avRoots ++ roots
              ∧ ∀ p : Fin 32, a.reports = [.rxLost p.val] → roots = [[pack [fld s.blk.prot.avId 31 16, fld 2 15 13]]
                  ++ w64 a.s0 ++ [pack [fld 0x7FF 31 21, fld p.val 20 16], 0, 0, 0, 0]])
            ∧ b = { s.blk with prot := { s.blk.prot with
                      avs := rest, avId := (s.blk.prot.avId + 1) % 65536, avRoots := b.prot.avRoots
                      avMaps := ((s.blk.prot.avId, bitmapWords 2048 (bitmapOf (a.reports.filterMap AvReport.cell)))
                                  :: s.blk.prot.avMaps).take 256 } })))
    ∧ Completes .evAvalanche s (fun b =>
        b.ev.seq = s.blk.ev.seq + w32 s.blk.prot.avRoots.length
          ∧ (∀ l p, s.blk.prot.avRoots = l ++ [p] → p.length ≤ 12 → LastEvent b .avalanche p)
          ∧ b = { s.blk with ev := b.ev, prot.avRoots := [] })
    ∧ (∀ id : W32, Admitted s.blk 0x0305 [] → bits id 31 16 = 0 →
        (∀ m, s.blk.prot.avMaps.find? (fun x => x.1 == id.toNat) = some (id.toNat, m) →
          Completes (.protAvRead h id) s (fun b => Answers h .ok noDetail m s.blk b))
        ∧ (s.blk.prot.avMaps.find? (fun x => x.1 == id.toNat) = none →
          Completes (.protAvRead h id) s (fun b => Answers h .overwritten noDetail [] s.blk b)))

/-- PROT_CLEAR of a comparator latch, of a leg latch and of the trip matrix -/
def Obligations.LatchClears : Prop :=
  ∀ (h : Hdr) (s : State), Admitted s.blk 0x0208 [] →
    (∀ (rsv : BitVec 29) (lo hi : W32), rsv ≠ 0 →
      ∀ i ∈ [Instr.protClearComp h rsv lo hi, .protClearLeg h rsv lo hi, .protClearMatrix h rsv lo hi],
        Completes i s (fun b => Answers h .badArg 0 [] s.blk b))
    ∧ (∀ lo hi : W32, bits hi 31 16 = 0 → Completes (.protClearComp h 0 lo hi) s (fun b =>
        let named := (List.range 48).filter fun c => (lo.toNat + hi.toNat * 2 ^ 32).testBit c
        let bad := bitmapOf (named.filter fun c => (comp s.blk c).filt)
        Answers h (if bad = 0 then .ok else .causeActive) noDetail [0, w32 bad, w32 (bad / 2 ^ 32)] { s.blk with
          prot.comps := (named.filter fun c => !(comp s.blk c).filt).foldl
            (fun t c => Tbl.upd {} t c fun (q : Comp) => { q with latched := false }) s.blk.prot.comps } b))
    ∧ (∀ lo : W32, bits lo 31 16 = 0 → Completes (.protClearLeg h 0 lo 0) s (fun b =>
        let named := (List.range 16).filter fun n => lo.toNat.testBit n
        let safe := named.filter fun n => !((leg s.blk n).hardOn || (leg s.blk n).scOn)
        let bad := bitmapOf (named.filter fun n => (leg s.blk n).hardOn || (leg s.blk n).scOn)
        Answers h (if bad = 0 then .ok else .causeActive) noDetail [0, w32 bad, w32 (bad / 2 ^ 32)] { s.blk with
          prot := { s.blk.prot with
            legs := safe.foldl (fun t n => Tbl.upd {} t n fun (q : Leg) => { q with sc := false }) s.blk.prot.legs
            inputs := safe.foldl (fun m n => m &&& ~~~(1#72 <<< (48 + n))) s.blk.prot.inputs } } b))
    ∧ (∀ c : Fin 48,
      ((comp s.blk c.val).filt = false → Completes (.protClearComp h 0 (w32 (2 ^ c.val)) (w32 (2 ^ c.val / 2 ^ 32))) s (fun b =>
        Answers h .ok noDetail [0, 0, 0] { s.blk with
          prot.comps := Tbl.upd {} s.blk.prot.comps c.val fun (q : Comp) => { q with latched := false } } b))
      ∧ ((comp s.blk c.val).filt = true → Completes (.protClearComp h 0 (w32 (2 ^ c.val)) (w32 (2 ^ c.val / 2 ^ 32))) s (fun b =>
        Answers h .causeActive noDetail [0, w32 (2 ^ c.val), w32 (2 ^ c.val / 2 ^ 32)] s.blk b)))
    ∧ (∀ n : Fin 16,
      ((leg s.blk n.val).hardOn = false → (leg s.blk n.val).scOn = false →
        Completes (.protClearLeg h 0 (w32 (2 ^ n.val)) 0) s (fun b =>
          Answers h .ok noDetail [0, 0, 0] { s.blk with prot := { s.blk.prot with
            legs := Tbl.upd {} s.blk.prot.legs n.val fun (l : Leg) => { l with sc := false }
            inputs := s.blk.prot.inputs &&& ~~~(1#72 <<< (48 + n.val)) } } b))
      ∧ ((leg s.blk n.val).hardOn = true ∨ (leg s.blk n.val).scOn = true →
        Completes (.protClearLeg h 0 (w32 (2 ^ n.val)) 0) s (fun b =>
          Answers h .causeActive noDetail [0, w32 (2 ^ n.val), 0] s.blk b)))
    ∧ (atRest s.blk = false → Completes (.protClearMatrix h 0 0 0) s (fun b => Answers h .wrongMode noDetail [] s.blk b))
    ∧ (atRest s.blk = true → clearRefused s.blk = [] → Completes (.protClearMatrix h 0 0 0) s (fun b =>
        Answers h .ok noDetail [0, 0, 0] { s.blk with prot := { s.blk.prot with
          burst := none, differAt := none, clearLegs := BitVec.ofNat 16 (matrixLegs s.blk)
          copyA := { line := s.blk.prot.lossLine }, copyB := { line := s.blk.prot.lossLine } } } b))
    ∧ (atRest s.blk = true → ∀ i : Fin 72, clearRefused s.blk = [i.val] → Completes (.protClearMatrix h 0 0 0) s (fun b =>
        Answers h .causeActive noDetail (if i.val < 64 then [0, w32 (2 ^ i.val), w32 (2 ^ i.val / 2 ^ 32)]
          else [w32 (2 ^ (i.val - 64 + 24)), 0, 0]) s.blk b))

/-- The trip matrix: a trip of both copies, the end of the burst, copies that differ, a bad CRC -/
def Obligations.TripMatrix : Prop :=
  ∀ (off : Fin 8192) (s : State),
    let act := mappedActive s.blk
    let nx := fun (c : MatrixCopy) (l : Bool) => ({ c with tripped := true, cause := c.cause ||| act, line := l
                                                           first := if c.tripped then c.first else act } : MatrixCopy)
    let acts := fun (c : MatrixCopy) (k : Nat) => copyActs s.blk (nx c false) k
    (act &&& ~~~s.blk.prot.copyA.cause ≠ 0 → act &&& ~~~s.blk.prot.copyB.cause ≠ 0 →
      Completes (.tripMatrixTrip off 3) s (fun b =>
        b.prot.copyA = nx s.blk.prot.copyA (acts s.blk.prot.copyA 31 || s.blk.prot.lossLine)
          ∧ b.prot.copyB = nx s.blk.prot.copyB (acts s.blk.prot.copyB 31 || s.blk.prot.lossLine)
          ∧ b.prot.burst = (if acts s.blk.prot.copyA 31 || acts s.blk.prot.copyB 31 then some (sampleAt s.blk off.val) else none)
          ∧ ((acts s.blk.prot.copyA 30 || acts s.blk.prot.copyB 30) = true →
              (∀ k ∈ [0, 1], (safeOut s.blk k).st = 2 ∧ (safeOut s.blk k).armed = true) →
              ∀ k ∈ [0, 1], (safeOut b k).st = 4 ∧ (safeOut b k).armed = false ∧ (safeOut b k).high = false ∧ (safeOut b k).low = false)
          ∧ (∀ n < 16, legHeld { s.blk with prot := { s.blk.prot with copyA := b.prot.copyA, copyB := b.prot.copyB } } n = true →
              (∀ m < 16, m ≠ n → legHeld { s.blk with prot := { s.blk.prot with copyA := b.prot.copyA, copyB := b.prot.copyB } } m = false) →
              (leg b n).len = false)
          ∧ (s.blk.md.mode ≠ .safe → s.blk.md.imm = none → isPartner s.blk = false →
              b.md.imm = some (stopRow 0) ∧ b.md.immAt = now s.blk ∧ b.md.mode = s.blk.md.mode)
          ∧ (s.blk.md.mode = .safe → b = { s.blk with ev := b.ev, recd := b.recd, prot := b.prot, safe.out := b.safe.out })
          ∧ (s.blk.md.mode = .safe → s.blk.prot.copyA.tripped = false → s.blk.prot.copyB.tripped = false →
              ∀ i : Fin 72, act.getLsbD i.val = true → (∀ j < i.val, act.getLsbD j = false) →
              LastEvent b .trip ([w32 s.blk.prot.tripId]
                ++ captureRec s.blk i.val off.val true (decide (i.val < 48) && !(comp s.blk i.val).fHi)
                ++ bitmapWords 72 act.toNat ++ [3]))))
    ∧ (act = 0 → ∀ copies, Completes (.tripMatrixTrip off copies) s (fun b => b = { s.blk with prot := { s.blk.prot with
        captures := b.prot.captures, capLost := b.prot.capLost, seen := s.blk.prot.inputs } }))
    ∧ ((∀ t, s.blk.prot.burst = some t → t + 268 ≤ sampleAt s.blk off.val) → (s.blk.prot.burst = none → 66 ≤ off.val) →
        Completes (.blockBurstEnd off) s (fun b => b = { s.blk with prot := { s.blk.prot with
          burst := none, copyA := { s.blk.prot.copyA with line := s.blk.prot.lossLine }
          copyB := { s.blk.prot.copyB with line := s.blk.prot.lossLine } } }))
    ∧ ((∃ t, s.blk.prot.burst = some t ∧ sampleAt s.blk off.val < t + 268) ∨ s.blk.prot.burst = none ∧ off.val < 66 →
        Completes (.blockBurstEnd off) s (fun b => b = s.blk))
    ∧ (s.blk.prot.copyA.tripped = s.blk.prot.copyB.tripped ∨ sampleAt s.blk off.val ≤ s.blk.prot.differAt.getD 0 + 16 → Completes (.matrixDisagree off) s (fun b => b = s.blk))
    ∧ (s.blk.prot.copyA.tripped ≠ s.blk.prot.copyB.tripped → s.blk.prot.differAt.getD 0 + 16 < sampleAt s.blk off.val → Completes (.matrixDisagree off) s (fun b =>
        b.prot.copyA.tripped = true ∧ b.prot.copyB.tripped = true ∧ b.prot.matrixFault = true ∧ Active b 69
          ∧ (b.prot.copyA.cause ||| b.prot.copyB.cause).getLsbD 69 = true ∧ b.safe.degr.getLsbD 5 = true
          ∧ (s.blk.md.mode = .safe → LastEvent b .matrixFault [])))
    ∧ (∀ x y, (x || y) = true → Completes (.matrixCrcCheck x y) s (fun b =>
        Active b 69 ∧ b.prot.crcBad = true ∧ b.prot.matrixFault = true ∧ b.prot.copyA = s.blk.prot.copyA ∧ b.prot.copyB = s.blk.prot.copyB
          ∧ (s.blk.prot.crcBad = false → LastEvent b .matrixFault [] ∧ b.safe.degr.getLsbD 5 = true)))
    ∧ (s.blk.prot.copyA.tripped = s.blk.prot.copyB.tripped → s.blk.prot.pcfgBad = false →
        Completes (.matrixCrcCheck false false) s (fun b => b = { s.blk with prot := { s.blk.prot with
          crcBad := false, matrixFault := false, inputs := s.blk.prot.inputs &&& ~~~(1#72 <<< 69) } }))

/-- The local-leg frame and Patrol's boundary -/
def Obligations.LocalLegFrames : Prop :=
  ∀ (es sp : List W32) (rs : List (Option (W32 × W32))) (s : State),
    let p := s.blk.prot
    (p.summitReset = true ∨ p.sysOut = true → Completes (.localLegFrameSend es sp rs) s (fun b => b = s.blk))
    ∧ (p.summitReset = false → p.sysOut = false → Completes (.localLegFrameSend es sp rs) s (fun b =>
        ∃ t67 : Bool, (t67 = true ↔ ∃ kv ∈ p.goose, kv.2.request = true ∧ cfgBit s.blk 0x19 kv.1 0 7 = true)
          ∧ b = { s.blk with prot := { p with
              writes := [], want66 := false
              sent := some { stride := now s.blk, role := s.blk.pair.role, edges := es.take 64, setpoints := sp.take 4
                             resolvers := rs.take 2, writes := p.writes, trip66 := p.want66 || p.therm66, trip67 := t67 } } }))
    ∧ (p.sent = none → Completes .localLegFrame s (fun b => b = s.blk))
    ∧ (∀ f, p.sent = some f →
        (f.stride ≠ now s.blk → Completes .localLegFrame s (fun b => b = s.blk))
        ∧ (f.stride = now s.blk → (∀ n < 16, legEdgesOk s.blk f.edges n = true) → Completes .localLegFrame s (fun b =>
            b = { s.blk with recd := b.recd, prot := { p with
                    shadow := f, got := true, missed := 0, sent := none, role := f.role, inputs := b.prot.inputs } }
              ∧ (Active b 66 ↔ f.trip66 = true) ∧ (Active b 67 ↔ f.trip67 = true)
              ∧ ∀ i, i ≠ 66 → i ≠ 67 → (Active b i ↔ Active s.blk i)))
        ∧ (f.stride = now s.blk → ∀ n : Fin 16, legEdgesOk s.blk f.edges n.val = false →
            Completes .localLegFrame s (fun b => ∀ e ∈ b.prot.shadow.edges, bits e 18 15 ≠ n.val)))
    ∧ (p.got = true ∨ p.missAt = some (now s.blk) → Completes .localLegFrameMissing s (fun b => b = s.blk))
    ∧ (p.got = false → p.missAt ≠ some (now s.blk) → Completes .localLegFrameMissing s (fun b =>
        b = { s.blk with prot := { p with missed := p.missed + 1, missAt := some (now s.blk), sent := none } }))
    ∧ (p.got = true → Completes .patrolBoundary s (fun b => b.prot.legEdges = p.shadow.edges ∧ b.prot.got = false
        ∧ b.prot.burst = none ∧ b.prot.clearLegs = 0
        ∧ b.prot.copyA.line = (copyActs b b.prot.copyA 31 || p.lossLine) ∧ b.prot.copyB.line = (copyActs b b.prot.copyB 31 || p.lossLine)
        ∧ (∀ t, p.resetAt = some t → t ≤ now s.blk → b.prot.summitReset = true ∧ b.prot.resetAt = none)))
    ∧ (p.got = false → s.blk.safe.commitDue = [] →
        Completes .patrolBoundary s (fun b => b = { s.blk with prot := { p with
          comps := (List.range 48).foldl (fun t c =>
            if cfgBit s.blk 0x14 c 1 21 && (Tbl.get {} t c).latched && !(Tbl.get {} t c).filt
            then Tbl.upd {} t c fun (q : Comp) => { q with latched := false } else t) p.comps
          legs := Tbl.mapAll {} p.legs (fun _ l => l.boundary), burst := none, clearLegs := 0
          chops := Tbl.mapAll {} p.chops (fun _ (c : Chop) => { c with rest := false })
          drives := Tbl.mapAll {} p.drives (fun _ (v : Drive) => { v with current := v.peak, peak := 0, limited := v.limNow, limNow := false })
          copyA := { p.copyA with line := copyActs s.blk p.copyA 31 || p.lossLine }
          copyB := { p.copyB with line := copyActs s.blk p.copyB 31 || p.lossLine }
          summitReset := b.prot.summitReset, resetAt := b.prot.resetAt, ownOsc := b.prot.ownOsc }, ports := b.ports }
            ∧ (∀ t, p.resetAt = some t → t ≤ now s.blk → b.prot.summitReset = true ∧ b.prot.resetAt = none ∧ b.prot.ownOsc = true
                ∧ b.ports = (List.range 36).foldl (fun t k => Tbl.upd {} t k fun (q : Port) =>
                    { q with txIdle := true, exit := 0, eidle := 0, tx := [], blockSlots := 0 }) s.blk.ports)
            ∧ ((∀ t, p.resetAt = some t → now s.blk < t) →
                b.prot.summitReset = p.summitReset ∧ b.prot.resetAt = p.resetAt ∧ b.prot.ownOsc = p.ownOsc ∧ b.ports = s.blk.ports)))

/-- The loss of one die seen by the other -/
def Obligations.LossOfADie : Prop :=
  ∀ (s : State),
    let p := s.blk.prot
    let opened := [0, 1].foldl (fun (t : Tbl SafeOut) k => Tbl.upd {} t k fun o => o.opened false) s.blk.safe.out
    let lead := treatedLead p.role
    (p.summitLost = true ∨ p.frozen = true ∨ (p.missed < 2 ∧ p.sysOut = false) → Completes .summitLost s (fun b => b = s.blk))
    ∧ (p.summitLost = false → p.frozen = false → 2 ≤ p.missed ∨ p.sysOut = true → Completes .summitLost s (fun b =>
        b.prot.summitLost = true ∧ b.prot.lossLine = lead ∧ b.safe.out = opened
          ∧ (lead = true → b.prot.copyA.line = true ∧ b.prot.copyB.line = true ∧ b.prot.summitReset = false
              ∧ b.prot.resetAt = some (now s.blk + 1) ∧ b.ports = s.blk.ports ∧ b.prot.ownOsc = p.ownOsc)
          ∧ (lead = false → b.prot.copyA.line = p.copyA.line ∧ b.prot.copyB.line = p.copyB.line
              ∧ b.prot.summitReset = true ∧ b.prot.resetAt = none ∧ b.prot.ownOsc = true
              ∧ b.ports = (List.range 36).foldl (fun t k => Tbl.upd {} t k fun (q : Port) =>
                  { q with txIdle := true, exit := 0, eidle := 0, tx := [], blockSlots := 0 }) s.blk.ports)
          ∧ (∀ n < 16, (∀ m < 16, m ≠ n → legFunc s.blk m = 2 ∨ legFunc s.blk m = 3) → legFunc s.blk n = 1 →
              (leg s.blk n).len = true → (leg s.blk n).target ≠ 0 → legHeld s.blk n = false → (leg b n).len = false)
          ∧ b = { s.blk with ev := b.ev, prot := b.prot, safe.out := b.safe.out, ports := b.ports }))
    ∧ Completes (.patrolStatusFrame true) s (fun b => b = { s.blk with prot := { p with
        patrolLost := false, statusMissed := 0, statusAt := now s.blk, status := statusWords s.blk } })
    ∧ Completes (.patrolStatusFrame false) s (fun b => b = { s.blk with prot.statusMissed :=
        if p.statusMissed < 2 then p.statusMissed + 1 else p.statusMissed })
    ∧ (p.patrolLost = true ∨ now s.blk < p.statusAt + 2 → Completes .patrolLost s (fun b => b = s.blk))
    ∧ (∀ t, p.restartAt = some t → now s.blk < t + 1000 → Completes .patrolLost s (fun b => b = s.blk))
    ∧ ((∀ t, p.restartAt = some t → t + 1000 ≤ now s.blk) → p.patrolLost = false → p.statusAt + 2 ≤ now s.blk → Completes .patrolLost s (fun b =>
        b.prot.patrolLost = true ∧ b.prot.statusMissed = 2 ∧ b.safe.out = opened
          ∧ b.prot.legs = Tbl.mapAll {} p.legs (fun _ (l : Leg) => { l with len := false, onAt := none })
          ∧ (s.blk.md.mode ≠ .safe → s.blk.md.imm = none → isPartner s.blk = false →
              b.md.imm = some (stopRow 1) ∧ b.md.immAt = now s.blk)
          ∧ (s.blk.md.mode = .safe → b = { s.blk with
              prot := { p with patrolLost := true, statusMissed := 2, legs := b.prot.legs }, safe.out := opened, ports := b.ports })))

/-- Safe-block demands, test pulses, discrepancy and SPB_RESET -/
def Obligations.SafeBlockDemands : Prop :=
  ∀ (xs ys : Option (Bool × Nat)) (off : Fin 8192) (h : Hdr) (s : State),
    let f := s.blk.safe
    let takes := fun (old : Bool) (z : Option (Bool × Nat)) => z.bind fun v =>
      if v.1 ≠ old ∧ cfgN s.blk 0x80 0 0 31 24 ≤ v.2 then some v.1 else none
    let x := takes f.filtA xs
    let y := takes f.filtB ys
    let flt' : Safe := { f with filtA := x.getD f.filtA, filtAAt := if x.isSome then now s.blk else f.filtAAt
                                filtB := y.getD f.filtB, filtBAt := if y.isSome then now s.blk else f.filtBAt }
    let fellA := f.filtA && x == some false
    let fellB := f.filtB && y == some false
    let in65 := s.blk.prot.inputs ||| (1#72 <<< 65)
    ((fellA || fellB) = true → f.demand = false → Completes (.spbFilterChange xs ys off) s (fun b =>
        b = { s.blk with safe := { flt' with demand := true, coreDemand := false }, prot.inputs := in65, ev := b.ev }
          ∧ LastEvent b .safeBlock ([if fellA && fellB then 2 else if fellA then 0 else 1] ++ w64 (now s.blk)
              ++ [w32 off.val, wBool flt'.filtA, wBool flt'.filtB])))
    ∧ ((fellA || fellB) = false ∨ f.demand = true → Completes (.spbFilterChange xs ys off) s (fun b => b = { s.blk with safe := flt' }))
    ∧ (f.demand = false → Completes (.coreDisagree off) s (fun b =>
        b = { s.blk with safe := { f with demand := true, coreDemand := true }, prot.inputs := in65, ev := b.ev }
          ∧ LastEvent b .safeBlock ([3] ++ w64 (now s.blk) ++ [w32 off.val, wBool f.filtA, wBool f.filtB])))
    ∧ (f.demand = true → Completes (.coreDisagree off) s (fun b => b = s.blk))
    ∧ (∀ c o p, cfgBit s.blk 0x80 0 0 23 = true ∨ pulseDue s.blk c.val = false → Completes (.sptTestPulse c o p) s (fun b => b = s.blk))
    ∧ (∀ (c : Fin 2) (o p : Bool), cfgBit s.blk 0x80 0 0 23 = false → pulseDue s.blk c.val = true →
        let okA := if c = 0 then o else p
        let okB := if c = 0 then p else o
        Completes (.sptTestPulse c o p) s (fun b =>
          b = { s.blk with safe := { f with
                failA := if f.filtA then (if okA then 0 else f.failA + 1) else f.failA
                passA := if f.filtA then (if okA then f.passA + 1 else 0) else f.passA
                failB := if f.filtB then (if okB then 0 else f.failB + 1) else f.failB
                passB := if f.filtB then (if okB then f.passB + 1 else 0) else f.passB
                sptA := if c = 0 then some (now s.blk) else f.sptA, sptB := if c = 0 then f.sptB else some (now s.blk)
                degr := b.safe.degr, degrSince := b.safe.degrSince, degrBefore := b.safe.degrBefore, degrAt := b.safe.degrAt } }
            ∧ b.safe.degr = f.degr ||| (if f.filtA = true ∧ okA = false ∧ 1 ≤ f.failA then 1 else 0)
                ||| (if f.filtB = true ∧ okB = false ∧ 1 ≤ f.failB then 2 else 0)))
    ∧ (f.filtA ≠ f.filtB → f.filtAAt + cfgN s.blk 0x80 0 0 22 13 * 100 ≤ now s.blk →
        f.filtBAt + cfgN s.blk 0x80 0 0 22 13 * 100 ≤ now s.blk →
        Completes .spbDiscrepancy s (fun b => b.safe.degr = f.degr ||| 4 ∧ b = { s.blk with safe := b.safe }))
    ∧ (f.filtA = f.filtB ∨ now s.blk < f.filtAAt + cfgN s.blk 0x80 0 0 22 13 * 100
        ∨ now s.blk < f.filtBAt + cfgN s.blk 0x80 0 0 22 13 * 100 → Completes .spbDiscrepancy s (fun b => b = s.blk))
    ∧ (Admitted s.blk 0x0209 [] →
      (atRest s.blk = false → Completes (.spbReset h) s (fun b => Answers h .wrongMode noDetail [] s.blk b))
      ∧ (atRest s.blk = true → (f.filtA = false ∧ f.degr.getLsbD 0 = false) ∨ (f.filtB = false ∧ f.degr.getLsbD 1 = false) →
          Completes (.spbReset h) s (fun b => Answers h .causeActive noDetail [] s.blk b))
      ∧ (atRest s.blk = true → f.filtA = true ∨ f.degr.getLsbD 0 = true → f.filtB = true ∨ f.degr.getLsbD 1 = true →
          Completes (.spbReset h) s (fun b => b.safe.logSeq = f.logSeq + 1
            ∧ (b.safe.log.head?.map fun e => bits (word e 5) 31 24) = some 7
            ∧ Answers h .ok noDetail [] { s.blk with
                prot.inputs := s.blk.prot.inputs &&& ~~~(1#72 <<< 65)
                safe := { f with demand := false, coreDemand := false, log := b.safe.log, logSeq := b.safe.logSeq } } b)))

/-- Safety outputs: arming and its steps, disarming, the test of a closed output, a coil current too low -/
def Obligations.SafetyOutputs : Prop :=
  ∀ (h : Hdr) (k : Fin 2) (i : Nat) (s : State),
    let o := safeOut s.blk k.val
    let f := s.blk.safe
    let bad := s.blk.prot.copyA.tripped || s.blk.prot.copyB.tripped || f.demand
    let put := fun (g : SafeOut → SafeOut) => ({ s.blk with safe.out := Tbl.upd {} f.out k.val g } : Block)
    (Admitted s.blk 0x020A [.safetyOut 0, .safetyOut 1] →
      (atRest s.blk = false → Completes (.safetyArm h) s (fun b => Answers h .wrongMode noDetail [] s.blk b))
      ∧ (atRest s.blk = true → (bad || s.blk.prot.pcfgBad || f.backstop && f.degr != 0) = true → Completes (.safetyArm h) s (fun b => Answers h .notReady noDetail [] s.blk b))
      ∧ (atRest s.blk = true → bad = false → s.blk.prot.pcfgBad = false → f.backstop = false ∨ f.degr = 0 →
          ((∀ j ∈ [0, 1], soInUse s.blk j = false ∨ (safeOut s.blk j).armed = true) →
            Completes (.safetyArm h) s (fun b => Answers h .ok noDetail [] s.blk b))
          ∧ (soInUse s.blk k.val = true → o.armed = false → (∀ j < k.val, soInUse s.blk j = false ∨ (safeOut s.blk j).armed = true) →
            Completes (.safetyArm h) s (fun b => b = { put (fun q => { q with
                st := 1, armStep := 1, stepAt := now s.blk, armFail := 0, high := false, low := true }) with
              host.waiting := s.blk.host.waiting ++ [{ h := h, op := 0x020A, objs := [.safetyOut 0, .safetyOut 1], since := now s.blk }] }))))
    ∧ (o.st = 1 → (∀ j < k.val, (safeOut s.blk j).st ≠ 1) →
        (bad = false → o.armStep = 1 → o.stepAt + 100 ≤ now s.blk → i < 5 → Completes (.safetyArmStep i) s (fun b =>
            b = put fun q => { q with armStep := 2, stepAt := now s.blk, high := true, low := false }))
        ∧ (bad = false → o.armStep = 2 → o.stepAt + 100 ≤ now s.blk → i < 5 → Completes (.safetyArmStep i) s (fun b =>
            b = put fun q => { q with armStep := 3, stepAt := now s.blk, high := true, low := true }))
        ∧ (bad = false → (o.armStep ∈ [1, 2] ∧ now s.blk < o.stepAt + 100)
              ∨ (o.armStep = 3 ∧ i < coilMin s.blk ∧ now s.blk < o.stepAt + 1000) →
            Completes (.safetyArmStep i) s (fun b => b = s.blk))
        ∧ (bad = false → o.armStep = 3 → coilMin s.blk ≤ i → (∀ j ∈ [0, 1], j = k.val ∨ (soInUse s.blk j = false ∧ (safeOut s.blk j).st = 0)) →
            ∀ w, s.blk.host.waiting = [w] → w.op = 0x020A → Completes (.safetyArmStep i) s (fun b =>
              (safeOut b k.val).st = 2 ∧ (safeOut b k.val).armed = true ∧ (safeOut b k.val).stuckOff = false
                ∧ Answered w.h .ok noDetail [] b ∧ b.host.waiting = []))
        ∧ (bad = true ∨ (o.armStep ∈ [1, 2] ∧ 5 ≤ i ∧ o.stepAt + 100 ≤ now s.blk)
              ∨ (o.armStep = 3 ∧ i < coilMin s.blk ∧ o.stepAt + 1000 ≤ now s.blk) →
            ∀ w, s.blk.host.waiting = [w] → w.op = 0x020A → Completes (.safetyArmStep i) s (fun b =>
              Answers w.h .soFault noDetail [] { put (fun q => { q.opened false with armFail := o.armStep, armStep := 0 }) with
                host.waiting := [] } b)))
    ∧ (Admitted s.blk 0x020B [.safetyOut 0, .safetyOut 1] → Completes (.safetyDisarm h) s (fun b => Answers h .ok noDetail []
        { s.blk with safe.out := [0, 1].foldl (fun (t : Tbl SafeOut) j => Tbl.upd {} t j fun q => q.opened false) f.out } b))
    ∧ (s.blk.prot.restartAt.isSome = true ∨ (∃ t, f.testAt = some t ∧ now s.blk < t + 240000) →
        Completes .soTestStart s (fun b => b = s.blk))
    ∧ (s.blk.prot.restartAt = none → (∀ t, f.testAt = some t → t + 240000 ≤ now s.blk) → f.nextTest / 2 = k.val →
        (o.st ≠ 2 → Completes .soTestStart s (fun b =>
          b = { s.blk with safe := { f with nextTest := (f.nextTest + 1) % 4, testAt := some (now s.blk) } }))
        ∧ (o.st = 2 → Completes .soTestStart s (fun b => b = { put (fun q => { q with
              st := 3, stepAt := now s.blk, test := some (f.nextTest % 2), testLow := false
              high := q.high && f.nextTest % 2 == 1, low := q.low && f.nextTest % 2 == 0 }) with
            safe := { f with nextTest := (f.nextTest + 1) % 4, testAt := some (now s.blk)
                             out := b.safe.out } }
          ∧ b.safe.out = Tbl.upd {} f.out k.val fun q => { q with
              st := 3, stepAt := now s.blk, test := some (f.nextTest % 2), testLow := false
              high := q.high && f.nextTest % 2 == 1, low := q.low && f.nextTest % 2 == 0 })))
    ∧ (o.st = 3 → (∀ j < k.val, (safeOut s.blk j).st ≠ 3) → ∀ sw, o.test = some sw →
        let shut := o.stepAt + cfgN s.blk 0x80 0 0 12 8
        (now s.blk < o.stepAt + 5 ∨ shut ≤ now s.blk → Completes (.soTestCheck false i) s (fun b => b = s.blk))
        ∧ (now s.blk < shut → Completes (.soTestCheck true i) s (fun b => b = s.blk))
        ∧ (o.stepAt + 5 ≤ now s.blk → now s.blk < shut → i < 5 → Completes (.soTestCheck false i) s (fun b => b = put fun q => { q with testLow := true }))
        ∧ (o.stepAt + 5 ≤ now s.blk → now s.blk < shut → 5 ≤ i → Completes (.soTestCheck false i) s (fun b => LastEvent b .soFault [w32 k.val, w32 sw, 0]
            ∧ b.safe.degr.getLsbD 3 = true ∧ (sw = 0 → (safeOut b k.val).hFault = true) ∧ (sw ≠ 0 → (safeOut b k.val).lFault = true)
            ∧ b = { s.blk with ev := b.ev, safe := b.safe }))
        ∧ (shut ≤ now s.blk → coilMin s.blk ≤ i → Completes (.soTestCheck true i) s (fun b => (safeOut b k.val).st = 2
            ∧ (safeOut b k.val).high = true ∧ (safeOut b k.val).low = true
            ∧ (o.testLow = true → (safeOut b k.val).testCnt = satInc 65535 o.testCnt)
            ∧ b = { s.blk with safe.out := b.safe.out }))
        ∧ (shut ≤ now s.blk → now s.blk < shut + 100 → i < coilMin s.blk → Completes (.soTestCheck true i) s (fun b =>
            b = put fun q => { q with high := true, low := true }))
        ∧ (shut + 100 ≤ now s.blk → i < coilMin s.blk → Completes (.soTestCheck true i) s (fun b => (safeOut b k.val).stuckOff = true
            ∧ (safeOut b k.val).armed = false ∧ (safeOut b k.val).st = 0)))
    ∧ (∀ n, o.st ≠ 2 ∨ coilMin s.blk ≤ i ∨ n < 100 → Completes (.soCoilLow k i n) s (fun b => b = s.blk))
    ∧ (∀ n, o.st = 2 → i < coilMin s.blk → 100 ≤ n → Completes (.soCoilLow k i n) s (fun b => (safeOut b k.val).stuckOff = true ∧ (safeOut b k.val).armed = false
        ∧ (pairEn s.blk = true → b.safe.degr.getLsbD 4 = true ∧ b.md = s.blk.md ∧ LastEvent b .soFault [w32 k.val, 0, 1])
        ∧ (pairEn s.blk = false → s.blk.md.mode ≠ .safe → s.blk.md.imm = none → isPartner s.blk = false → b.md.imm = some 9)))

/-- Degradations: the PLOUGH timer, Patrol's backstop, overdue tests and SAFETY_DEGR_CLEAR -/
def Obligations.DegradationTimers : Prop :=
  ∀ (h : Hdr) (k : Fin 8) (s : State),
    let f := s.blk.safe
    let opened := [0, 1].foldl (fun (t : Tbl SafeOut) j => Tbl.upd {} t j fun q => q.opened false) f.out
    (f.degrSince = none → ∀ i ∈ [Instr.ploughExpired, .ploughBackstop], Completes i s (fun b => b = s.blk))
    ∧ (∀ t, f.degrSince = some t →
        (t + ploughStrides s.blk ≤ now s.blk → f.expired = false → Completes .ploughExpired s (fun b =>
          LastEvent b .ploughExpired [] ∧ b = { s.blk with ev := b.ev, safe.expired := true }))
        ∧ (now s.blk < t + ploughStrides s.blk ∨ f.expired = true → Completes .ploughExpired s (fun b => b = s.blk))
        ∧ (t + ploughStrides s.blk + 6000000 ≤ now s.blk → f.backstop = false → Completes .ploughBackstop s (fun b =>
            LastEvent b .ploughBackstop [] ∧ b = { s.blk with ev := b.ev, safe := { f with backstop := true, out := opened } }))
        ∧ (now s.blk < t + ploughStrides s.blk + 6000000 ∨ f.backstop = true → Completes .ploughBackstop s (fun b => b = s.blk)))
    ∧ (f.dueDay = some (s.blk.time.sec / 86400) → Completes .testDueCheck s (fun b => b = s.blk))
    ∧ (f.dueDay ≠ some (s.blk.time.sec / 86400) → (∃ c < 48, compOverdue s.blk c = true) → Completes .testDueCheck s (fun b =>
        b.safe.degr.getLsbD 6 = true ∧ b.safe.dueDay = some (s.blk.time.sec / 86400) ∧ b = { s.blk with safe := b.safe }))
    ∧ (f.dueDay ≠ some (s.blk.time.sec / 86400) → (∀ c < 48, compOverdue s.blk c = false) → Completes .testDueCheck s (fun b =>
        b = { s.blk with safe.dueDay := some (s.blk.time.sec / 86400) }))
    ∧ (Admitted s.blk 0x020C [] →
      (∀ m : W32, bits m 31 8 ≠ 0 → Completes (.safetyDegrClear h m) s (fun b => Answers h .badArg 0 [] s.blk b))
      ∧ (f.degr.getLsbD k.val = false → Completes (.safetyDegrClear h (w32 (2 ^ k.val))) s (fun b => Answers h .ok noDetail [0] s.blk b))
      ∧ (f.degr.getLsbD k.val = true → degrGone s.blk k.val = false → Completes (.safetyDegrClear h (w32 (2 ^ k.val))) s (fun b =>
          Answers h .causeActive noDetail [w32 (2 ^ k.val)] s.blk b))
      ∧ (f.degr.getLsbD k.val = true → degrGone s.blk k.val = true → Completes (.safetyDegrClear h (w32 (2 ^ k.val))) s (fun b =>
          b.safe.degr = f.degr &&& ~~~(1#8 <<< k.val) ∧ b.safe.logSeq = f.logSeq + 1
            ∧ (b.safe.log.head?.map fun e => bits (word e 5) 31 24) = some 6
            ∧ (b.safe.degr = 0 → b.safe.degrSince = none ∧ b.safe.expired = false ∧ b.safe.backstop = false)
            ∧ (b.safe.degr ≠ 0 → b.safe.degrSince = f.degrSince)
            ∧ Answers h .ok noDetail [0] { s.blk with safe := b.safe } b)))

/-- The safety-configuration password, the session it opens, lockouts and the change log -/
def Obligations.SafetyPasswords : Prop :=
  ∀ (h : Hdr) (pw : List (BitVec 8)) (lab : List W32) (first : W64) (n : Nat) (s : State),
    let f := s.blk.safe
    let wr := fun (kind : Nat) (b : Block) => (∃ salt, b.safe.pw = some (salt, pwHash salt (pw.map BitVec.toNat)))
      ∧ b.safe.logSeq = f.logSeq + 1 ∧ (b.safe.log.head?.map fun e => bits (word e 5) 31 24) = some kind
    (Admitted s.blk 0x0A01 [] →
      (s.blk.md.mode ≠ .service → Completes (.safeCfgSetpw h pw) s (fun b => Answers h .wrongMode noDetail [] s.blk b))
      ∧ (s.blk.md.mode = .service → f.pw.isSome = true → Completes (.safeCfgSetpw h pw) s (fun b => Answers h .notReady noDetail [] s.blk b))
      ∧ (s.blk.md.mode = .service → f.pw = none → pw.length < 12 ∨ 64 < pw.length →
          Completes (.safeCfgSetpw h pw) s (fun b => Answers h .badArg 0 [] s.blk b))
      ∧ (s.blk.md.mode = .service → f.pw = none → 12 ≤ pw.length → pw.length ≤ 64 → Completes (.safeCfgSetpw h pw) s (fun b =>
          wr 2 b ∧ Answers h .ok noDetail [] { s.blk with
            free := b.free, safe := { f with pw := b.safe.pw, log := b.safe.log, logSeq := b.safe.logSeq } } b)))
    ∧ (Admitted s.blk 0x0A02 [] →
      (atRest s.blk = false → Completes (.safeCfgOpen h pw lab) s (fun b => Answers h .wrongMode noDetail [] s.blk b))
      ∧ (atRest s.blk = true → f.lockUntil.isSome = true → Completes (.safeCfgOpen h pw lab) s (fun b => Answers h .locked noDetail [] s.blk b))
      ∧ (atRest s.blk = true → f.lockUntil = none → f.session.isSome = true →
          Completes (.safeCfgOpen h pw lab) s (fun b => Answers h .busy noDetail [] s.blk b))
      ∧ (atRest s.blk = true → f.lockUntil = none → f.session = none → lab.length = 4 → ∀ salt hash, f.pw = some (salt, hash) →
          (pwHash salt (pw.map BitVec.toNat) = hash → Completes (.safeCfgOpen h pw lab) s (fun b =>
            Answers h .ok noDetail [] { s.blk with safe := { f with
              fails := 0, session := some { label := lab, lastAt := now s.blk } } } b))
          ∧ (pwHash salt (pw.map BitVec.toNat) ≠ hash → f.fails < 4 → Completes (.safeCfgOpen h pw lab) s (fun b =>
            Answers h .badArg noDetail [] { s.blk with safe := { f with fails := f.fails + 1 } } b))
          ∧ (pwHash salt (pw.map BitVec.toNat) ≠ hash → 4 ≤ f.fails → Completes (.safeCfgOpen h pw lab) s (fun b =>
            b.safe.lockUntil = some (now s.blk + Nat.min (60000000 * 2 ^ (f.fails - 4)) 8640000000)
              ∧ b.safe.logSeq = f.logSeq + 1 ∧ (b.safe.log.head?.map fun e => bits (word e 5) 31 24) = some 4
              ∧ Answers h .badArg noDetail [] { s.blk with safe := { f with
                  fails := f.fails + 1, lockUntil := b.safe.lockUntil, log := b.safe.log, logSeq := b.safe.logSeq } } b))))
    ∧ (f.session = none → Admitted s.blk 0x0A05 [.flash] → Admitted s.blk 0x0A04 [] →
        ∀ i ∈ [Instr.safeCfgPw h pw, .safeCfgCommit h, .safeCfgAbort h, .safeCfgWrite h lab], Completes i s (fun b => Answers h .noSession noDetail [] s.blk b))
    ∧ (∀ t, f.session = some t →
        (Admitted s.blk 0x0A04 [] → 12 ≤ pw.length → pw.length ≤ 64 → Completes (.safeCfgPw h pw) s (fun b =>
          wr 3 b ∧ Answers h .ok noDetail [] { s.blk with
            free := b.free, safe := { f with pw := b.safe.pw, log := b.safe.log, logSeq := b.safe.logSeq
                                             session := some { t with lastAt := now s.blk } } } b))
        ∧ (Admitted s.blk 0x0A05 [.flash] → Completes (.safeCfgCommit h) s (fun b => b = { s.blk with
            safe.session := some { t with lastAt := now s.blk }
            host.waiting := s.blk.host.waiting ++ [{ h := h, op := 0x0A05, objs := [.flash], since := now s.blk }] }))
        ∧ (∀ st ix w, Admitted s.blk 0x0A03 [] → safeStruct st = true → st ≠ 0x81 → ix < cfgCount st → bits w 31 24 = st → bits w 23 8 = ix →
            bits w 7 0 = 0 → lab.length = cfgWords st →
            let b0 := { s.blk with safe.session := some { t with lastAt := now s.blk } }
            (cfgRefused (withStaged t b0) st ix lab = none → Completes (.safeCfgWrite h (w :: 0 :: 0 :: lab)) s (fun b =>
              Answers h .ok noDetail [] { s.blk with
                safe.session := some { t with staged := Tbl.set [] t.staged (cfgKey st ix) lab, lastAt := now s.blk } } b))
            ∧ (∀ x k, cfgRefused (withStaged t b0) st ix lab = some (x, k) →
                Completes (.safeCfgWrite h (w :: 0 :: 0 :: lab)) s (fun b => Answers h x (3 + k) [] s.blk b)))
        ∧ (Admitted s.blk 0x0A06 [] → Completes (.safeCfgAbort h) s (fun b =>
            Answers h .ok noDetail [] { s.blk with safe.session := none } b)))
    ∧ (f.session = none → Completes .safeCfgSessionTimeout s (fun b => b = s.blk))
    ∧ (∀ t, f.session = some t →
        (t.lastAt + 60000000 ≤ now s.blk → Completes .safeCfgSessionTimeout s (fun b => b = { s.blk with safe.session := none }))
        ∧ (now s.blk < t.lastAt + 60000000 → Completes .safeCfgSessionTimeout s (fun b => b = s.blk)))
    ∧ (f.lockUntil = none → Completes .safeCfgLockoutEnd s (fun b => b = s.blk))
    ∧ (∀ t, f.lockUntil = some t →
        (t ≤ now s.blk → Completes .safeCfgLockoutEnd s (fun b => b = { s.blk with safe.lockUntil := none }))
        ∧ (now s.blk < t → Completes .safeCfgLockoutEnd s (fun b => b = s.blk)))
    ∧ (Admitted s.blk 0x0A07 [] →
      (n = 0 ∨ 14 < n → Completes (.safeLogRead h first n) s (fun b => Answers h .badArg 2 [] s.blk b))
      ∧ (0 < n → n ≤ 14 → first.toNat + f.log.length < f.logSeq → Completes (.safeLogRead h first n) s (fun b =>
          Answers h .overwritten noDetail [] s.blk b))
      ∧ (0 < n → n ≤ 14 → f.logSeq ≤ first.toNat + f.log.length → Completes (.safeLogRead h first n) s (fun b =>
          Answers h .ok noDetail (f.log.reverse.filter fun e =>
            decide (first.toNat ≤ join64 (word e 0) (word e 1) ∧ join64 (word e 0) (word e 1) < first.toNat + n)).flatten s.blk b)))

/-- Leg changes: off, on from off, from one side to the other, a held leg; EN rises or is put off; release -/
def Obligations.LegChanges : Prop :=
  ∀ (n : Fin 16) (dst : Fin 3) (off : Fin 8192) (s : State),
    let T := sampleAt s.blk off.val
    let D := legDead s.blk n.val
    let l := leg s.blk n.val
    let free := legHeld s.blk n.val = false ∧ s.blk.prot.frozen = false
    let only := fun (b : Block) => (∀ m, m ≠ n.val → leg b m = leg s.blk m) ∧ b = { s.blk with ev := b.ev, prot := { s.blk.prot with
      legs := b.prot.legs, inputs := b.prot.inputs, captures := b.prot.captures, capLost := b.prot.capLost } }
    (sourceSays s.blk n.val dst.val off.val = false → Completes (.legChange n dst off) s (fun b => b = s.blk))
    ∧ (sourceSays s.blk n.val dst.val off.val = true →
      (legHeld s.blk n.val = true ∨ s.blk.prot.frozen = true → Completes (.legChange n dst off) s (fun b =>
          b = { s.blk with prot.legs := Tbl.upd {} s.blk.prot.legs n.val fun (q : Leg) => { q.settle T with cmd := dst.val } }))
      ∧ (free → dst = 0 → l.len = true → l.target ≠ 0 → Completes (.legChange n dst off) s (fun b => only b
          ∧ (leg b n.val).len = false ∧ (leg b n.val).onAt = none ∧ (leg b n.val).cmd = 0 ∧ (leg b n.val).target = 0
          ∧ (leg b n.val).ins = none))
      ∧ (free → dst ≠ 0 → l.len = false → l.onAt = none → l.ins = none → l.cmd ≠ dst.val → Completes (.legChange n dst off) s (fun b => only b
          ∧ leg b n.val = { l with cmd := dst.val, target := dst.val, lp := dst.val == 2, lpAt := none, onAt := some (T + D), deferred := false }))
      ∧ (free → dst ≠ 0 → l.len = true → l.ins = none → l.target ≠ dst.val → Completes (.legChange n dst off) s (fun b => only b
          ∧ (leg b n.val).len = false ∧ (leg b n.val).cmd = dst.val ∧ (leg b n.val).target = dst.val
          ∧ (leg b n.val).lpAt = some (T + D / 2) ∧ (leg b n.val).onAt = some (T + D))))
    ∧ (l.onAt = none ∨ (∃ x, l.onAt = some x ∧ T < x) → Completes (.legEnRise n off) s (fun b =>
        b = { s.blk with prot.legs := Tbl.upd {} s.blk.prot.legs n.val fun (q : Leg) => q.settle T }))
    ∧ (∀ x, free → prechargeDue s.blk n.val T = false → l.onAt = some x → l.ins = none → x ≤ T →
        ((l.fellAt.map (· + D)).getD 0 ≤ T → Completes (.legEnRise n off) s (fun b => only b
          ∧ (leg b n.val).len = true ∧ (leg b n.val).lp = (l.target == 2) ∧ (leg b n.val).riseAt = some T ∧ (leg b n.val).onAt = none
          ∧ (leg b n.val).blank = true))
        ∧ (T < (l.fellAt.map (· + D)).getD 0 → Completes (.legEnRise n off) s (fun b => only b
          ∧ (leg b n.val).len = l.len ∧ (leg b n.val).deferred = true ∧ (leg b n.val).onAt = none
          ∧ (leg b n.val).defers = satInc 255 l.defers)))
    ∧ (free → l.deferred = true → l.len = false → (l.fellAt.map (· + D)).getD 0 ≤ T → Completes (.legOnDeferred n off) s (fun b => only b
          ∧ (leg b n.val).len = true ∧ (leg b n.val).lp = (l.target == 2) ∧ (leg b n.val).deferred = false))
    ∧ (l.deferred = false ∨ T < (l.fellAt.map (· + D)).getD 0 → Completes (.legOnDeferred n off) s (fun b => b = s.blk))
    ∧ (free → l.len = false → legFunc s.blk n.val ≠ 3 → l.cmd ≠ 0 → Completes (.legForceRelease n off) s (fun b => only b
          ∧ leg b n.val = { l with target := l.cmd, lp := l.cmd == 2, lpAt := none, onAt := some (T + D) }))
    ∧ (∀ d, free → l.len = false → legFunc s.blk n.val = 3 → driveOf s.blk n.val = some d → (drive s.blk d).st = .halted →
        driveForced s.blk d = false → fIsZero (drive s.blk d).setpoint = false → Completes (.legForceRelease n off) s (fun b =>
          (drive b d).st = .catch ∧ (drive b d).window = true ∧ (drive b d).since = now s.blk ∧ b = { s.blk with ev := b.ev, prot := b.prot }))
    ∧ (s.blk.safe.degr.getLsbD 7 = true → Completes .debugFreeze s (fun b => b = { s.blk with prot.frozen := true }))
    ∧ (s.blk.safe.degr.getLsbD 7 = false → Completes .debugFreeze s (fun b => b = s.blk))
    ∧ (s.blk.prot.frozen = false → Completes (.debugFreezeEnd off) s (fun b => b = s.blk))
    ∧ (s.blk.prot.frozen = true → Completes (.debugFreezeEnd off) s (fun b => b.prot.frozen = false
        ∧ (∀ d < 4, (drive s.blk d).st ≠ .off → (drive s.blk d).st ≠ .fault → (drive b d).st = .halted ∧ (drive b d).integ = 0)
        ∧ (∀ d < 4, (drive s.blk d).st = .off ∨ (drive s.blk d).st = .fault → drive b d = drive s.blk d)
        ∧ b = { s.blk with ev := b.ev, prot := b.prot }))

/-- Short-circuit thresholds, blanking and bootstrap refresh of a leg -/
def Obligations.LegGuards : Prop :=
  ∀ (n : Fin 16) (off : Fin 8192) (s : State),
    let T := sampleAt s.blk off.val
    let D := legDead s.blk n.val
    let l := leg s.blk n.val
    let only := fun (b : Block) => (∀ m, m ≠ n.val → leg b m = leg s.blk m) ∧ b = { s.blk with ev := b.ev, prot := { s.blk.prot with
      legs := b.prot.legs, inputs := b.prot.inputs, captures := b.prot.captures, capLost := b.prot.capLost } }
    let past := l.riseAt.getD T + 8 * cfgN s.blk 0x16 n.val 0 11 2 ≤ T
    let tripped := fun (b : Block) => only b ∧ (leg b n.val).sc = true ∧ (leg b n.val).len = false ∧ (leg b n.val).onAt = none
      ∧ Active b (48 + n.val) ∧ (s.blk.prot.captures.length < 256 →
          b.prot.captures = s.blk.prot.captures ++ [captureRec s.blk (48 + n.val) off.val true false])
    (l.hardOn = false → legScK s.blk n.val ≤ l.hardRun + 1 → l.sc = false →
        Completes (.legHardTh n [true] off) s (fun b => tripped b ∧ (leg b n.val).hardOn = true))
    ∧ (∀ r, (scFilter (legScK s.blk n.val) l.hardOn l.hardRun r).1 = false ∨ l.hardOn = true ∨ l.sc = true → Completes (.legHardTh n [r] off) s (fun b =>
        b = { s.blk with prot.legs := Tbl.upd {} s.blk.prot.legs n.val fun (q : Leg) => { q with
          hardOn := (scFilter (legScK s.blk n.val) l.hardOn l.hardRun r).1, hardRun := (scFilter (legScK s.blk n.val) l.hardOn l.hardRun r).2 } }))
    ∧ (∀ i ∈ [Instr.legHardTh n [] off, .legScTh n [] off], Completes i s (fun b => b = s.blk))
    ∧ (∀ (r : Bool) (rs : List Bool) (t : State) (next : off.val + 1 < 8192),
        (exec (.legHardTh n [r] off) s = .next t → exec (.legHardTh n (r :: rs) off) s = exec (.legHardTh n rs ⟨off.val + 1, next⟩) t)
        ∧ (exec (.legScTh n [r] off) s = .next t → exec (.legScTh n (r :: rs) off) s = exec (.legScTh n rs ⟨off.val + 1, next⟩) t))
    ∧ (l.hardOn = false → l.hardRun + 1 < legScK s.blk n.val → Completes (.legHardTh n [true] off) s (fun b => only b
        ∧ leg b n.val = { l with hardRun := l.hardRun + 1 } ∧ b.prot.inputs = s.blk.prot.inputs))
    ∧ (l.scOn = false → legScK s.blk n.val ≤ l.scRun + 1 → l.sc = false → l.blank = false →
        Completes (.legScTh n [true] off) s (fun b => tripped b ∧ (leg b n.val).scOn = true))
    ∧ (l.scOn = false → legScK s.blk n.val ≤ l.scRun + 1 → l.blank = true → Completes (.legScTh n [true] off) s (fun b => only b
        ∧ leg b n.val = { l with scOn := true, scRun := 0, scSeen := true } ∧ b.prot.inputs = s.blk.prot.inputs))
    ∧ (∀ r, (scFilter (legScK s.blk n.val) l.scOn l.scRun r).1 = false → Completes (.legScTh n [r] off) s (fun b =>
        b = { s.blk with prot.legs := Tbl.upd {} s.blk.prot.legs n.val fun (q : Leg) => { q with
          scOn := false, scRun := (scFilter (legScK s.blk n.val) l.scOn l.scRun r).2 } }))
    ∧ (l.blank = false ∨ T < l.riseAt.getD T + 8 * cfgN s.blk 0x16 n.val 0 11 2 → Completes (.blankingEnd n off) s (fun b => b = s.blk))
    ∧ (past → l.blank = true → l.scOn = true → l.sc = false → Completes (.blankingEnd n off) s (fun b => tripped b ∧ (leg b n.val).blank = false))
    ∧ (past → l.blank = true → l.scOn = false → l.scSeen = true → Completes (.blankingEnd n off) s (fun b => only b
        ∧ (leg b n.val).blank = false ∧ (leg b n.val).blankCnt = satInc 65535 l.blankCnt ∧ (leg b n.val).len = l.len
        ∧ ((∀ t, l.blankEvAt = some t → t + 1000 ≤ now s.blk) → LastEvent b .scBlanked [w32 n.val, w32 (satInc 65535 l.blankCnt)])
        ∧ (∀ t, l.blankEvAt = some t → now s.blk < t + 1000 → b.ev = s.blk.ev)))
    ∧ (past → l.blank = true → l.scOn = false → l.scSeen = false → Completes (.blankingEnd n off) s (fun b => b = { s.blk with
        prot.legs := Tbl.upd {} s.blk.prot.legs n.val fun (q : Leg) => { q with blank := false, scSeen := false } }))
    ∧ (l.len = true → l.lp = true → l.ins = none → l.blank = false → bootEn s.blk n.val = true → s.blk.prot.frozen = false →
        legHeld s.blk n.val = false → l.riseAt.getD T + bootMax s.blk n.val * 800 ≤ T → Completes (.bootRefresh n off) s (fun b => only b
          ∧ (leg b n.val).len = false ∧ (leg b n.val).ins = some (0, 0) ∧ (leg b n.val).target = 1 ∧ (leg b n.val).onAt = some (T + D)
          ∧ (leg b n.val).refreshes = l.refreshes + 1 ∧ (leg b n.val).cmd = l.cmd))
    ∧ (l.len = false ∨ l.lp = false ∨ bootEn s.blk n.val = false ∨ T < l.riseAt.getD T + bootMax s.blk n.val * 800 →
        Completes (.bootRefresh n off) s (fun b => b = s.blk))
    ∧ (∀ t x, l.cmd = 2 → l.len = false → l.onAt = some x → l.ins = none → bootEn s.blk n.val = true → l.offSince = some t →
        t + bootIdle s.blk n.val * 800000 ≤ T → s.blk.prot.frozen = false → legHeld s.blk n.val = false →
        Completes (.bootPrecharge n off) s (fun b => only b ∧ leg b n.val = { l with
          ins := some (1, 0), lp := false, lpAt := none, target := 1, onAt := some (T + D), defers := satInc 255 l.defers }))
    ∧ (l.cmd ≠ 2 ∨ l.offSince = none ∨ bootEn s.blk n.val = false → Completes (.bootPrecharge n off) s (fun b => b = s.blk))
    ∧ (100000 ≤ l.starveRun → l.starveTold = false → Completes (.bootStarve n) s (fun b => only b
        ∧ LastEvent b .bootStarve [w32 n.val, w32 l.refreshes] ∧ leg b n.val = { l with starveTold := true }))
    ∧ (l.starveRun < 100000 ∨ l.starveTold = true → Completes (.bootStarve n) s (fun b => b = s.blk))

/-- The states of a coolant drive -/
def Obligations.DriveStates : Prop :=
  ∀ (d : Fin 4) (off : Fin 8192) (cr : Nat) (iv pk vdc : W32) (fw : Bool) (sec : Fin 6) (h : Hdr) (s : State),
    let v := drive s.blk d.val
    let fan := withSign (!fw) (sectorRate s.blk d.val iv)
    let same := fNeg? fan = fNeg? v.setpoint
    let only := fun (b : Block) => (∀ j, j ≠ d.val → drive b j = drive s.blk j) ∧ b = { s.blk with ev := b.ev, free := b.free, prot := b.prot }
    let i := Instr.catchWindowEnd d off cr iv fw sec pk vdc
    let catchTime := cfgN s.blk 0x1B d.val 11 31 22 * 100
    let found := windowSpeed s.blk d.val cr iv fw
    let keStop := cfgBit s.blk 0x1B d.val 0 2 && (drvPump s.blk d.val && !v.sensorless || decide (3 ≤ cr)) && fle (catchMin s.blk d.val) (fabs found)
      && !keInBand s.blk d.val (fdiv (fmul pk (ofNatF 1000)) (fabs found))
    let lost := if sixStep s.blk d.val then decide (2 ≤ v.missRun) || decide (4 ≤ v.disagree) else !v.resValid || s.blk.prot.summitLost
    (v.window = false ∨ s.blk.prot.frozen = true ∨ now s.blk < v.phaseAt + catchTime → Completes i s (fun b => b = s.blk))
    ∧ (v.window = true → s.blk.prot.frozen = false → v.phaseAt + catchTime ≤ now s.blk → keStop = true → Completes i s (fun b => only b
        ∧ (drive b d.val).st = .fault ∧ LastEvent b .driveKe [w32 d.val, fdiv (fmul pk (ofNatF 1000)) (fabs found)]))
    ∧ (v.window = true → s.blk.prot.frozen = false → v.phaseAt + catchTime ≤ now s.blk → keStop = false →
        (drvPump s.blk d.val = true → Completes i s (fun b => only b
          ∧ (drive b d.val).st = .run ∧ (drive b d.val).ref = found ∧ (drive b d.val).since = now s.blk))
        ∧ (drvPump s.blk d.val = false → cr < 3 → Completes i s (fun b => only b ∧ (drive b d.val).st = .align))
        ∧ (drvPump s.blk d.val = false → 3 ≤ cr → same → Completes i s (fun b => only b
          ∧ (drive b d.val).st = .run ∧ (drive b d.val).ref = fan ∧ (drive b d.val).speed = fan ∧ (drive b d.val).sector = sec.val))
        ∧ (drvPump s.blk d.val = false → 3 ≤ cr → ¬same → v.st = .catch → Completes i s (fun b => only b
          ∧ (drive b d.val).st = .brake ∧ (drive b d.val).since = now s.blk ∧ (drive b d.val).window = false))
        ∧ (drvPump s.blk d.val = false → 3 ≤ cr → ¬same → v.st = .brake → now s.blk < v.since + brakeMax s.blk d.val * 1000 →
          Completes i s (fun b => only b ∧ (drive b d.val).st = .brake ∧ (drive b d.val).window = false))
        ∧ (drvPump s.blk d.val = false → 3 ≤ cr → ¬same → v.st = .brake → v.since + brakeMax s.blk d.val * 1000 ≤ now s.blk →
          Completes i s (fun b => only b ∧ (drive b d.val).st = .fault ∧ LastEvent b .driveStall [w32 d.val])))
    ∧ (v.st = .brake → v.window = false → s.blk.prot.frozen = false → v.phaseAt + 2000 ≤ now s.blk → Completes (.brakeIntervalEnd d off) s (fun b =>
        only b ∧ drive b d.val = { v with window := true, phaseAt := now s.blk }))
    ∧ (v.st ≠ .brake ∨ v.window = true ∨ s.blk.prot.frozen = true ∨ now s.blk < v.phaseAt + 2000 →
        Completes (.brakeIntervalEnd d off) s (fun b => b = s.blk))
    ∧ (v.st = .brake → v.since + brakeMax s.blk d.val * 1000 ≤ now s.blk → 3 ≤ v.lastCross → Completes (.brakeMaxExpiry d off) s (fun b =>
        only b ∧ (drive b d.val).st = .fault ∧ LastEvent b .driveStall [w32 d.val]))
    ∧ (v.st ≠ .brake ∨ v.lastCross < 3 ∨ now s.blk < v.since + brakeMax s.blk d.val * 1000 → Completes (.brakeMaxExpiry d off) s (fun b => b = s.blk))
    ∧ (v.st = .align → v.since + 10000 ≤ now s.blk → s.blk.prot.frozen = false → Completes (.alignEnd d) s (fun b => only b ∧ (drive b d.val).st = .openLoop ∧ (drive b d.val).forced = 0))
    ∧ (v.st ≠ .align ∨ now s.blk < v.since + 10000 ∨ s.blk.prot.frozen = true → Completes (.alignEnd d) s (fun b => b = s.blk))
    ∧ (v.st = .recover → v.since + catchTime ≤ now s.blk → s.blk.prot.frozen = false → Completes (.recoverEnd d off) s (fun b => only b ∧ (drive b d.val).st = .catch ∧ (drive b d.val).window = true
        ∧ (drive b d.val).recoveries = now s.blk :: v.recoveries.filter fun t => decide (now s.blk < t + 1000000)))
    ∧ (v.st ≠ .recover ∨ now s.blk < v.since + catchTime ∨ s.blk.prot.frozen = true → Completes (.recoverEnd d off) s (fun b => b = s.blk))
    ∧ (v.st ≠ .run ∨ lost = false → Completes (.observerLoss d off) s (fun b => b = s.blk))
    ∧ (v.st = .run → lost = true → Completes (.observerLoss d off) s (fun b => only b
        ∧ (drive b d.val).st = (if (recentRecoveries s.blk d.val).length < retries s.blk d.val then .recover else .fault)
        ∧ ((∀ kv ∈ s.blk.prot.legs, kv.2.blank = false) → (recentRecoveries s.blk d.val).length < retries s.blk d.val →
            LastEvent b .driveLock [w32 d.val, v.speed, v.sampled])))
    ∧ (driveForced s.blk d.val = true → v.st ∉ [DriveSt.off, .fault, .halted] → Completes (.driveForced d off) s (fun b => only b
        ∧ (drive b d.val).st = .halted ∧ (drive b d.val).integ = 0))
    ∧ (driveForced s.blk d.val = false ∨ v.st ∈ [DriveSt.off, .fault, .halted] → Completes (.driveForced d off) s (fun b => b = s.blk))
    ∧ (Admitted s.blk 0x020D [.drive d.val] →
        (v.st ≠ .fault → Completes (.driveReset h d) s (fun b => Answers h .notReady noDetail [] s.blk b))
        ∧ (v.st = .fault → Completes (.driveReset h d) s (fun b => Answers h .ok noDetail []
            (onDrive d.val (fun q => { q with recoveries := [] }) (driveTo d.val .off false s.blk)) b)))
    ∧ (Admitted s.blk 0x0B02 [.drive d.val] →
        (v.st ≠ .run → Completes (.driveKeCheck h d) s (fun b => Answers h .notReady noDetail [] s.blk b))
        ∧ (v.st = .run → Completes (.driveKeCheck h d) s (fun b => Answered h .ok noDetail [] b
            ∧ (drive b d.val).st = .catch ∧ (drive b d.val).window = true ∧ ∀ j, j ≠ d.val → drive b j = drive s.blk j)))
    ∧ (Admitted s.blk 0x0B03 [.drive d.val] →
        (drvPump s.blk d.val = false → Completes (.resolverOffset h d iv) s (fun b => Answers h .badArg 0 [] s.blk b))
        ∧ (drvPump s.blk d.val = true → Completes (.resolverOffset h d iv) s (fun b => Answers h .ok noDetail [iv]
            { s.blk with prot.drives := Tbl.upd {} s.blk.prot.drives d.val fun (q : Drive) => { q with offset := iv } } b)))

/-- Commutation and the speed loop of a coolant drive -/
def Obligations.DriveCommutation : Prop :=
  ∀ (d : Fin 4) (off : Fin 8192) (ms cur : W32) (s : State),
    let v := drive s.blk d.val
    let inWin := fle (fmul 0x3F000000 v.sectorMs) ms && fle ms (fmul 0x3FC00000 v.sectorMs)
    let speed := withSign (fNeg? v.setpoint) (sectorRate s.blk d.val ms)
    let only := fun (b : Block) => (∀ j, j ≠ d.val → drive b j = drive s.blk j) ∧ b = { s.blk with ev := b.ev, prot := b.prot }
    let dt := ofRat 1 (drvPwm s.blk d.val * 100)
    let ref := (refNext s.blk d.val dt).1
    let pump := drvPump s.blk d.val
    let real := if pump && !v.sensorless then v.resSpeed else v.speed
    let err := if pump then fsub ref real else fsub (fabs ref) (fabs real)
    let regen := pump && !fIsZero v.u && !fIsZero real && fNeg? v.u != fNeg? real
    let lim := flt (drvF s.blk d.val 6) (fabs cur) || (regen && flt (drvF s.blk d.val 7) (fabs cur))
    (v.st ∉ [DriveSt.run, .openLoop] ∨ sixStep s.blk d.val = false ∨ inWin = false ∨ s.blk.prot.frozen = true →
        Completes (.bemfZeroCrossing d off ms) s (fun b => b = s.blk))
    ∧ (sixStep s.blk d.val = true → inWin = true → s.blk.prot.frozen = false →
        (v.st = .run → Completes (.bemfZeroCrossing d off ms) s (fun b => only b ∧ (drive b d.val).st = .run ∧ (drive b d.val).speed = speed
          ∧ (drive b d.val).sectorMs = ms ∧ (drive b d.val).commDue = true ∧ (drive b d.val).crossAt = sampleAt s.blk off.val ∧ (drive b d.val).missRun = 0
          ∧ (drive b d.val).crossRun = v.crossRun + 1))
        ∧ (v.st = .openLoop → 5 ≤ v.crossRun → fle (catchMin s.blk d.val) (fabs speed) = true → Completes (.bemfZeroCrossing d off ms) s (fun b =>
          only b ∧ (drive b d.val).st = .run ∧ (drive b d.val).ref = withSign (fNeg? v.setpoint) v.forced ∧ (drive b d.val).u = v.u
            ∧ (drive b d.val).integ = v.u)))
    ∧ (sixStep s.blk d.val = true → s.blk.prot.frozen = false → v.st = .run → commutes v (sampleAt s.blk off.val) = true →
      Completes (.sectorCommutate d off) s (fun b => only b
        ∧ drive b d.val = { v with
            sector := if fNeg? v.setpoint then (v.sector + 5) % 6 else (v.sector + 1) % 6
            commAt := sampleAt s.blk off.val
            commDue := false, missRun := if v.commDue then 0 else v.missRun + 1, crossRun := if v.commDue then v.crossRun else 0 }))
    ∧ (v.st ≠ .run ∨ commutes v (sampleAt s.blk off.val) = false → Completes (.sectorCommutate d off) s (fun b => only b ∧ drive b d.val = v))
    ∧ (sixStep s.blk d.val = false ∨ s.blk.prot.frozen = true → Completes (.sectorCommutate d off) s (fun b => b = s.blk))
    ∧ (v.st ≠ .openLoop ∨ s.blk.prot.frozen = true → Completes (.forcedCommutation d off) s (fun b => b = s.blk))
    ∧ (v.st = .openLoop → s.blk.prot.frozen = false →
        let f := fmul (drvF s.blk d.val 2) (ofRat (now s.blk - v.since) 100000)
        (fle (fmul 0x3FC00000 (catchMin s.blk d.val)) f = false → Completes (.forcedCommutation d off) s (fun b => only b
          ∧ drive b d.val = { v with forced := f, sectorMs := sectorRate s.blk d.val f, commDue := false
                                     crossRun := if v.commDue then v.crossRun else 0
                                     sector := if fNeg? v.setpoint then (v.sector + 5) % 6 else (v.sector + 1) % 6 }))
        ∧ (fle (fmul 0x3FC00000 (catchMin s.blk d.val)) f = true → Completes (.forcedCommutation d off) s (fun b => only b
          ∧ ((drive b d.val).st = .recover ∨ (drive b d.val).st = .fault))))
    ∧ (v.st ≠ .run ∨ s.blk.prot.frozen = true ∨ periodPassed s.blk d.val (sampleAt s.blk off.val) = false → Completes (.speedLoop d off cur) s (fun b => b = s.blk))
    ∧ (v.st = .run → s.blk.prot.frozen = false → periodPassed s.blk d.val (sampleAt s.blk off.val) = true → (refNext s.blk d.val dt).2 = false →
        (lim = true → Completes (.speedLoop d off cur) s (fun b => only b
          ∧ drive b d.val = { v with ref := ref, speed := real, u := fsub v.u (fdiv v.u (ofNatF 64)), limNow := true
                                     peak := fmax v.peak (fabs cur), sampled := cur, loopAt := some (sampleAt s.blk off.val) }))
        ∧ (lim = false → Completes (.speedLoop d off cur) s (fun b => only b
          ∧ (drive b d.val).integ = fadd v.integ (fmul (fmul (drvF s.blk d.val 5) err) dt)
          ∧ (drive b d.val).u = fclamp (if pump then fneg 0x3F800000 else 0) 0x3F800000 (fadd (fmul (drvF s.blk d.val 4) err) (drive b d.val).integ)
          ∧ (drive b d.val).ref = ref ∧ (drive b d.val).st = .run)))
    ∧ (v.st = .run → s.blk.prot.frozen = false → periodPassed s.blk d.val (sampleAt s.blk off.val) = true → (refNext s.blk d.val dt).2 = true → Completes (.speedLoop d off cur) s (fun b =>
        b.prot.drives = (onDrive d.val (fun q => if q.resValid then { q with ref := 0, sensorless := false, sensorlessNext := false }
          else { q with ref := 0 }) (driveTo d.val .off false s.blk)).prot.drives ∧ b = { s.blk with ev := b.ev, prot := b.prot }))

/-- Carve arithmetic: every enabled lane's vD, the cycles, and nothing else -/
def Obligations.CarveArithmetic : Prop :=
  ∀ (e : Fin 272) (f : FmtR) (s : State),
    let g := engine s.blk e.val
    let A := fun j => g.vget j f.a.val
    let B := fun j => g.vget j f.b.val
    let q := f.x.val % 32
    let op := fun (i : Instr) (cost : Nat) (v : Nat → W32) =>
      Runs i s e cost { g with regs := writeLanes g (lanesOf g f.pred.val f.pinv) f.d.val v }
    (∀ oc ∈ [(0x00, Instr.cvNop e f), (0x01, .cvFadd e f), (0x02, .cvFsub e f), (0x03, .cvFmul e f), (0x04, .cvFma e f), (0x05, .cvFmin e f),
        (0x06, .cvFmax e f), (0x07, .cvFabs e f), (0x08, .cvFneg e f), (0x09, .cvFrcp e f), (0x0A, .cvFsqrt e f), (0x0B, .cvFcmp e f),
        (0x10, .cvIadd e f), (0x11, .cvIsub e f), (0x12, .cvIaddw e f), (0x13, .cvIsubw e f), (0x14, .cvImulq e f), (0x15, .cvIshl e f),
        (0x16, .cvIshr e f), (0x17, .cvAnd e f), (0x18, .cvOr e f), (0x19, .cvXor e f), (0x1A, .cvIcmp e f), (0x1B, .cvUcmp e f),
        (0x20, .cvFtoi e f), (0x21, .cvItof e f), (0x22, .cvSincos e f), (0x23, .cvAtan2 e f), (0x28, .cvSel e f), (0x29, .cvPand e f),
        (0x2A, .cvPor e f), (0x2B, .cvPnot e f), (0x2C, .cvLsum e f), (0x2D, .cvLmax e f), (0x2E, .cvLmin e f), (0x2F, .cvLget e f),
        (0x38, .cvIntg e f), (0x39, .cvLim e f), (0x3A, .cvBump e f), (0x3B, .cvBumpo e f), (0x3D, .cvPublish e f), (0x3E, .cvCommit e f)],
      insnOf e (wordR oc.1 f) = some oc.2)
    ∧ op (.cvFadd e f) 1 (fun j => fadd (A j) (B j)) ∧ op (.cvFsub e f) 1 (fun j => fsub (A j) (B j))
    ∧ op (.cvFmul e f) 1 (fun j => fmul (A j) (B j)) ∧ op (.cvFma e f) 2 (fun j => ffma (g.vget j f.d.val) (A j) (B j))
    ∧ op (.cvFmin e f) 1 (fun j => fmin (A j) (B j)) ∧ op (.cvFmax e f) 1 (fun j => fmax (A j) (B j))
    ∧ op (.cvFabs e f) 1 (fun j => fabs (A j)) ∧ op (.cvFneg e f) 1 (fun j => fcanon (fneg (A j)))
    ∧ op (.cvFrcp e f) 4 (fun j => frcp (A j)) ∧ op (.cvFsqrt e f) 6 (fun j => fsqrt (A j))
    ∧ op (.cvIadd e f) 1 (fun j => satI (s32 (A j) + s32 (B j))) ∧ op (.cvIsub e f) 1 (fun j => satI (s32 (A j) - s32 (B j)))
    ∧ op (.cvIaddw e f) 1 (fun j => A j + B j) ∧ op (.cvIsubw e f) 1 (fun j => A j - B j)
    ∧ (q = 0 → op (.cvImulq e f) 2 (fun j => satI (s32 (A j) * s32 (B j))))
    ∧ (0 < q → op (.cvImulq e f) 2 (fun j => satI ((s32 (A j) * s32 (B j) + 2 ^ (q - 1)) / 2 ^ q)))
    ∧ op (.cvIshl e f) 1 (fun j => satI (s32 (A j) * 2 ^ q)) ∧ op (.cvIshr e f) 1 (fun j => (A j).sshiftRight q)
    ∧ op (.cvAnd e f) 1 (fun j => A j &&& B j) ∧ op (.cvOr e f) 1 (fun j => A j ||| B j) ∧ op (.cvXor e f) 1 (fun j => A j ^^^ B j)
    ∧ op (.cvFtoi e f) 1 (fun j => ftoi q (A j)) ∧ op (.cvItof e f) 1 (fun j => itof q (A j))

/-- Carve comparisons, predicates and selection -/
def Obligations.CarvePredicates : Prop :=
  ∀ (e : Fin 272) (f : FmtR) (m : FmtM) (s : State),
    let g := engine s.blk e.val
    let A := fun j => g.vget j f.a.val
    let B := fun j => g.vget j f.b.val
    let P := fun j => g.pget j (f.a.val % 8)
    let Q := fun j => g.pget j (f.b.val % 8)
    let c := f.x.val % 8
    let young := decide (ageOf s.blk (Tbl.get {} g.mirFront m.imm.val) ≤ cfgN s.blk 0x09 e.val (17 + m.imm.val) 15 8)
    let op := fun (i : Instr) (v : Nat → Bool) =>
      Runs i s e 1 { g with preds := writePreds g (lanesOf g f.pred.val f.pinv) (f.d.val % 8) v }
    op (.cvFcmp e f) (fun j => fcond c (A j) (B j))
    ∧ (c = 0 → op (.cvIcmp e f) (fun j => decide (s32 (A j) = s32 (B j))) ∧ op (.cvUcmp e f) (fun j => decide (A j = B j)))
    ∧ (c = 1 → op (.cvIcmp e f) (fun j => decide (s32 (A j) ≠ s32 (B j))) ∧ op (.cvUcmp e f) (fun j => decide (A j ≠ B j)))
    ∧ (c = 2 → op (.cvIcmp e f) (fun j => decide (s32 (A j) < s32 (B j))) ∧ op (.cvUcmp e f) (fun j => decide ((A j).toNat < (B j).toNat)))
    ∧ (c = 3 → op (.cvIcmp e f) (fun j => decide (s32 (A j) ≤ s32 (B j))) ∧ op (.cvUcmp e f) (fun j => decide ((A j).toNat ≤ (B j).toNat)))
    ∧ (c = 4 → op (.cvIcmp e f) (fun j => decide (s32 (B j) < s32 (A j))) ∧ op (.cvUcmp e f) (fun j => decide ((B j).toNat < (A j).toNat)))
    ∧ (c = 5 → op (.cvIcmp e f) (fun j => decide (s32 (B j) ≤ s32 (A j))) ∧ op (.cvUcmp e f) (fun j => decide ((B j).toNat ≤ (A j).toNat)))
    ∧ (6 ≤ c → op (.cvIcmp e f) (fun _ => false) ∧ op (.cvUcmp e f) (fun _ => false))
    ∧ op (.cvPand e f) (fun j => P j && Q j) ∧ op (.cvPor e f) (fun j => P j || Q j) ∧ op (.cvPnot e f) (fun j => !P j)
    ∧ Runs (.cvSel e f) s e 1 { g with regs := writeLanes g (lanesOf g f.pred.val f.pinv) f.d.val (fun j => if g.pget j c then A j else B j) }
    ∧ Runs (.cvXok e m) s e 1 { g with preds := writePreds g (lanesOf g m.pred.val m.pinv) (m.d.val % 8) (fun _ => young) }

/-- Carve across lanes, lane memory, program words, the mirror, the post buffer -/
def Obligations.CarveMemory : Prop :=
  ∀ (e : Fin 272) (f : FmtR) (m : FmtM) (s : State),
    let g := engine s.blk e.val
    let fl := lanesOf g f.pred.val f.pinv
    let ml := lanesOf g m.pred.val m.pinv
    let A := fun j => g.vget j f.a.val
    let opF := fun (i : Instr) (cost : Nat) (v : Nat → W32) => Runs i s e cost { g with regs := writeLanes g fl f.d.val v }
    let opM := fun (i : Instr) (v : Nat → W32) => Runs i s e 1 { g with regs := writeLanes g ml m.d.val v }
    let w := fun (j : Nat) => m.imm.val + j * (if m.x.val % 2 = 0 then 1 else 8)
    let up := if g.sect = .shadow ∧ 12 ≤ m.imm.val ∧ m.imm.val ≤ 23 then m.imm.val + 12 else m.imm.val
    let posted := fun (t : Tbl W32) => ml.foldl (fun (t : Tbl W32) j => if w j ≤ 79 then Tbl.set 0 t (w j) (g.vget j m.d.val) else t) t
    let stored := ml.foldl (fun (t : Tbl W32) j => Tbl.set 0 t (256 * j + up) (g.vget j m.d.val)) g.mem
    let both := fl.foldl (fun (t : Tbl W32) j =>
      Tbl.set 0 (Tbl.set 0 t (32 * j + f.d.val) (fsin (A j))) (32 * j + f.d.val + 1) (fcos (A j))) g.regs
    let nans := fl.foldl (fun n j => if fIsNaN (A j) || fIsNaN (g.vget j f.b.val) then n ||| (1 <<< j) else n) g.nanLanes
    (∀ oc ∈ [(0x31, Instr.cvLd e m), (0x32, .cvSt e m), (0x33, .cvLdc e m), (0x34, .cvXld e m), (0x35, .cvXok e m), (0x36, .cvXldl e m),
        (0x3C, .cvPost e m)], insnOf e (wordM oc.1 m) = some oc.2)
    ∧ Runs (.cvNop e f) s e 1 g
    ∧ (∀ x xs, fl = x :: xs → opF (.cvLsum e f) 3 (fun _ => (xs.map A).foldl fadd (fcanon (A x)))
        ∧ opF (.cvLmax e f) 2 (fun _ => (xs.map A).foldl fmax (fcanon (A x)))
        ∧ opF (.cvLmin e f) 2 (fun _ => (xs.map A).foldl fmin (fcanon (A x))))
    ∧ (fl = [] → Runs (.cvLsum e f) s e 3 g ∧ Runs (.cvLmax e f) s e 2 g ∧ Runs (.cvLmin e f) s e 2 g)
    ∧ opF (.cvLget e f) 1 (fun _ => A (f.x.val % 8))
    ∧ (m.imm.val < 256 → opM (.cvLd e m) (fun j => g.mget j m.imm.val))
    ∧ opM (.cvLdc e m) (fun _ => Tbl.get 0 g.bank.words m.imm.val)
    ∧ opM (.cvXld e m) (fun _ => (Tbl.get {} g.mirFront m.imm.val).val)
    ∧ opM (.cvXldl e m) (fun j => (Tbl.get {} g.mirFront (m.imm.val + j)).val)
    ∧ (m.imm.val < 256 → Runs (.cvSt e m) s e 1 { g with mem := stored })
    ∧ (g.sect ≠ .shadow → Runs (.cvPost e m) s e 1 { g with post := posted g.post })
    ∧ (g.sect = .shadow → Runs (.cvPost e m) s e 1 { g with postShadow := posted g.postShadow })
    ∧ (f.d.val < 31 → Runs (.cvSincos e f) s e 6 { g with regs := both })
    ∧ Runs (.cvAtan2 e f) s e 8 { g with regs := writeLanes g fl f.d.val (fun j => fatan2 (A j) (g.vget j f.b.val)), nanLanes := nans }

/-- The Carve control instructions INTG, LIM, BUMP and BUMPO -/
def Obligations.CarveControl : Prop :=
  ∀ (e : Fin 272) (f : FmtR) (j : Nat) (s : State),
    let g := engine s.blk e.val
    let a := g.vget j f.a.val
    let k := f.d.val % 16
    let o := f.x.val % 16
    let lo := g.mget j (40 + 3 * k + 1)
    let hi := g.mget j (40 + 3 * k + 2)
    let oLo := g.mget j (88 + 4 * o + 1)
    let oHi := g.mget j (88 + 4 * o + 2)
    let y := fadd a (g.mget j (88 + 4 * o + 3))
    let held := match g.bound k with
      | some u => (bits (g.mget j (152 + u)) 15 14 == 1 && flt 0 a) || (bits (g.mget j (152 + u)) 15 14 == 3 && flt a 0)
      | none => false
    let dir := if flt oHi oLo || flt oHi y then 1 else if flt y oLo then 3 else 0
    let v := if flt oHi oLo then oLo else fclamp oLo oHi y
    let m1 := Tbl.set 0 g.mem (256 * j + (88 + 4 * o)) v
    let df := fsub (g.mget j (88 + 4 * o)) a
    let st := fclamp lo hi df
    let own := f.b.val % 16
    let bare := fsub (g.mget j (88 + 4 * own)) (g.mget j (91 + 4 * own))
    let rest := fsub df bare
    let m2 := Tbl.set 0 g.mem (256 * j + (91 + 4 * own)) rest
    let nan := { g with nanLanes := g.nanLanes ||| (1 <<< j) }
    let fl := lanesOf g f.pred.val f.pinv
    let dl := fsub df st
    let m3 := fun (u : Nat) => Tbl.set 0 (Tbl.set 0 g.mem (256 * j + (40 + 3 * k)) st) (256 * j + (91 + 4 * u)) dl
    (Runs (.cvIntg e f) s e 1 (fl.foldl (fun (q : Engine) i => intgLane k (g.vget i f.a.val) g i q) g)
      ∧ Runs (.cvLim e f) s e 2 (fl.foldl (fun (q : Engine) i => limLane o f.d.val (g.vget i f.a.val) g i q) g)
      ∧ Runs (.cvBump e f) s e 2 (fl.foldl (fun (q : Engine) i => bumpLane g.ramp k o (g.vget i f.a.val) g i q) g)
      ∧ Runs (.cvBumpo e f) s e 2 (fl.foldl (fun (q : Engine) i => bumpoLane g.ramp own o (g.vget i f.a.val) g i q) g))
    ∧ (fl = [j] →
      (fIsNaN a = true → Runs (.cvIntg e f) s e 1 nan)
      ∧ (fIsNaN a = false → held = true → Runs (.cvIntg e f) s e 1 g)
      ∧ (fIsNaN a = false → held = false → Runs (.cvIntg e f) s e 1 { g with
          mem := Tbl.set 0 g.mem (256 * j + (40 + 3 * k)) (fclamp lo hi (fadd (g.mget j (40 + 3 * k)) a)) })
      ∧ (fIsNaN a = true → Runs (.cvLim e f) s e 2 { nan with regs := writeLanes g [j] f.d.val (fun _ => g.mget j (88 + 4 * o)) })
      ∧ (fIsNaN a = false → Runs (.cvLim e f) s e 2 { g with
          mem := Tbl.set 0 m1 (256 * j + (152 + o)) (setBits (Tbl.get 0 m1 (256 * j + (152 + o))) 15 14 dir)
          regs := writeLanes g [j] f.d.val (fun _ => v)
          limRan := Tbl.set false g.limRan (16 * j + o) true })
      ∧ (g.phase = 0 → Runs (.cvBump e f) s e 2 g)
      ∧ (g.phase ≠ 0 → fIsNaN df = true → Runs (.cvBump e f) s e 2 nan)
      ∧ (g.phase = 1 → fIsNaN df = false → Runs (.cvBump e f) s e 2 { g with mem := Tbl.set 0 g.mem (256 * j + (40 + 3 * k)) st })
      ∧ (g.phase = 2 → fIsNaN df = false → g.bound k = none → Runs (.cvBump e f) s e 2 { g with
          mem := Tbl.set 0 g.mem (256 * j + (40 + 3 * k)) st })
      ∧ (∀ u, g.phase = 2 → fIsNaN df = false → g.bound k = some u → Runs (.cvBump e f) s e 2 { g with
          mem := Tbl.set 0 (m3 u) (256 * j + (152 + u))
            (setBits (Tbl.get 0 (m3 u) (256 * j + (152 + u))) 13 0 (if fIsZero dl = true then 0 else g.ramp))
          maxDelta := fmax g.maxDelta (fabs dl) })
      ∧ (g.phase ≠ 2 → Runs (.cvBumpo e f) s e 2 g)
      ∧ (g.phase = 2 → (fIsNaN df || fIsNaN bare) = true → Runs (.cvBumpo e f) s e 2 nan)
      ∧ (g.phase = 2 → fIsNaN df = false → fIsNaN bare = false → Runs (.cvBumpo e f) s e 2 { g with
          mem := Tbl.set 0 m2 (256 * j + (152 + own))
            (setBits (Tbl.get 0 m2 (256 * j + (152 + own))) 13 0 g.ramp)
          maxDelta := fmax g.maxDelta (fabs rest) }))

/-- Windows and sections of the engines, the freeze of the mirror, the fabric's round robin -/
def Obligations.EngineWindows : Prop :=
  ∀ (e : Fin 272) (c l n : Bool) (r : Option (Fin 272 × Fin 1024)) (s : State),
    let g := engine s.blk e.val
    let opens := fun (i : Instr) (lo len : Nat) => Completes i s (fun b =>
      (∀ x, lo ≤ x → x < lo + len →
          ((engine s.blk x).failed = true ∨ (engine s.blk x).bank.valid = false ∨ computes s.blk = false →
              engine b x = { engine s.blk x with running := false, delivered := false, sect := .idle, shadowLaw := none, undo := none })
          ∧ ((engine s.blk x).failed = false → (engine s.blk x).bank.valid = true → computes s.blk = true →
              (engine b x).running = true ∧ (engine b x).delivered = false ∧ (engine b x).sect = .idle
              ∧ (engine b x).cyc = 0 ∧ (engine b x).pos = 0 ∧ (engine b x).law = (lawFor (engine s.blk x).bank s.blk.md.mode).map Law.id
              ∧ ((engine s.blk x).law.isSome = true → (engine s.blk x).law ≠ (engine b x).law →
                  (engine b x).hoPhase = 2 ∧ (engine b x).lastLaw = (engine s.blk x).law ∧ (engine b x).ramp = s.blk.fab.rampWas)))
        ∧ (∀ x, x < lo ∨ lo + len ≤ x → engine b x = engine s.blk x)
        ∧ b = { s.blk with eng := b.eng, fab := { s.blk.fab with opened := some (work s.blk) } })
    let turn := s.blk.fab.turn
    let next := (turn + 1) % 4
    let asks := fun (u : Nat) => match u with
      | 0 => c
      | 1 => l
      | 2 => n
      | _ => r.isSome
    let serve := fun (u : Nat) (b : Block) => if u = 3 then
        (match r with
          | some x => if subEn s.blk x.1.val x.2.val = true then onEngine x.1.val (fun (q : Engine) => { q with
                mirBack := Tbl.set {} q.mirBack x.2.val (mirrorValue s.blk (subId s.blk x.1.val x.2.val)) }) b else b
          | none => b)
      else b
    (sysRuns s.blk = false → ∀ i ∈ [Instr.summitWindowStart, .squadWindowStart], Completes i s (fun b => b = s.blk))
    ∧ (sysRuns s.blk = true → opens .summitWindowStart 256 16 ∧ opens .squadWindowStart 0 256)
    ∧ (g.running = false ∨ g.sect = .tail ∨ g.codeWord.isSome = true ∨ sysRuns s.blk = false → Completes (.sectionStart e) s (fun b => b = s.blk))
    ∧ (g.running = true → g.sect ≠ .tail → g.codeWord = none → sysRuns s.blk = true → Completes (.sectionStart e) s (fun b =>
        (engine b e.val).sect = g.nextSection ∧ (engine b e.val).regs = [] ∧ (engine b e.val).preds = [] ∧ (engine b e.val).cyc = g.cyc + 1 ∧ (engine b e.val).pos = 0
          ∧ (engine b e.val).mem = (List.range 8).foldl (fun (t : Tbl W32) j =>
              Tbl.set 0 t (256 * j + 36) (laneInfo s.blk e.val (engine b e.val) j)) g.mem
          ∧ (engine b e.val).trackRun = (if g.nextSection = .shadow then g.trackRun + 1 else g.trackRun)
          ∧ (∀ x, x ≠ e.val → engine b x = engine s.blk x) ∧ b = { s.blk with eng := b.eng }))
    ∧ ((∃ m < 1024, subEn s.blk e.val m = true) →
        (∀ m < 1024, subEn s.blk e.val m = true → (mirrorValue s.blk (subId s.blk e.val m)).at?.isSome = true) →
        Completes (.mirrorFreeze e) s (fun b =>
          (∀ m < 1024, subEn s.blk e.val m = true → Tbl.get {} (engine b e.val).mirFront m = mirrorValue s.blk (subId s.blk e.val m))
            ∧ (∀ m, 1024 ≤ m ∨ subEn s.blk e.val m = false → Tbl.get {} (engine b e.val).mirFront m = Tbl.get {} g.mirFront m)
            ∧ b = { s.blk with eng := b.eng }))
    ∧ (c = false → l = false → n = false → r = none → Completes (.fabricBackgroundCycle c l n r none) s (fun b =>
        b.fab.served = none ∧ b = { s.blk with fab := b.fab }))
    ∧ (turn < 4 → asks turn = true → s.blk.fab.left ≠ 0 → Completes (.fabricBackgroundCycle c l n r none) s (fun b =>
        b = serve turn { s.blk with fab := { s.blk.fab with served := some turn, left := s.blk.fab.left - 1 } }))
    ∧ (turn < 4 → asks turn = false ∨ s.blk.fab.left = 0 → asks next = true → fabWeight s.blk.fab next ≠ 0 →
        Completes (.fabricBackgroundCycle c l n r none) s (fun b =>
          b = serve next { s.blk with fab := { s.blk.fab with served := some next, turn := next, left := fabWeight s.blk.fab next - 1 } }))
    ∧ (∀ w : Weights, exec (.fabricBackgroundCycle c l n r (some w)) s = exec (.fabricBackgroundCycle c l n r none) { s with blk := { s.blk with
        fab := { s.blk.fab with
          wCoach := w.coach.val + 1, wLedger := w.ledger.val + 1, wSnapshot := w.snapshot.val + 1, wCarve := w.carve.val + 1
          ddr := { s.blk.fab.ddr with wLedger := w.ddrLedger.val + 1, wSnapshot := w.ddrSnapshot.val + 1, wDma := w.ddrDma.val + 1
                                      wCoach := w.ddrCoach.val + 1 } } } })

/-- Delivery of an engine, a missed deadline, memory errors -/
def Obligations.DeliveryAndMisses : Prop :=
  ∀ (e : Fin 272) (f : FmtR) (cyc : Fin 640) (k : Nat) (s : State),
    let g := engine s.blk e.val
    let others := fun (b : Block) => ∀ x, x ≠ e.val → engine b x = engine s.blk x
    let again := g.missStride = some (m64 (work s.blk + 2 ^ 64 - 1))
    let missed := fun (b : Block) => (engine b e.val).delivered = false ∧ (engine b e.val).missStride = some (work s.blk)
      ∧ b.pair.localFault = true ∧ (again → (engine b e.val).failed = true)
      ∧ (¬again → (∀ u, g.undo = some u → (engine b e.val).mem = u.mem ∧ (engine b e.val).hoPhase = u.hoPhase
            ∧ (engine b e.val).trackRun = u.trackRun ∧ (engine b e.val).lastCycle = u.lastCycle)
          ∧ (g.undo = none → (engine b e.val).mem = g.mem) ∧ b.cells = ((affected s.blk e.val).foldl (fun (b : Block) n => nolist n b) s.blk).cells
          ∧ b = { s.blk with eng := b.eng, cells := b.cells, ev := b.ev, pair.localFault := true })
    (∀ i ∈ [Instr.cvPublish e f, .cvCommit e f],
      (nextInsn s.blk e ≠ some i → Completes i s (fun b => b = s.blk))
      ∧ (nextInsn s.blk e = some i → g.missStride = some (work s.blk) → Completes i s (fun b => others b ∧ b = { s.blk with eng := b.eng }
        ∧ engine b e.val = { g with lastIssue := some g.cyc, cyc := g.cyc + 1, pos := g.pos + 1 }))
      ∧ (nextInsn s.blk e = some i → g.missStride ≠ some (work s.blk) → (∀ o < 16, supCfg s.blk e.val o = 0) → g.nanLanes = 0 → g.hoPhase ≠ 2 →
          Completes i s (fun b => others b ∧ b = { s.blk with eng := b.eng }
        ∧ engine b e.val = { g with delivered := true, lastCycle := g.cyc, lastIssue := some g.cyc, cyc := g.cyc + 1, pos := g.pos + 1
                                    mem := (decayRamps (updateSatRuns g)).mem
                                    undo := some { mem := g.mem, hoPhase := g.hoPhase, trackRun := g.trackRun, maxDelta := g.maxDelta
                                                   lastCycle := g.lastCycle } }
        ∧ ((∀ j < 8, ∀ o < 16, g.mget j (152 + o) = 0) → (engine b e.val).mem = g.mem)))
      ∧ (nextInsn s.blk e = some i → g.missStride ≠ some (work s.blk) → g.hoPhase = 2 → Completes i s (fun b => others b ∧ b = { s.blk with eng := b.eng, ev := b.ev }
        ∧ (engine b e.val).hoPhase = 0 ∧ (engine b e.val).delivered = true ∧ (engine b e.val).lastCycle = g.cyc
        ∧ LastEvent b .handover [w32 e.val, w32 (g.lastLaw.getD 0), w32 (g.law.getD 0), w32 g.trackRun, g.maxDelta])))
    ∧ (g.running = false ∨ g.delivered = true ∨ g.missStride = some (work s.blk) → Completes (.deadlineMiss e) s (fun b => b = s.blk))
    ∧ (g.running = true → g.delivered = false → g.missStride ≠ some (work s.blk) → Completes (.deadlineMiss e) s (fun b => missed b
        ∧ (¬again → LastEvent b .deadlineMiss ([w32 e.val] ++ w64 (work s.blk) ++ [w32 (g.lastIssue.getD 0xFFFF)]))))
    ∧ (g.running = false ∨ g.missStride = some (work s.blk) → Completes (.engineEccUncorrectable e cyc) s (fun b => b = s.blk))
    ∧ (g.running = true → g.missStride ≠ some (work s.blk) → Completes (.engineEccUncorrectable e cyc) s (fun b => missed b
        ∧ LastEvent b .carveEcc [w32 e.val]))
    ∧ (∀ bank, bank = none ∨ bank = some g.activeB → Completes (.engineScrub e k bank) s (fun b =>
        b = { s.blk with eng := Tbl.upd {} s.blk.eng e.val fun (q : Engine) => { q with eccCe := Nat.min 255 (q.eccCe + k) } }))
    ∧ Completes (.engineScrub e k (some !g.activeB)) s (fun b => LastEvent b .carveEcc [w32 e.val]
        ∧ b = { s.blk with ev := b.ev, eng := Tbl.upd {} s.blk.eng e.val fun (q : Engine) =>
                  if g.activeB = true then { q with eccCe := Nat.min 255 (q.eccCe + k), bankA := { q.bankA with valid := false } }
                  else { q with eccCe := Nat.min 255 (q.eccCe + k), bankB := { q.bankB with valid := false } } })

/-- What leaves the engines: limb partials, references, committed commands -/
def Obligations.EngineOutputs : Prop :=
  ∀ (p : Fin 32) (k : Fin 16) (s : State),
    let ls := (chainLimbs s.blk p.val).take 8
    let e := 256 + k.val
    let post := Tbl.range 0 (engine s.blk e).post 0 80
    let nan := Tbl.setRange 0 (engine s.blk e).post 0 (List.replicate 32 0x7FC00000)
    (computes s.blk = false → ∀ i ∈ [Instr.closingRoundPost p, .referenceSlots k, .commitTake], Completes i s (fun b => b = s.blk))
    ∧ (sysRuns s.blk = false → Completes .commitTake s (fun b => b = s.blk))
    ∧ (computes s.blk = true → Completes (.closingRoundPost p) s (fun b => b = { s.blk with fab := { s.blk.fab with xvars := b.fab.xvars } }
        ∧ ∀ i < ls.length, ∀ w < 4, (Tbl.get {} b.fab.xvars (32 * p.val + 4 * i + w)).cur
            = { val := word (partialWords s.blk p.val (ls.getD i 0)) w, at? := some (work s.blk) }))
    ∧ (computes s.blk = true → outputsStand s.blk e = false → Completes (.referenceSlots k) s (fun b =>
        b = { s.blk with eng := b.eng } ∧ (engine b e).post = nan))
    ∧ (computes s.blk = true → outputsStand s.blk e = true → Completes (.referenceSlots k) s (fun b =>
        b = { s.blk with eng := b.eng, fab := { s.blk.fab with xvars := b.fab.xvars }, slal := { s.blk.slal with ref := b.slal.ref } }
          ∧ (engine b e).post = nan
          ∧ (∀ w < 80, (Tbl.get {} b.fab.xvars (0x400 + 80 * k.val + w)).cur = { val := word post w, at? := some (work s.blk) })
          ∧ ∀ i < 4, ∀ l, (hosted s.blk e)[i]? = some l → Tbl.get [] b.slal.ref l
            = (let r := (post.drop (8 * i)).take 8
               if (List.range 8).any (withdrawn s.blk e) = true then r.set 3 (setBits (word r 3) 31 30 2) else r)))
    ∧ (computes s.blk = true → sysRuns s.blk = true → Completes .commitTake s (fun b =>
        b = { s.blk with eng := b.eng, slal := { s.blk.slal with cmd := b.slal.cmd } }
          ∧ ∀ x < 256, ∀ j < 8,
            let r := (List.range 12).map fun w => (engine s.blk x).mget j (12 + w)
            (outputsStand s.blk x = false → Tbl.get [] b.slal.cmd (8 * x + j) = [])
              ∧ (outputsStand s.blk x = true → withdrawn s.blk x j = false → Tbl.get [] b.slal.cmd (8 * x + j) = r)
              ∧ (outputsStand s.blk x = true → withdrawn s.blk x j = true →
                  Tbl.get [] b.slal.cmd (8 * x + j) = r.set 0 (setBits (word r 0) 31 28 0))))

/-- Loading Carve programs and swapping banks -/
def Obligations.CarveBanks : Prop :=
  ∀ (h : Hdr) (slot : Fin 32) (es : List (Fin 272)) (B : Nat) (keep : Bool) (s : State),
    let ns := es.map Fin.val
    let load := Instr.carveLoad h slot es
    let swap := Instr.carveSwap h B es keep
    (Admitted s.blk 0x0801 (es.map fun e => .engine e.val) →
      (isPartner s.blk = true → Completes load s (fun b => Answers h .pairRole noDetail [] s.blk b))
      ∧ (isPartner s.blk = false →
        (es = [] → Completes load s (fun b => Answers h .badArg 1 [] s.blk b))
        ∧ (es ≠ [] → ns.any (swapPending s.blk) = true → Completes load s (fun b => Answers h .busy noDetail [] s.blk b))
        ∧ (es ≠ [] → ns.any (swapPending s.blk) = false →
          (∀ r, slotSection s.blk slot.val = .error r → Completes load s (fun b =>
            LastEvent b .imageRejected [5, w32 slot.val, w32 r] ∧ Answers h .imageBad noDetail [] { s.blk with ev := b.ev } b))
          ∧ (∀ img, slotSection s.blk slot.val = .ok img →
            (∀ e ∈ es, carveRefused (some (decide (256 ≤ e.val))) ((sectionOf img.words 2).getD []) = none) →
            (costRefused s.blk (loadSlot img ns s.blk) = true → Completes load s (fun b => Answers h .powerCap noDetail [] s.blk b))
            ∧ (costRefused s.blk (loadSlot img ns s.blk) = false → Completes load s (fun b => b = { s.blk with
                host.waiting := s.blk.host.waiting ++ [{ h := h, op := 0x0801, objs := ns.map .engine
                                                         data := w32 slot.val :: engineWords ns, since := now s.blk }] }))))))
    ∧ (s.blk.host.waiting = [] → Completes (.carveLoadDone slot) s (fun b => b = s.blk))
    ∧ (∀ w img, s.blk.host.waiting = [w] → w.op = 0x0801 → word w.data 0 = w32 slot.val → slotSection s.blk slot.val = .ok img →
        Completes (.carveLoadDone slot) s (fun b => Answered w.h .ok noDetail [] b ∧ b.host.waiting = []
          ∧ LastEvent b .carveLoaded (w32 slot.val :: engineWords (engineList (w.data.drop 1)))
          ∧ (∀ x ∈ engineList (w.data.drop 1),
              (engine b x).standby = bankOf ((sectionOf img.words 2).getD []) (measurement img.words) ∧ (engine b x).bank = (engine s.blk x).bank)
          ∧ (∀ x, x ∉ engineList (w.data.drop 1) → engine b x = engine s.blk x)))
    ∧ (Admitted s.blk 0x0802 (es.map fun e => .engine e.val) →
        (isPartner s.blk = true → Completes swap s (fun b => Answers h .pairRole noDetail [] s.blk b))
        ∧ (isPartner s.blk = false → es = [] → Completes swap s (fun b => Answers h .badArg 2 [] s.blk b)))
    ∧ (Admitted s.blk 0x0802 (es.map fun e => .engine e.val) → isPartner s.blk = false → es ≠ [] →
        (∀ st, checkBoundary s.blk B = some st → Completes swap s (fun b => Answers h st 0 [] s.blk b))
        ∧ (checkBoundary s.blk B = none →
          (∀ st, swapRefused s.blk ns = some st → Completes swap s (fun b => Answers h st noDetail [] s.blk b))
          ∧ (swapRefused s.blk ns = none → ns.any (swapPending s.blk) = false → Completes swap s (fun b => Answers h .ok noDetail []
              { s.blk with pair.cmdSent := b.pair.cmdSent
                           host.actions := s.blk.host.actions
                             ++ [{ boundary := B, kind := .swap ns keep, op := 0x0802, h := h, since := now s.blk }] } b))))
    ∧ (∀ a, s.blk.host.actions = [a] → a.kind = .swap ns keep →
        (now s.blk < a.boundary → Completes .carveBankSwap s (fun b => b = s.blk))
        ∧ (a.boundary ≤ now s.blk → swapRefused s.blk ns = none → ns.Nodup → Completes .carveBankSwap s (fun b =>
          (∀ x ∈ ns, (engine b x).activeB = !(engine s.blk x).activeB ∧ (engine b x).law = none
              ∧ (keep = true → (engine s.blk x).failed = false → (engine b x).hoPhase = 2 ∧ (engine b x).mem = (engine s.blk x).mem)
              ∧ (keep = false → (engine b x).hoPhase = 0))
            ∧ (∀ x, x ∉ ns → engine b x = engine s.blk x)
            ∧ LastEvent b .action ([w32 a.op, w32 a.h.tag.toNat, w32 a.h.mbx.val] ++ w64 a.boundary ++ [w32 0])
            ∧ b = { s.blk with eng := b.eng, ev := b.ev, host.actions := [] }))
        ∧ (∀ st, a.boundary ≤ now s.blk → swapRefused s.blk ns = some st → Completes .carveBankSwap s (fun b =>
            LastEvent b .action ([w32 a.op, w32 a.h.tag.toNat, w32 a.h.mbx.val] ++ w64 a.boundary ++ [w32 st.code])
              ∧ b = { s.blk with ev := b.ev, host.actions := [] })))

/-- The premise that the table of cells is in its canonical form is an invariant of the block: statement StepKeepsForm. -/
def Obligations.SlalomBuild : Prop :=
  ∀ (l : Fin 48) (s : State), Tbl.wf {} s.blk.cells = true →
    (sysRuns s.blk = false → Completes .slalomBuild s (fun b => b = s.blk))
    ∧ (sysRuns s.blk = true → Completes .slalomBuild s (fun b =>
      b = { s.blk with cells := b.cells, fab := { s.blk.fab with xvars := b.fab.xvars }
                       slal := { b.slal with cmd := s.blk.slal.cmd, ref := s.blk.slal.ref } }
        ∧ (∀ n, (hub s.blk n).info.isSome = true → cellsOff s.blk = true ∨ bits (word (Tbl.get [] s.blk.slal.cmd n) 0) 31 28 = 0 →
            hub b n = { hub s.blk n with edgeNolist := true, edges := [], params := [], integrate := false })
        ∧ (∀ n, (hub s.blk n).info.isSome = true → (hub s.blk n).slot = .active → bits (word (Tbl.get [] s.blk.slal.cmd n) 0) 31 28 = 3 →
            wantsNolist s.blk n 3 = false → (hub b n).edgeNolist = false ∧ (hub b n).integrate = false)
        ∧ (∀ m ∈ limbs s.blk, limbCmd s.blk m ≠ 0 →
            (Tbl.get {} b.fab.xvars (0x0901 + 2 * m)).cur = { val := 0, at? := some (work s.blk) })))
    ∧ Completes (.slalomOverrun l) s (fun b =>
        (slLimb b l.val).r = 0 ∧ (slLimb b l.val).overrunAt = some (work s.blk) ∧ b.pair.localFault = true
          ∧ (∀ n ∈ limbCells s.blk l.val, (hub b n).edgeNolist = true ∧ (hub b n).edges = [] ∧ (hub b n).integrate = false)
          ∧ ((slLimb s.blk l.val).overrunAt.map (· + 1) = some (work s.blk) → (engine b (limbEngine s.blk l.val)).failed = true)
          ∧ ((slLimb s.blk l.val).overrunAt.map (· + 1) ≠ some (work s.blk) →
              LastEvent b .slalomOverrun ([w32 l.val] ++ w64 (work s.blk))
                ∧ b = { s.blk with cells := b.cells, slal := b.slal, ev := b.ev, pair.localFault := true }))

/-- The ledger unit: prediction, step, history, coolant, checkpoints, restore -/
def Obligations.LedgerUnit : Prop :=
  ∀ (h : Hdr) (k : Fin 4) (n : Fin 2048) (ser : BitVec 64) (lf : List (BitVec 64)) (s : State),
    let c := Tbl.get {} s.blk.led.loops k.val
    let due := (c.lastAt.getD 0) + cfgN s.blk 0x0E 0 0 13 6 * 100000
    let lives := (List.range 4).flatMap fun p => w64 ((lf.map BitVec.toNat).getD p 0)
    let old := (List.range 4).flatMap fun p => w64 (life s.blk n.val p)
    let ckptLen := cfgN s.blk 0x0E 0 0 29 19 * 6000000
    let serials := (hub s.blk n.val).info.map EnumInfo.serial
    Completes .ePredUpdate s (fun b => b = { s.blk with led := { s.blk.led with words := b.led.words } }
        ∧ ((∀ m ∈ ledCells s.blk, ePredCell s.blk m ≠ 0) → ∀ m ∈ ledCells s.blk, ledHeld s.blk m = false → lget b m 18 = ePredCell s.blk m))
    ∧ (ledgerWorks s.blk = false → Completes .ledgerStep s (fun b => b = s.blk))
    ∧ (ledgerWorks s.blk = true → Completes .ledgerStep s (fun b => b.pair.ledAt = some (work s.blk)
        ∧ (∀ l ∈ limbs s.blk, ∀ w < 4, (Tbl.get {} b.fab.xvars (0x0C00 + 4 * l + w)).cur.at? = some (work s.blk))
        ∧ b.cfg = s.blk.cfg ∧ b.cells = s.blk.cells ∧ b.chains = s.blk.chains ∧ b.eng = s.blk.eng ∧ b.terms = s.blk.terms ∧ b.time = s.blk.time))
    ∧ (∀ t, s.blk.led.histAt = some t → t ≤ now s.blk → now s.blk < t + histLen s.blk → Completes .ledgerHistoryPeriod s (fun b => b = s.blk))
    ∧ (s.blk.led.histAt = none ∨ (∃ t, s.blk.led.histAt = some t ∧ (now s.blk < t ∨ t + histLen s.blk ≤ now s.blk)) →
      Completes .ledgerHistoryPeriod s (fun b => b = { s.blk with led := b.led, fab := { s.blk.fab with ddr := b.fab.ddr } }
        ∧ b.led.histAt = some (now s.blk) ∧ b.led.histSets = s.blk.led.histSets + 1
        ∧ ∀ m < 2048, Tbl.get [] b.led.history (2048 * (s.blk.led.histSets % 8192) + m) = historyRecord s.blk m))
    ∧ (c.stale = true ∨ now s.blk < due → Completes (.coolantTimeout k) s (fun b => b = s.blk))
    ∧ (c.stale = false → due ≤ now s.blk → Completes (.coolantTimeout k) s (fun b => LastEvent b .coolantStale [w32 k.val]
        ∧ b = { s.blk with ev := b.ev, led := { s.blk.led with loops := Tbl.upd {} s.blk.led.loops k.val fun (q : Coolant) => { q with stale := true } } }))
    ∧ (s.blk.host.coachUp = false ∨ periodOver s.blk.led.periodicAt ckptLen (now s.blk) = false → Completes .lifeCheckpointDue s (fun b => b = s.blk))
    ∧ (s.blk.host.coachUp = true → periodOver s.blk.led.periodicAt ckptLen (now s.blk) = true →
        (flashHeld s.blk = true ∨ s.blk.led.writing.isSome = true → Completes .lifeCheckpointDue s (fun b => b = { s.blk with
          led := { s.blk.led with periodicAt := some (now s.blk), heldCkpt := some (s.blk.md.mode == .safe, false) } }))
        ∧ (flashHeld s.blk = false → s.blk.led.writing = none → Completes .lifeCheckpointDue s (fun b => b = { s.blk with
          led := { s.blk.led with periodicAt := some (now s.blk), heldCkpt := none, writing := some (ckptOf (s.blk.md.mode == .safe) s.blk) } })))
    ∧ (Admitted s.blk 0x0B04 [.flash] →
        let waits := ({ s.blk with
          host.waiting := s.blk.host.waiting ++ [{ h := h, op := 0x0B04, objs := [.flash], since := now s.blk }] } : Block)
        (flashHeld s.blk = true ∨ s.blk.led.writing.isSome = true → Completes (.ledgerCheckpoint h) s (fun b => b = { waits with
          led.heldCkpt := some (s.blk.md.mode == .safe, (s.blk.led.heldCkpt.map Prod.snd).getD true) }))
        ∧ (flashHeld s.blk = false → s.blk.led.writing = none → Completes (.ledgerCheckpoint h) s (fun b => b = { waits with
          led := { s.blk.led with heldCkpt := none, writing := some (ckptOf (s.blk.md.mode == .safe) s.blk) } })))
    ∧ (Admitted s.blk 0x0B05 [.cell n.val] →
        (isPartner s.blk = true → Completes (.ledgerRestore h n ser lf) s (fun b => Answers h .pairRole noDetail [] s.blk b))
        ∧ (isPartner s.blk = false → ((hub s.blk n.val).slot ≠ .blocked ∧ (hub s.blk n.val).slot ≠ .bypassed) ∨ serials ≠ some ser.toNat →
            Completes (.ledgerRestore h n ser lf) s (fun b => Answers h .notReady noDetail [] s.blk b))
        ∧ (isPartner s.blk = false → (hub s.blk n.val).slot = .blocked ∨ (hub s.blk n.val).slot = .bypassed → serials = some ser.toNat →
            Completes (.ledgerRestore h n ser lf) s (fun b => LastEvent b .ledgerRestored ((old ++ lives).take 12)
              ∧ Answers h .ok noDetail [] { s.blk with
                  ev := b.ev, pair.cmdSent := b.pair.cmdSent,
                  led.words := (setLives n.val (lf.map BitVec.toNat) s.blk).led.words } b)))

/-- The premise that the table of cell terminals is canonical is kept by every step: statement StepKeepsForm. -/
def Obligations.CellTerminals : Prop :=
  ∀ (n : Fin 2048) (fromT slip : Bool) (octet : BitVec 8) (field : BitVec 64) (p : BitVec 56) (v : W32) (s : State),
    let c := term s.blk n.val
    let becomes := fun (i : Instr) (c' : CellTerm) => Completes i s (fun b => b = onTerm n.val (fun _ => c') s.blk)
    let heard := c.hear (pf p 55 32)
    let crcErr := { c with crcErrCnt := satInc 255 c.crcErrCnt }
    let i := 64 + 2 * n.val + (if fromT then 1 else 0)
    let o := 64 + 2 * n.val + (if fromT then 0 else 1)
    let x := scrRun true (port s.blk i).descr field
    let oct := x.2.toNat % 256
    let pl := BitVec.ofNat 56 (x.2.toNat / 256)
    let takes := fun (q : Port) (b : Block) => (port b i).descr = x.1 ∧ port b o = q ∧ (∀ k, k ≠ i → k ≠ o → port b k = port s.blk k)
      ∧ b = { s.blk with ports := b.ports }
    let pass := fun (f : TxFrame) => let q := port s.blk o
      if q.st = .up then { q with tx := q.tx ++ [f] } else q
    (∀ ser fw asym desc rng, Completes (.cellPowerUp n ser fw asym desc rng) s (fun b =>
      term b n.val = { powered := true, serial := ser.toNat, firmware := fw, ranges := rng, asym := s32 asym, desc := desc, bypassed := c.bypassed }
        ∧ (port b (64 + 2 * n.val)).st = .train ∧ (port b (65 + 2 * n.val)).st = .train
        ∧ b = { s.blk with terms := b.terms, ports := b.ports }))
    ∧ Completes (.cellPowerLoss n) s (fun b =>
        b.terms = (onTerm n.val (fun _ => { c with powered := false, sw := 0, dueOns := [], localRun := false, ladder := .blocked, lists := [], last := none }) s.blk).terms
          ∧ (port b (64 + 2 * n.val)) = {} ∧ (port b (65 + 2 * n.val)) = {}
          ∧ (n.val % 64 ≠ 0 → (port b (63 + 2 * n.val)).st = .dark) ∧ b = { s.blk with terms := b.terms, ports := b.ports })
    ∧ (isBlockOctet octet = true → c.ladder ≠ .blocked → becomes (.cellBlock n octet)
        { c with ladder := .blocked, blockCause := 1, sw := 0, dueOns := [], localRun := false, lists := [], last := none })
    ∧ (isBlockOctet octet = false ∨ c.ladder = .blocked → Tbl.wf {} s.blk.terms = true → Completes (.cellBlock n octet) s (fun b => b = s.blk))
    ∧ (c.powered = true → isBlockOctet (BitVec.ofNat 8 oct) = true → Completes (.cellBlockForward n fromT slip syncCtl field) s
        (takes { pass { cls := 1, octet := 0xF0, payload := pl } with blockFwd := (port s.blk o).blockFwd + 1 }))
    ∧ (∀ k, c.powered = true → isBlockOctet (BitVec.ofNat 8 oct) = false → octetClass oct = some k → oct = 0x55 ∨ payloadOk oct pl 0 = true →
        Completes (.cellBlockForward n fromT slip syncCtl field) s (takes (
          if k = 0 ∨ k = 7 ∨ oct = 0x3C ∨ oct = 0x66 ∨ (oct = 0x69 ∧ c.pos = some (pf pl 55 49)) then port s.blk o
          else if k = 2 then pass { cls := 2, octet := oct, payload := if slip || (port s.blk o).blockWaits then setSlip oct pl else pl }
          else pass { cls := k, octet := oct, payload := pl, due := frameLen oct pl })))
    ∧ (c.powered = true → isBlockOctet (BitVec.ofNat 8 oct) = false → octetClass oct = none ∨ (oct ≠ 0x55 ∧ payloadOk oct pl 0 = false) →
        Completes (.cellBlockForward n fromT slip syncCtl field) s (takes (port s.blk o)))
    ∧ (∀ f l, c.powered = true → (port s.blk i).stack = f :: l → Completes (.cellBlockForward n fromT slip syncData field) s (fun b =>
        (port b o).tx = addData f.octet f.payload x.2 (port s.blk o).tx ∧ (port b i).descr = x.1))
    ∧ (∀ sync, c.powered = false → Completes (.cellBlockForward n fromT slip sync field) s (fun b => b = s.blk))
    ∧ (∀ sm hot cause flt,
        let here := fun (l : CellList) => l.boundary % 2 ^ 32 == (c.stride + 1) % 2 ^ 32
        Completes (.cellBoundary n sm hot cause flt) s (fun b =>
          let c' := term b n.val
          c'.stride = c.stride + 1 ∧ c'.own = c.own + 1 ∧ b = { s.blk with terms := b.terms } ∧ (∀ m, m ≠ n.val → term b m = term s.blk m)
            ∧ (c.setPending = [] → c'.rot = nextSlot c.desc c.rot)
            ∧ (c.setPending ≠ [] → c'.rot = c.rot)
            ∧ (flt = none → c.dueOns = [] → c.setPending = [] → ∀ j < 16, dMapped c.desc j = true →
                Tbl.get 0 c'.slots j = swValue c.desc j (c.sw.testBit j))
            ∧ (flt = none → c.lists.find? here = none →
                (c.ladder = .run → c'.ladder = .repeat ∧ c'.m = 1)
                ∧ (c.ladder = .repeat ∨ c.ladder = .hold → c.m + 1 < c.silenceL →
                    c'.ladder = .hold ∧ c'.m = c.m + 1 ∧ c'.sw = dZv c.desc)
                ∧ (c.ladder = .repeat ∨ c.ladder = .hold → c.silenceL ≤ c.m + 1 →
                    c'.ladder = .blocked ∧ c'.blockCause = 2 ∧ c'.sw = 0 ∧ c'.localRun = false)
                ∧ (c.ladder = .blocked → c.dueOns = [] → c'.ladder = .blocked ∧ c'.sw = c.sw))
            ∧ (∀ l, flt = none → c.lists.find? here = some l →
                (c.ladder ≠ .blocked → c'.ladder = .run ∧ c'.m = 0)
                ∧ (c.ladder = .blocked → l.integrate = false → c.dueOns = [] → c'.ladder = .blocked ∧ c'.sw = c.sw)
                ∧ (c.ladder = .blocked → l.integrate = true → c.setPending = [] → (c.sc || c.ov || c.faultKind != 0) = false →
                    (if c.timingT then c.dT else c.dH).isSome = true → c'.ladder = .run ∧ c'.m = 0))
            ∧ (∀ f, flt = some f → c.setPending = [] → c.dueOns = [] → c'.ladder = .blocked ∧ c'.faultCount = satInc 255 c.faultCount
                ∧ (c.ladder ≠ .blocked → c'.blockCause = 4 ∧ c'.sw = 0)
                ∧ (c.faultKind = 0 ∨ c.faultKind = 7 → c'.faultKind = 2 + f.1.val ∧ c'.faultTime = f.2.val))))
    ∧ (c.powered = false → (∀ sub early t turn, ∀ i ∈ [Instr.cellDownlinkFrame n fromT p sub early, .cellStrideBlock n fromT p t, .cellMeasure n fromT p turn,
          .cellEnum n fromT p, .cellSetpointWrite n p v, .cellLayout n p v, .cellSnapshotAt n p], becomes i c)
        ∧ ∀ i ∈ [Instr.cellSegmentSend n, .cellRecordSend n], Completes i s (fun b => b = s.blk))
    ∧ (c.powered = true →
        (∀ sub early, crc8Ok 0x5A p = false →
          becomes (.cellDownlinkFrame n fromT p sub early) crcErr)
        ∧ (crc5Ok 0xC3 p = false → ∀ t, becomes (.cellStrideBlock n fromT p t) crcErr)
        ∧ (crc8Ok 0x69 p = false → ∀ turn, becomes (.cellMeasure n fromT p turn) crcErr)
        ∧ (crc8Ok 0x66 p = false → becomes (.cellEnum n fromT p) crcErr)
        ∧ (svcOk p v = false → ∀ i ∈ [Instr.cellSetpointWrite n p v, .cellLayout n p v], becomes i crcErr)
        ∧ (crc8Ok 0xA5 p = false → becomes (.cellSnapshotAt n p) crcErr)
        ∧ (∀ sub early, crc8Ok 0x5A p = true → pf p 55 32 < heard.highest → becomes (.cellDownlinkFrame n fromT p sub early) heard)
        ∧ (∀ h es ps pad words off len early s0, crc8Ok 0x5A p = true → heard.highest ≤ pf p 55 32 → c.layout = some (off, len) →
            words.length = 2 * pf p 17 8 → (words.drop (2 * off)).take (2 * len) = h :: (es ++ ps ++ pad) →
            bits h 9 5 = es.length → es.length ≤ 16 → bits h 4 1 = ps.length →
            ps = [] ∨ ps.length = dPWords c.desc → some (bits h 15 10) = c.pos →
            s0 = c.stride ∨ (s0 = c.stride - 1 ∧ c.stride % 2 ^ 14 ≠ pf p 31 18) → s0 % 2 ^ 14 = pf p 31 18 →
            listCrc (pf p 55 32) s0 (w32 (bits h 15 0)) (es ++ ps) = bits h 31 16 →
            let l : CellList := { boundary := s0 + 2, bib := pf p 55 32, port := if fromT then 2 else 1, edges := es, params := ps
                                  integrate := bit h 0 }
            let i := Instr.cellDownlinkFrame n fromT p words early
            (edgesOk c.desc es = false → becomes i { heard with rejectCnt := satInc 255 c.rejectCnt })
            ∧ (edgesOk c.desc es = true → early = false → becomes i heard)
            ∧ (edgesOk c.desc es = true → early = true →
                ((∀ y ∈ c.lists, y.boundary ≠ s0 + 2) → becomes i { heard with lists := c.lists ++ [l] })
                ∧ (∀ y, (c.lists.find? fun y => y.boundary == s0 + 2) = some y →
                    (y.bib < l.bib → becomes i { heard with lists := l :: c.lists.filter fun y => y.boundary != s0 + 2 })
                    ∧ (l.bib ≤ y.bib → y.edges = es → y.params = ps → y.integrate = l.integrate → becomes i heard)
                    ∧ (l.bib ≤ y.bib → ¬(y.edges = es ∧ y.params = ps ∧ y.integrate = l.integrate) →
                        becomes i { heard with conflictAt := some c.stride }))))
        ∧ (∀ d t, fromT = c.timingT → crc5Ok 0xC3 p = true → pf p 5 5 = 0 → (if fromT then c.dT else c.dH) = some d →
            let e : Int := t - 10 * d + 10 * (pf p 23 6 : Int)
            (c.ladder = .blocked → becomes (.cellStrideBlock n fromT p t)
              { c with stride := pf p 55 24, phase := c.phase + e, errRun := 0 })
            ∧ (c.ladder ≠ .blocked → e.natAbs ≤ 4000 → becomes (.cellStrideBlock n fromT p t)
                { c with phase := c.phase + max (-80) (min 80 e), errRun := 0 })
            ∧ (c.ladder ≠ .blocked → 4000 < e.natAbs → c.errRun < 15 → becomes (.cellStrideBlock n fromT p t)
                { c with phase := c.phase + max (-80) (min 80 e), errRun := c.errRun + 1 })
            ∧ (c.ladder ≠ .blocked → 4000 < e.natAbs → 15 ≤ c.errRun → becomes (.cellStrideBlock n fromT p t)
                { c with phase := c.phase + max (-80) (min 80 e), errRun := 0, ladder := .blocked, blockCause := 4, sw := 0
                         dueOns := [], localRun := false, lists := [] }))
        ∧ (∀ t, fromT ≠ c.timingT → crc5Ok 0xC3 p = true → Tbl.wf {} s.blk.terms = true → Completes (.cellStrideBlock n fromT p t) s (fun b => b = s.blk))
        ∧ (∀ turn, crc8Ok 0x69 p = true → c.pos = some (pf p 39 34) → pf p 33 10 ≠ 0xFFFFFF → c.pos ≠ some (pf p 55 49) →
            becomes (.cellMeasure n fromT p turn)
              (if fromT then { c with dT := some (pf p 33 10) } else { c with dH := some (pf p 33 10) }))
        ∧ (∀ turn, crc8Ok 0x69 p = true → c.pos ≠ some (pf p 39 34) → c.pos = some (pf p 55 49) →
            let echo := withCrc8 0x96 (pf p 55 49 * 2 ^ 50 + pf p 48 41 * 2 ^ 42 + pf p 40 40 * 2 ^ 41 + turn % 2 ^ 24 * 2 ^ 17)
            Completes (.cellMeasure n fromT p turn) s (fun b => b = sendFrame i 0x96 echo [] (onTerm n.val (fun _ => { c with sentEcho := some echo }) s.blk)))
        ∧ (crc8Ok 0x66 p = true →
            let next := withCrc8 0x66 (p.toNat + 2 ^ 49)
            Completes (.cellEnum n false p) s (fun b => b = sendFrame (65 + 2 * n.val) 0x66 next [] (onTerm n.val (fun _ => { c with
              pos := some (pf p 55 49), silenceL := pf p 48 42, port := pf p 41 37, enumLeft := 3, enumAt := c.own, sentEnum := some next }) s.blk)))
        ∧ (crc8Ok 0x66 p = true → Tbl.wf {} s.blk.terms = true → Completes (.cellEnum n true p) s (fun b => b = s.blk))
        ∧ (svcOk p v = true → (c.hear (pf p 39 16)).highest ≤ pf p 39 16 → c.pos = some (pf p 52 47) →
            (pf p 55 53 = 0 → becomes (.cellSetpointWrite n p v)
              (if 96 ≤ pf p 46 40 ∧ dMapped c.desc (pf p 46 40) = true then
                { c.hear (pf p 39 16) with setPending := c.setPending ++ [(pf p 46 40, v)] } else c.hear (pf p 39 16)))
            ∧ (pf p 55 53 = 1 → becomes (.cellLayout n p v)
                { c.hear (pf p 39 16) with layout := some (bits v 31 16, bits v 15 0) }))
        ∧ (crc8Ok 0xA5 p = true → becomes (.cellSnapshotAt n p)
            (if pf p 55 32 < heard.highest ∨ c.snapAt.contains (pf p 31 8) then heard else { heard with snapAt := c.snapAt ++ [pf p 31 8] }))
        ∧ (c.segAt = some c.own → becomes (.cellSegmentSend n) c)
        ∧ (c.segAt ≠ some c.own → 0 < c.enumLeft → c.enumAt < c.own →
            let words := enumSegment c (3 - c.enumLeft)
            Completes (.cellSegmentSend n) s (fun b => b = bothWays n.val 0xCC (fun t => segPayload (c.pos.getD 0) 0 (3 - c.enumLeft) 0 t words) words
              (onTerm n.val (fun _ => { c with
                enumLeft := c.enumLeft - 1, segAt := some c.own, sentSeg := [0, w32 (3 - c.enumLeft), 0] ++ words }) s.blk)))
        ∧ (∀ l, c.segAt ≠ some c.own → c.enumLeft = 0 ∨ c.own ≤ c.enumAt → c.snapLatch = some l → c.snapFrom < c.own → l.length ≤ 128 → c.snapSent < 16 →
            let k := (l.length + 15) / 16
            let words := (List.range 16).map (fun i => word l (16 * (c.snapSent % k) + i))
            Completes (.cellSegmentSend n) s (fun b => b = bothWays n.val 0xCC
              (fun t => segPayload (c.pos.getD 0) 1 (c.snapSent % k) (c.snapSent / k) t words) words
              (onTerm n.val (fun _ => { c with
                sentSeg := [1, w32 (c.snapSent % k), w32 (c.snapSent / k)] ++ words
                snapSent := c.snapSent + 1, segAt := some c.own, snapLatch := if 2 * k ≤ c.snapSent + 1 then none else some l }) s.blk)))
        ∧ (let r := recordOf c (tailOf s.blk n.val)
           Completes (.cellRecordSend n) s (fun b => b = bothWays n.val 0x33 (fun t => uprecPayload (c.pos.getD 0) c.stride t r) r
             (onTerm n.val (fun _ => { c with sentRec := r }) s.blk))))
    ∧ (c.snapAt.contains (c.stride % 2 ^ 24) = true → becomes (.cellSnapshotLatch n)
        { c with snapAt := c.snapAt.filter (fun B => B != c.stride % 2 ^ 24), snapSent := 0, snapFrom := c.own
                 snapLatch := some ((dSlots c.desc).map fun i => Tbl.get 0 c.slots i) })
    ∧ (c.snapAt.contains (c.stride % 2 ^ 24) = false → becomes (.cellSnapshotLatch n) c)
    ∧ (∀ sw t,
        let off := { c with ladder := .blocked, blockCause := 3, sw := 0, dueOns := [], localRun := false, lists := [], sc := true, last := none
                            faultCount := satInc 255 c.faultCount }
        becomes (.cellShortCircuit n sw t) (if c.faultKind = 0 ∨ c.faultKind = 7 then
          { off with faultKind := 1, faultTime := t.val, faultSw := sw.val } else off))

/-- Link ports: training and its timeouts, HELLO and KICK, electrical idle, a lost receiver, the block lines at the lanes -/
def Obligations.PortTraining : Prop :=
  ∀ (x : PortId) (p : BitVec 56) (sent : Nat) (sig conv : Bool) (hs : List (BitVec 2)) (s : State),
    let k := portKey x
    let q := port s.blk k
    let fresh := fun (r : Port) => { r with
      st := .train, txIdle := laneOut s.blk k, eidle := 0, timer := true, rxLock := false, rxIdle := false, searching := false, helloRun := 0
      kickRun := 0, keepalives := 0, wrongEnd := false, helloSeen := false, hdrs := [], stack := [], burst := 0, tx := [], exit := 0
      retrains := satInc 127 r.retrains }
    let r := (q.headers hs).1
    let bad := sig = false ∨ ((q.headers hs).2 = true ∧ q.rxLock = true)
    let g := hs.foldl Port.header q
    let restarted := fun (r : Port) (fail : Nat) (b : Block) =>
      port b k = { fresh r with lastFail := fail }
        ∧ (q.st = .up → k < 32 → (chain b k).st = .dark ∧ (chain b k).broken = true)
        ∧ (q.st ≠ .up ∨ 32 ≤ k → b.chains = s.blk.chains)
        ∧ (k < 32 ∨ 36 ≤ k → b.pair = s.blk.pair)
        ∧ b = { s.blk with ports := b.ports, chains := b.chains, pair := b.pair, ev := b.ev }
    let becomes := fun (i : Instr) (q' : Port) => Completes i s (fun b => b = onPort k (fun _ => q') s.blk)
    let good := crc8Ok 0x3C p = true ∧ pf p 53 46 = 1
    let discarded := fun (o : Nat) (b : Block) => port b k = q.discard o ∧ (k < 64 → b.terms = s.blk.terms) ∧ b = { s.blk with ports := b.ports, terms := b.terms }
    let counted : Port := { q with helloRun := q.helloRun + 1, helloSeen := true, kickRun := 0, burst := 0, partnerRole := pf p 55 54, partnerRank := pf p 40 33 }
    (portUnused s.blk k = false →
      Completes (.portRestart x) s (restarted q q.lastFail)
      ∧ (q.st = .train ∨ q.st = .hello → bad → Completes (.blockLockLost x sig hs) s (restarted r q.lastFail))
      ∧ (q.st = .dark → Completes (.signalDetected x) s (restarted q q.lastFail) ∧ Completes (.darkRetry x) s (restarted q q.lastFail))
      ∧ (q.st = .hello ∨ q.st = .up → crc8Ok 0x0F p = true → q.burst = 0 → 3 ≤ q.kickRun →
          Completes (.kickReceived x p) s (fun b => port b k = { fresh q with lastFail := 6, kickSeq := pf p 55 40 }
            ∧ (q.st = .up → k < 32 → (chain b k).st = .dark))))
    ∧ (portUnused s.blk k = true → Completes (.portRestart x) s (fun b => (port b k).st = .off ∧ (port b k).timer = false))
    ∧ (∀ (h : Hdr) (u : Fin 32), Admitted s.blk 0x0204 [] →
        ((port s.blk u.val).st ≠ .up → Completes (.portRetrain h u) s (fun b => Answers h .ok noDetail [] (onPort u.val (fun (r : Port) =>
          { r.start (portUnused s.blk u.val) (laneOut s.blk u.val) with retrains := satInc 127 r.retrains }) s.blk) b))
        ∧ ((port s.blk u.val).st = .up → Completes (.portRetrain h u) s (fun b => Answered h .ok noDetail [] b
          ∧ (chain b u.val).st = .dark ∧ (port b u.val).st ≠ .up)))
    ∧ (q.st ≠ .dark → Completes (.signalDetected x) s (fun b => b = s.blk) ∧ Completes (.darkRetry x) s (fun b => b = s.blk))
    ∧ (¬bad → becomes (.blockLockLost x sig hs) r)
    ∧ (q.st ∉ [PortSt.train, .hello, .up] → becomes (.blockLockLost x sig hs) r)
    ∧ (g.rxLock = true → becomes (.blockLockGained x conv hs) g)
    ∧ (g.rxLock = false →
        (g.st = .train → conv = true → g.allGood 64 = true → becomes (.blockLockGained x conv hs)
            { g with st := .hello, rxLock := true, helloRun := 0, wrongEnd := false, helloSeen := false })
        ∧ (g.st = .up → (g.rxIdle = true ∧ g.allGood 16 = true) ∨ (conv = true ∧ g.allGood 64 = true) → becomes (.blockLockGained x conv hs)
            { g with rxLock := true, rxIdle := false, helloRun := 0 })
        ∧ ((g.st = .train ∧ (conv = false ∨ g.allGood 64 = false)) ∨ g.st ∉ [PortSt.train, .up] → becomes (.blockLockGained x conv hs) g))
    ∧ (q.rxLock = false ∨ q.st ∈ [PortSt.off, .dark, .train] → Completes (.helloReceived x p sent) s (fun b => b = s.blk))
    ∧ (q.st = .hello → q.rxLock = true →
        (crc8Ok 0x3C p = false → Completes (.helloReceived x p sent) s (discarded 0x3C))
        ∧ (crc8Ok 0x3C p = true → pf p 53 46 ≠ 1 → becomes (.helloReceived x p sent) { q with helloRun := 0, kickRun := 0, burst := 0 })
        ∧ (good → helloRoleOk s.blk k (pf p 55 54) = false → becomes (.helloReceived x p sent)
            { q with helloRun := 0, kickRun := 0, burst := 0, wrongEnd := true })
        ∧ (good → helloRoleOk s.blk k (pf p 55 54) = true → q.helloRun < 3 ∨ sent < 16 → becomes (.helloReceived x p sent) counted)
        ∧ (good → helloRoleOk s.blk k (pf p 55 54) = true → 3 ≤ q.helloRun → 16 ≤ sent →
            let enum := ctlFrame 0x66 (withCrc8 0x66 (cfgN s.blk 0x03 k 0 22 16 * 2 ^ 42 + k * 2 ^ 37)) []
            let head := k < 32 ∧ chainEnd s.blk k = 1 ∧ (chain s.blk k).st = .dark
            Completes (.helloReceived x p sent) s (fun b => port b k = { counted with
              st := .up, searching := false, helloRun := 0, kickRun := 0, syncErr := 0, ctrlErr := 0, timer := false
              tx := if head then q.tx ++ [enum] else q.tx })))
    ∧ (q.st = .up → q.rxLock = true → q.searching = true → good → helloRoleOk s.blk k (pf p 55 54) = true → 3 ≤ q.helloRun → k < 32 →
        Completes (.helloReceived x p sent) s (fun b => (port b k).searching = false ∧ LastEvent b .linkUp [w32 k]
          ∧ b = { s.blk with ports := b.ports, ev := b.ev }))
    ∧ (q.st = .up →
        let lost := fun (r : Port) (b : Block) =>
          port b k = { r with
            searching := true, rxLock := false, rxIdle := false, lastFail := 5, helloRun := 0, kickRun := 0, hdrs := [], stack := [] }
            ∧ b.chains = s.blk.chains
            ∧ (k < 32 → cfgBit s.blk 0x17 0 0 31 = true → LastEvent b .linkRxLost [w32 k] ∧ ∃ a ∈ b.prot.avs, AvReport.rxLost k ∈ a.reports)
        (q.searching = false → bad → q.rxIdle = false ∨ sig = true → Completes (.blockLockLost x sig hs) s (lost r))
        ∧ (q.rxIdle = true → sig = false → becomes (.blockLockLost x sig hs) r)
        ∧ (q.searching = false → q.rxIdle = true → Completes (.idleExitTimeout x) s (lost q)))
    ∧ (p ≠ 0 → Completes (.eidleReceived x p) s (discarded 0x99))
    ∧ (q.st ≠ .up → (p = 0 → Completes (.eidleReceived x p) s (fun b => b = s.blk))
        ∧ ∀ i ∈ [Instr.helloKeepalive x, .idleExitTimeout x], Completes i s (fun b => b = s.blk))
    ∧ (q.st ∉ [PortSt.hello, .up] → Completes (.kickReceived x p) s (fun b => b = s.blk))
    ∧ (q.st = .hello ∨ q.st = .up →
        (crc8Ok 0x0F p = false → Completes (.kickReceived x p) s (discarded 0x0F))
        ∧ (crc8Ok 0x0F p = true → 0 < q.burst → becomes (.kickReceived x p) { q with burst := q.burst - 1 })
        ∧ (crc8Ok 0x0F p = true → q.burst = 0 → q.kickRun < 3 → becomes (.kickReceived x p)
            { q with kickRun := q.kickRun + 1, kickSeq := pf p 55 40 }))
    ∧ (q.st = .up →
        becomes (.eidleReceived x 0) { q with rxIdle := true, rxLock := false, hdrs := [], burst := 32, kickRun := 0 }
        ∧ (let c := laneCtx s.blk k
           becomes (.helloKeepalive x) { q with
             tx := q.tx ++ [ctlFrame 0x3C (helloPayload c.role c.num c.rank true) []], keepalives := q.keepalives + 1, sinceHello := 0 })
        ∧ (q.rxIdle = false → Completes (.idleExitTimeout x) s (fun b => b = s.blk)))
    ∧ (q.timer = false ∨ q.st ∉ [PortSt.train, .hello] → Completes (.trainTimeout x sig) s (fun b => b = s.blk))
    ∧ (q.timer = true → q.st = .hello → q.helloSeen = true → becomes (.trainTimeout x sig) { q with timer := false })
    ∧ (q.timer = true → q.st = .train ∨ (q.st = .hello ∧ q.helloSeen = false) →
        let r := if q.st = .train then (if sig = true then 2 else 1) else if q.wrongEnd = true then 4 else 3
        Completes (.trainTimeout x sig) s (fun b => (k < 36 → LastEvent b .linkDark [w32 k, w32 r])
          ∧ b = { onPort k (fun _ => { q with
                    st := .dark, eidle := if q.txIdle then 0 else 4, rxLock := false, timer := false, lastFail := r, helloRun := 0
                    kickRun := 0 }) s.blk with ev := b.ev }))
    ∧ (∀ (octet : BitVec 8) (data : BitVec 64),
        let good := isBlockOctet octet || ((octetClass octet.toNat).isSome && payloadOk octet.toNat p data)
        (good = true → Completes (.controlBlockDiscard x octet p data) s (fun b => b = s.blk))
        ∧ (good = false → Completes (.controlBlockDiscard x octet p data) s (fun b => discarded octet.toNat b
            ∧ (port b k).ctrlErr = satInc 255 q.ctrlErr ∧ (port b k).kickRun = 0
            ∧ (octetClass octet.toNat = none → (port b k).stack = [] ∧ (port b k).helloRun = 0))))
    ∧ (∀ (c : Fin 2) (u : Fin 32),
        let w := port s.blk u.val
        let lane := laneCtx s.blk u.val
        let standing := if c = 0 then s.blk.prot.copyA.line else s.blk.prot.copyB.line
        (standing = false → Completes (.blockLineAssert c) s (fun b => b = s.blk))
        ∧ (standing = true → lane.silent = false →
          (w.txIdle = true → Completes (.blockLineAssert c) s (fun b => b = { s.blk with ports := b.ports }
            ∧ port b u.val = { w.emitKick with txIdle := false, exit := 31 }))
          ∧ (w.txIdle = false → 0 < w.exit → Completes (.blockLineAssert c) s (fun b => port b u.val = { w.emitKick with exit := w.exit - 1 }))
          ∧ (w.txIdle = false → w.exit = 0 → Completes (.blockLineAssert c) s (fun b =>
              port b u.val = { w.emit syncCtl (ctlField 0xF0 (blockPayload 1 lane.origin)) with blockCause := 1 } ∧ (port b u.val).tx = w.tx)))
        ∧ (s.blk.prot.copyA.line = true ∨ s.blk.prot.copyB.line = true → Completes .blockLineRelease s (fun b => b = s.blk))
        ∧ (s.blk.prot.copyA.line = false → s.blk.prot.copyB.line = false → Completes .blockLineRelease s (fun b =>
            b = { s.blk with ports := b.ports } ∧ port b u.val = w.slot lane
              ∧ (lane.silent = false → lane.mute = false → lane.base3 = false → w.txIdle = false → w.exit = 0 → w.eidle = 0 → w.blockSlots = 0 →
                  w.st = .up → w.sinceHello + 1 < 1024 → w.tx ≠ [] → (port b u.val).tx = (txStep (topClass w.tx) w.tx).2
                    ∧ port b u.val = { w.emit (txStep (topClass w.tx) w.tx).1.1 (txStep (topClass w.tx) w.tx).1.2 with
                        tx := (txStep (topClass w.tx) w.tx).2 }))))

/-- The pair link: up, held down, alignment, STEP, INPUT, MEAS, CMD, FEED and SYNC frames, and their checks -/
def Obligations.PairLink : Prop :=
  ∀ (d X op : Nat) (pl hd : BitVec 56) (t : Int) (u : Fin 32) (w ws : List W32) (crc : W32) (k : Fin 8) (off : BitVec 18)
    (svc : List (BitVec 56 × W32)) (sn : Option (BitVec 56)) (c : Fin 2048) (s : State),
    let p := s.blk.pair
    let ranked := fun (b : Block) => (lanePeer s.blk = 0 → LastEvent b .pairConfig [1])
      ∧ (lanePeer s.blk ≠ 0 → lanePeer s.blk = rank s.blk → LastEvent b .pairConfig [0])
      ∧ (lanePeer s.blk ≠ 0 → lanePeer s.blk ≠ rank s.blk → b.ev = s.blk.ev)
    (pairEn s.blk = true → 0 < p.lanes → p.held = false →
      (p.up = false → d ≤ 400000 → Completes (.pairLinkUp d) s (fun b => ranked b ∧ b = { s.blk with
        ev := b.ev, pair := { p with delay := d, up := true, peerRank := lanePeer s.blk, peerSolo := lanePeer s.blk == 0 } }))
      ∧ (p.up = false → 400000 < d → Completes (.pairLinkUp d) s (fun b => LastEvent b .pairLink [1] ∧ b = { s.blk with
          ev := b.ev, pair := { p with delay := d, held := true, up := false } }))
      ∧ (now s.blk % 1000 = 0 → 400000 < d → Completes (.pairDelayMeasure d) s (fun b => LastEvent b .pairLink [1] ∧ b = { s.blk with
          ev := b.ev, pair := { p with delay := d, held := true, up := false } }))
      ∧ (now s.blk % 1000 = 0 → d ≤ 400000 → p.up = true → Completes (.pairDelayMeasure d) s (fun b =>
          b = { s.blk with pair := { p with delay := d } })))
    ∧ (p.up = true → Completes (.pairLinkUp d) s (fun b => b = s.blk))
    ∧ (now s.blk % 1000 ≠ 0 → Completes (.pairDelayMeasure d) s (fun b => b = s.blk))
    ∧ (p.up = true → sends s.blk = false → crc5Ok 0xC3 pl = true →
        let S := near32 (if p.peerAt.isSome then peerStride s.blk else now s.blk) (pf pl 55 24)
        let e := ((S : Int) + 1) * 10000000 - (t - p.delay + (pf pl 23 6 : Int) * 80)
        Completes (.timeBlock pl t) s (fun b => ∃ q : PairS, b = linkSend 1 (pf pl 55 24) 0 [] { s.blk with pair := q }
          ∧ (e.natAbs ≤ 1000 → 99 ≤ p.alignRun → q.alignOk = true)
          ∧ (e.natAbs ≤ 1000 → q.alignRun = Nat.min 100 (p.alignRun + 1) ∧ q.alignBad = 0)
          ∧ (2000 < e.natAbs → 15 ≤ p.alignBad → q.alignOk = false)
          ∧ (1000 < e.natAbs → q.alignRun = 0)
          ∧ (e.natAbs ≤ 1000 → p.alignRun < 99 → q.alignOk = p.alignOk)
          ∧ q = { p with steer := e, alignRun := q.alignRun, alignBad := q.alignBad, alignOk := q.alignOk }))
    ∧ (p.up = false ∨ sends s.blk = true ∨ crc5Ok 0xC3 pl = false → Completes (.timeBlock pl t) s (fun b => b = s.blk))
    ∧ (isLead s.blk = true → p.up = true →
        (let w := (List.range 128).map fun i => xread s.blk (0x0B00 + i)
         Completes .pairMeasSend s (fun b => b = (p.cmdSent.filter fun x => x.1 == now s.blk).foldl
          (fun (b : Block) x => linkSend 6 x.1 x.2.1 (w32 x.2.1 :: x.2.2) b) (linkSend 3 (now s.blk) 0 w { s.blk with pair := { p with measSent := w } })))
        ∧ (chainEnd s.blk u.val ≠ 0 → Completes (.pairInputSend u) s (fun b =>
            b = linkSend 5 (work s.blk) u.val (inputData u.val s.blk)
              { s.blk with pair := { p with inputSent := Tbl.set [] p.inputSent u.val (inputData u.val s.blk) } })))
    ∧ (isLead s.blk = false ∨ p.up = false → ∀ i ∈ [Instr.pairMeasSend, .pairInputSend u], Completes i s (fun b => b = s.blk))
    ∧ (pairEn s.blk = true → p.up = true → 2 ≤ s.blk.sup.stage →
        let told := fun (q : PairS) => let x : Block := { s.blk with pair := q }
          Completes .pairStepSend s (fun b => b = linkSend 2 (work s.blk) 0 (stepWords x) { s.blk with pair := { q with stepSent := stepWords x } })
        (isLead s.blk = true → told { p with
            inDigest := digestIn p.measSent (p.inputSent.map Prod.snd) (p.cmdSent.filter fun x => x.1 == now s.blk)
            outDigest := digestOut s.blk })
        ∧ (isPartner s.blk = true → told p)
        ∧ (isLead s.blk = false → isPartner s.blk = false → told { p with inDigest := 0, outDigest := 0 }))
    ∧ (pairEn s.blk = false ∨ p.up = false ∨ s.blk.sup.stage < 2 → Completes .pairStepSend s (fun b => b = s.blk))
    ∧ (linkCarries s.blk = false → ∀ i ∈ [Instr.stepFrame w crc, .inputFrame u X ws crc, .measFrame X ws crc, .cmdFrame X op ws crc,
        .feedFrame u off hd ws svc sn crc, .nakFrame k X op], Completes i s (fun b => b = s.blk))
    ∧ (linkCarries s.blk = true →
        (lagging s.blk = true → ws.length = 128 → dataOk ws crc = true → Completes (.measFrame X ws crc) s (fun b => b = { s.blk with pair := { p with
              failed := p.failed.filter (· != (3, X, 0)), meas := (p.meas.filter fun x => x.1 != X) ++ [(X, ws)] } }))
        ∧ (∀ f ∈ [(Instr.measFrame X ws crc, 3, 0, lagging s.blk && ws.length == 128 && !dataOk ws crc),
              (.inputFrame u X ws crc, 5, u.val, lagging s.blk && ws.length == 778 && !dataOk ws crc),
              (.cmdFrame X op ws crc, 6, op, (p.role == 3 || p.role == 4) && !dataOk (w32 op :: ws) crc)], f.2.2.2 = true →
            let key := (f.2.1, X, f.2.2.1)
            (p.failed.contains key = false → Completes f.1 s (fun b =>
              b = linkSend 8 X f.2.2.1 [] { s.blk with pair := { p with failed := key :: p.failed, naks := key :: p.naks } }))
            ∧ (p.failed.contains key = true → Completes f.1 s (fun b =>
              b = { s.blk with pair := { p with failed := p.failed.filter (· != key), lost := X :: p.lost } })))
        ∧ (lagging s.blk = true → ws.length = 778 → dataOk ws crc = true → Completes (.inputFrame u X ws crc) s (fun b =>
            b = { s.blk with pair := { p with
              failed := p.failed.filter (· != (5, X, u.val))
              inputs := (p.inputs.filter fun x => x.1 != X || x.2.1 != u.val) ++ [(X, u.val, ws)] } }))
        ∧ (p.role = 3 ∨ p.role = 4 → dataOk (w32 op :: ws) crc = true →
            (op < 0xF000 → op ≠ 0x0703 → Completes (.cmdFrame X op ws crc) s (fun b => b = { s.blk with pair := { p with
              failed := p.failed.filter (· != (6, X, op)), cmds := p.cmds ++ [(X, op, ws)] } }))
            ∧ (op = 0x0703 → p.role = 4 → Completes (.cmdFrame X op ws crc) s (fun b =>
                b.pair.joining = some (join64 (word ws 0) (word ws 1)) ∧ b.pair.installed = [] ∧ b.pair.derated = [] ∧ b = { s.blk with pair := b.pair })))
        ∧ (p.role = 3 ∨ p.role = 4 → dataOk ws crc = true → p.feeding.testBit u.val = true → (port s.blk u.val).st = .up → linkRuns s.blk u.val = true →
            Completes (.feedFrame u off hd ws svc sn crc) s (fun b => (chain b u.val).sentBib = some hd ∧ (chain b u.val).downlink = ws
              ∧ (∃ l, (port b u.val).tx = (port s.blk u.val).tx ++ [ctlFrame 0xC3 (withCrc5 0xC3 (now s.blk % 2 ^ 32 * 2 ^ 24 + off.toNat * 2 ^ 6)) [],
                  ctlFrame 0x5A hd ws] ++ l)
              ∧ b.pair.cmdAt = some (now s.blk) ∧ b = { s.blk with chains := b.chains, ports := b.ports, pair := { p with
                  failed := p.failed.filter (· != (4, now s.blk, u.val)), cmdAt := some (now s.blk) } }))
        ∧ (w.length = 8 → dataOk w crc = true → bits (word w 2) 31 29 = 2 ∨ bits (word w 2) 31 29 = 5 →
            let e := bits (word w 2) 23 0
            (sends s.blk = false → Completes (.stepFrame w crc) s (fun b => b.pair.peerStep = w ∧ b.pair.peerAt = some (now s.blk)
              ∧ b.pair.epoch = e / 256 ∧ (b.pair.storeDue = true ↔ p.storeDue = true ∨ p.epoch ≠ e / 256)
              ∧ b.pair.role = p.role ∧ b = { s.blk with pair := b.pair }))
            ∧ (sends s.blk = true → bib s.blk < e → Completes (.stepFrame w crc) s (fun b => b.pair.role = 4
                ∧ LastEvent b .pairDemoted [w32 (bib s.blk)] ∧ b.pair.dualUntil = some (now s.blk + 1)))
            ∧ (sends s.blk = true → e ≤ bib s.blk → Completes (.stepFrame w crc) s (fun b =>
                b.pair.role = p.role ∧ b.pair.epoch = p.epoch ∧ b.ev = s.blk.ev)))
        ∧ (p.resent.contains (k.val, X, op) = false → Completes (.nakFrame k X op) s (fun b =>
            b = (p.sent.filter fun x => x.1 == k.val && x.2.1 == X && x.2.2.1 == op).foldl (fun (b : Block) x => linkSend k.val X op x.2.2.2 b)
              { s.blk with pair := { p with resent := (k.val, X, op) :: p.resent } }))
        ∧ (p.resent.contains (k.val, X, op) = true → Completes (.nakFrame k X op) s (fun b => b = s.blk))
        ∧ (∀ l, p.role = 4 → p.joining.isSome = true → p.syncWait = [] → p.ledAt = some l →
            (X ≤ l → Completes (.syncFrame X (.slot c ws) true) s (fun b =>
              Tbl.get false b.pair.installed c.val = true ∧ b.led.words = Tbl.setRange 0 s.blk.led.words (64 * c.val) ((List.range 64).map (word ws))
                ∧ b.pair.syncWait = []))
            ∧ (l < X → Completes (.syncFrame X (.slot c ws) true) s (fun b => b = { s.blk with pair := { p with
                failed := p.failed.filter (· != (7, X, c.val)), syncWait := [(X, c.val, ws)] } })))
        ∧ (∀ (l : Fin 48) k0 since below hot, p.role = 4 → p.joining.isSome = true →
            Completes (.syncFrame X (.limb l k0 since below hot) true) s (fun b => Tbl.get false b.pair.derated l.val = true
              ∧ Tbl.get {} b.led.limb l.val = { Tbl.get {} s.blk.led.limb l.val with k := k0, since := since, below := below, hot := hot }))
        ∧ (∀ dat, p.role ≠ 4 ∨ p.joining = none → ∀ ok, Completes (.syncFrame X dat ok) s (fun b => b = s.blk)))

/-- Pair roles: the commands, the partner's work and digests, strikes, promotion, relinquishing, feeds, cold start, joins -/
def Obligations.PairRoles : Prop :=
  ∀ (h : Hdr) (auto : Bool) (m : W32) (B : Nat) (meas : List W32) (heads : BitVec 32) (s : State),
    let p := s.blk.pair
    let X := work s.blk
    let ins := (usedChains s.blk).map fun q => (q, (inputOf s.blk X q).getD [])
    let d := digestIn ((measOfStride s.blk X).getD []) (ins.map Prod.snd) (cmdsOf s.blk X)
    let ledIn := join64 (word p.peerStep 4) (word p.peerStep 5)
    let ledOut := join64 (word p.peerStep 6) (word p.peerStep 7)
    let leaves := fun (cause : Nat) (b : Block) => LastEvent b .pairStepLost [w32 cause]
      ∧ b.pair.roleDue = some 4 ∧ b.pair.inStep = false ∧ b.pair.strikes = 0 ∧ b.pair.role = 3
    let ends := fun (i : Instr) (st : Status) => Completes i s (fun b => Answers h st noDetail [] s.blk b)
    (Admitted s.blk 0x0701 [] → (p.role = 0 → ends (.pairFeed h auto m) .pairRole)
      ∧ (p.role ≠ 0 → Completes (.pairFeed h auto m) s (fun b =>
          Answers h .ok noDetail [] { s.blk with pair := { p with feedDue := some (m.toNat, auto) } } b)))
    ∧ (Admitted s.blk 0x0702 [] → (p.role ≠ 1 → ends (.pairTakeLead h) .pairRole)
      ∧ (p.role = 1 → peerLeads s.blk = true → ends (.pairTakeLead h) .pairConflict)
      ∧ (p.role = 1 → peerLeads s.blk = false → p.aliveAt = none → greatestEpoch s.blk < 65535 →
          Completes (.pairTakeLead h) s (fun b => Answers h .ok noDetail [] { s.blk with pair := { p with roleDue := some 2 } } b)))
    ∧ (Admitted s.blk 0x0703 [] →
      (isLead s.blk = false → ends (.pairJoin h B true meas) .pairRole)
      ∧ (isLead s.blk = true → p.joining.isSome = true → ends (.pairJoin h B true meas) .busy)
      ∧ (isLead s.blk = true → p.joining = none → p.lanes ≠ 4 → ends (.pairJoin h B true meas) .notReady)
      ∧ (isLead s.blk = true → p.joining = none → atRest s.blk = true → p.up = true → peerRole s.blk = 4 → p.lanes = 4 →
          meas = joinMeas s.blk → checkBoundary s.blk B = none → Completes (.pairJoin h B true meas) s (fun b =>
            Answers h .ok noDetail [] { s.blk with
              host := { s.blk.host with actions := s.blk.host.actions ++ [{ boundary := B, kind := .join, op := 0x0703, h := h, since := now s.blk }] }
              pair := { p with joining := some B, syncNext := 0, cmdSent := b.pair.cmdSent } } b)))
    ∧ (Admitted s.blk 0x0704 [] → (p.role = 0 ∨ p.role = 1 → ends (.pairLeave h) .pairRole)
      ∧ (isLead s.blk = true → atRest s.blk = false → ends (.pairLeave h) .wrongMode)
      ∧ (p.role = 3 ∨ p.role = 4 → Completes (.pairLeave h) s (fun b =>
          Answers h .ok noDetail [] { s.blk with pair := { p with roleDue := some 1 } } b)))
    ∧ (Admitted s.blk 0x0705 [] → (p.role ≠ 5 → ends (.pairHandover h B) .pairRole)
      ∧ (p.role = 5 → checkBoundary s.blk B = none → (∀ a ∈ s.blk.host.actions, a.kind ≠ .handover) →
          Completes (.pairHandover h B) s (fun b => Answers h .ok noDetail [] { s.blk with
            host := { s.blk.host with actions := s.blk.host.actions ++ [{ boundary := B, kind := .handover, op := 0x0705, h := h, since := now s.blk }] }
            pair := { p with handover := some B } } b)))
    ∧ (Admitted s.blk 0x0706 [] → (p.role = 0 → ends (.pairEpochReset h) .pairRole)
      ∧ (p.role ≠ 0 → p.role ≠ 1 ∨ p.up = false ∨ p.peerAt = none ∨ peerRole s.blk ≠ 1 ∨ quiet s.blk p.cmdAt = false ∨ quiet s.blk p.peerCmdAt = false →
          ends (.pairEpochReset h) .notReady)
      ∧ (p.role = 1 → p.up = true → p.peerAt.isSome = true → peerRole s.blk = 1 → quiet s.blk p.cmdAt = true → quiet s.blk p.peerCmdAt = true →
          Completes (.pairEpochReset h) s (fun b =>
            Answers h .ok noDetail [] { s.blk with pair := { p with stored := 0, epoch := 0, storeDue := false } } b)))
    ∧ (isPartner s.blk = true → p.roleDue = none → p.joinedAt ≤ X →
        (p.workAt ≠ some X → inputComplete s.blk X = true → leadStep s.blk X = true → p.struckAt ≠ some X → ledIn ≠ d →
          Completes .partnerWork s (leaves 1))
        ∧ (p.workAt ≠ some X → inputComplete s.blk X = true → leadStep s.blk X = false ∨ ledIn = d →
            Completes .partnerWork s (fun b => b.pair.inDigest = d ∧ b.pair.workAt = some X))
        ∧ (p.workAt = some X ∨ inputComplete s.blk X = false → Completes .partnerWork s (fun b => b = s.blk))
        ∧ (inputComplete s.blk X = false → p.struckAt ≠ some X → Completes .pairInputDeadline s (leaves 0))
        ∧ (inputComplete s.blk X = true ∨ p.struckAt = some X → Completes .pairInputDeadline s (fun b => b = s.blk))
        ∧ (p.workAt ≠ some X ∨ p.cmpAt = some X → Completes .digestCompare s (fun b => b = s.blk))
        ∧ (p.workAt = some X → p.cmpAt ≠ some X → leadStep s.blk X = true → ledOut = digestOut s.blk → Completes .digestCompare s (fun b =>
          b.pair.cmpAt = some X ∧
            b.pair.matchRun = Nat.min 4095 (p.matchRun + 1)
              ∧ (flashHeld s.blk = false → 15 ≤ p.matchRun → b.pair.inStep = true)
              ∧ (flashHeld s.blk = true → b.pair.inStep = false) ∧ b.pair.outDigest = digestOut s.blk ∧ b.ev = s.blk.ev))
        ∧ (p.workAt = some X → p.cmpAt ≠ some X → leadStep s.blk X = true → ledOut ≠ digestOut s.blk → bit (word p.peerStep 2) 26 = false →
            (p.localFault = true → Completes .digestCompare s (leaves 2))
            ∧ (p.localFault = false → Completes .digestCompare s (fun b => LastEvent b .pairDiverge (w64 X)
                ∧ b.pair.roleDue = some 4 ∧ b.pair.inStep = false))))
    ∧ (isPartner s.blk = true → p.inStep = true →
        let ps := evidencePorts s.blk
        (leadStep s.blk X = true ∨ ps = [] ∨ 2 * (ps.filter fun q => !heads.getLsbD q).length < ps.length → Completes (.strike heads) s (fun b => b = { s.blk with pair := { p with strikes := 0 } }))
        ∧ (leadStep s.blk X = false → ps ≠ [] → ps.length ≤ 2 * (ps.filter fun q => !heads.getLsbD q).length → p.struckAt ≠ some X →
            Completes (.strike heads) s (fun b => b = { s.blk with pair := { p with strikes := p.strikes + 1, struckAt := some X } }))
        ∧ (p.strikes < 2 → leadGaveUp s.blk = false → Completes .promotion s (fun b => b = s.blk))
        ∧ (2 ≤ p.strikes ∨ leadGaveUp s.blk = true → greatestEpoch s.blk < 65535 → Completes .promotion s (fun b =>
            let e := greatestEpoch s.blk + 1
            let last := p.workAt.getD (m64 (now s.blk + 2 ^ 64 - 1))
            b.pair.role = 2 ∧ b.pair.epoch = e ∧ b.pair.storeDue = true ∧ b.pair.strikes = 0 ∧ b.pair.inputs = []
              ∧ b.pair.dualUntil = some (now s.blk + 1)
              ∧ LastEvent b .pairPromote ([w32 (bib s.blk), w32 (bib b)] ++ w64 last ++ [w32 (now s.blk - 1 - last)]))))
    ∧ (covered s.blk = true → relinquishCause s.blk = true → Completes .relinquish s (fun b =>
        b = { s.blk with pair := { p with relinquish := true } }))
    ∧ (covered s.blk = false ∨ relinquishCause s.blk = false → Completes .relinquish s (fun b => b = s.blk))
    ∧ (p.role ≠ 3 → p.role ≠ 4 → Completes (.feedDecision heads) s (fun b => b = { s.blk with pair := { p with feeding := 0 } }))
    ∧ (p.role = 3 ∨ p.role = 4 →
        let wish := if s.blk.time.pairStepAt = some (now s.blk) then [] else feedWish heads s.blk
        let fed := if isPartner s.blk = true then wish.take 2 else feedFit s.blk wish 12000
        Completes (.feedDecision heads) s (fun b => b.pair.feeding = bitmapOf fed
          ∧ (fed.length = wish.length → b.ev = s.blk.ev)
          ∧ (fed.length ≠ wish.length → p.feedLimitAt = none → LastEvent b .pairFeedLimit [w32 (bitmapOf wish), w32 (bitmapOf fed)])))
    ∧ (p.role = 1 → p.left = false → p.up = true → p.peerAt.isSome = true → p.peerSolo = false → p.peerRank ≠ rank s.blk →
        (peerLeads s.blk = true → Completes (.pairColdStart auto) s (fun b => b.pair.role = 4))
        ∧ (peerRole s.blk = 1 → 2 ≤ s.blk.sup.stage → greatestEpoch s.blk < 65535 →
            (cfgBit s.blk 0x81 0 0 22 = true ∧ auto = false) ∨ (cfgBit s.blk 0x81 0 0 22 = auto ∧ p.peerRank < rank s.blk) →
            Completes (.pairColdStart auto) s (fun b => b.pair.role = 2 ∧ b.pair.epoch = greatestEpoch s.blk + 1))
        ∧ (peerRole s.blk = 1 → cfgBit s.blk 0x81 0 0 22 = auto → rank s.blk < p.peerRank →
            Completes (.pairColdStart auto) s (fun b => b = s.blk)))
    ∧ (∀ J, p.joining = some J → (now s.blk < J → Completes .joinAtBoundary s (fun b => b = s.blk))
        ∧ (J ≤ now s.blk → joinHolds s.blk = false → Completes .joinAtBoundary s (fun b =>
            LastEvent b .pairJoinFail [] ∧ b.pair.joining = none ∧ b.pair.role = p.role))
        ∧ (J ≤ now s.blk → joinHolds s.blk = true → isLead s.blk = true → Completes .joinAtBoundary s (fun b =>
            b.pair.role = p.role ∧ b.pair.joining = none ∧ ∀ n, (Tbl.get {} b.slal.cells n).hist = []))
        ∧ (J ≤ now s.blk → joinHolds s.blk = true → isLead s.blk = false → Completes .joinAtBoundary s (fun b =>
            b.pair.role = 3 ∧ b.pair.joinedAt = J ∧ b.pair.joining = none ∧ b.pair.inStep = false
              ∧ b.slal.limb = Tbl.mapAll {} s.blk.slal.limb (fun _ (x : SlLimb) => { x with r := 0 }))))
    ∧ (p.storeDue = true → flashHeld s.blk = false → Completes .epochRecordWrite s (fun b =>
        b = { s.blk with pair := { p with stored := p.epoch, storeDue := false } }))
    ∧ (p.storeDue = false ∨ flashHeld s.blk = true → Completes .epochRecordWrite s (fun b => b = s.blk))

/-- The mode manager: requests, the change at a boundary, the stride rows, stops and timers, COAST returns, corrections, jump blocks -/
def Obligations.ModeManager : Prop :=
  ∀ (h : Hdr) (w lo hi : W32) (s : State),
    let d := s.blk.md
    let m := Mode.ofCode (bits w 31 29)
    let B := join64 lo hi
    let ends := fun (st : Status) (dt : Nat) => Completes (.modeRequest h [w, lo, hi]) s (fun b => Answers h st dt [] s.blk b)
    let row := fun (a : Action) (st : Status) => [w32 a.op, w32 a.h.tag.toNat, w32 a.h.mbx.val] ++ w64 a.boundary ++ [w32 st.code]
    let idle := fun (i : Instr) => Completes i s (fun b => b = s.blk)
    (Admitted s.blk 0x0201 [] →
      (bits w 27 0 ≠ 0 → ends .badArg 0)
      ∧ (bits w 27 0 = 0 → s.blk.pair.role = 3 ∨ s.blk.pair.role = 4 → ends .pairRole noDetail)
      ∧ (bits w 27 0 = 0 → s.blk.pair.role ≠ 3 → s.blk.pair.role ≠ 4 → s.blk.host.coachUp = false → ends .notReady noDetail)
      ∧ (bits w 27 0 = 0 → s.blk.pair.role ≠ 3 → s.blk.pair.role ≠ 4 → s.blk.host.coachUp = true →
        (m = d.mode ∨ m = .coast ∨ m = .plough → ends .wrongMode noDetail)
        ∧ (m = .follow → d.mode = .safe ∨ d.mode = .service ∨ d.mode = .discharge ∨ d.mode = .coast → ends .wrongMode noDetail)
        ∧ (m = .charge → d.mode = .safe → d.stop = false → heldOff s.blk .charge = false → s.blk.prot.patrolLost = true → ends .notReady noDetail)
        ∧ (modeFails s.blk m (bit w 28) = none → B ≠ 0 → checkBoundary s.blk B ≠ none →
            ∃ st, checkBoundary s.blk B = some st ∧ ends st 1)
        ∧ (modeFails s.blk m (bit w 28) = none → B ≠ 0 → checkBoundary s.blk B = none → (∀ a ∈ s.blk.host.actions, ∀ x y, a.kind ≠ .mode x y) →
            Completes (.modeRequest h [w, lo, hi]) s (fun b => Answers h .ok noDetail [] { s.blk with
              host := { s.blk.host with actions := s.blk.host.actions ++ [{ boundary := B, kind := .mode m (bit w 28), op := 0x0201, h := h, since := now s.blk }] }
              pair.cmdSent := b.pair.cmdSent } b))))
    ∧ (isPartner s.blk = true → (s.blk.host.actions = [] → idle .modeChange)
        ∧ ∀ i ∈ [Instr.modeStrideEval, .jumpCorrection, .syncheckEval], idle i)
    ∧ (isPartner s.blk = false →
        (∀ c, d.imm = some c → d.immAt < now s.blk → d.stop = false → (∀ a ∈ s.blk.host.actions, now s.blk < a.boundary ∧ ∀ x y, a.kind ≠ .mode x y) →
          Completes .modeChange s (fun b => b.md.mode = .safe ∧ b.md.imm = none ∧ b.md.pMode = 0 ∧ b.md.enteredAt = now s.blk))
        ∧ (∀ a, s.blk.host.actions = [a] → a.boundary ≤ now s.blk → a.kind = .mode .charge false → d.mode = .safe → d.imm = none → d.stop = false →
            (modeFails s.blk .charge false = none → Completes .modeChange s (fun b =>
              b.md.mode = .charge ∧ b.md.phase = 1 ∧ b.md.pMode = 0x3F800000 ∧ b.host.actions = [] ∧ LastEvent b .action (row a .ok)))
            ∧ (∀ c, modeFails s.blk .charge false = some c → Completes .modeChange s (fun b =>
                b.md.mode = .safe ∧ b.host.actions = []
                  ∧ LastEvent b .action (row a (if c = 0 then .wrongMode else .notReady))
                  ∧ (b.ev.log[1]?.map fun r => (r.code, r.payload)) = some (Ev.modeRefused.code, [w32 c]))))
        ∧ (d.mode = .safe → d.imm = none → d.stop = false → s.blk.sup.stopBy = none → Completes .modeStrideEval s (fun b =>
            b = { s.blk with fab := b.fab, md := { d with
              safeRun := if verifiedSafe s.blk (limbAll s.blk) = true then Nat.min (d.safeRun + 1) 100 else 0
              safeRunAll := if verifiedSafe s.blk (deviceCells s.blk) = true then Nat.min (d.safeRunAll + 1) 100 else 0
              sides := (limitStep s.blk).md.sides } }))
        ∧ (d.mode = .charge → d.phase = 3 → d.imm = none → d.orderly = none → d.stop = false → d.coastDue = [] → s.blk.safe.degr = 0 →
            s.blk.prot.copyA.line = true ∨ s.blk.prot.copyB.line = true → Completes .modeStrideEval s (fun b =>
              b.md.imm = some (stopRow 0) ∧ b.md.immAt = now s.blk ∧ b.md.mode = .charge ∧ cellsOff b = true))
        ∧ (d.stop = true → d.stopLeft = 0 → d.mode ≠ .safe → d.imm = none → Completes .orderlyStopEnd s (fun b =>
            b.md.imm = some d.stopCause ∧ b.md.immAt = now s.blk ∧ b.md.mode = d.mode))
        ∧ (d.mode = .charge → d.phase ≠ 3 → d.imm = none → d.enteredAt + cfgN s.blk 0x11 0 7 31 16 * 100000 ≤ now s.blk →
            Completes .chargeTimeout s (fun b => b.md.imm = some 5 ∧ b.md.immAt = now s.blk))
        ∧ (d.mode = .coast → d.stop = false → d.imm = none → d.orderly = none → cfgN s.blk 0x11 0 1 31 16 * 100 ≤ d.coastStrides →
            Completes .coastMaxExpiry s (fun b => b = { s.blk with md := { d with orderly := some (stopRow 11), orderlyAt := now s.blk } })))
    ∧ (d.stop = false ∨ d.stopLeft ≠ 0 → idle .orderlyStopEnd)
    ∧ (d.mode ≠ .charge ∨ d.phase = 3 → idle .chargeTimeout)
    ∧ (d.mode = .discharge → d.enteredAt + cfgN s.blk 0x11 0 7 15 0 * 100000 ≤ now s.blk →
        (d.phase = 1 → Completes .dischargeTimeout s (fun b => LastEvent b .dischargeFail [] ∧ b = { s.blk with ev := b.ev }))
        ∧ (d.phase = 2 → Completes .dischargeTimeout s (fun b => LastEvent b .dischargeFail []
            ∧ b = { s.blk with ev := b.ev, ports := b.ports, md := { d with phase := 1, phaseAt := now s.blk } })))
    ∧ (d.mode ≠ .discharge ∨ d.phase = 3 ∨ now s.blk < d.enteredAt + cfgN s.blk 0x11 0 7 15 0 * 100000 → idle .dischargeTimeout)
    ∧ (d.mode ≠ .coast ∨ d.coastStrides < cfgN s.blk 0x11 0 1 31 16 * 100 → idle .coastMaxExpiry)
    ∧ (d.mode ≠ .coast ∨ d.classifyAt ≠ some (now s.blk) → idle .returnClassify)
    ∧ (d.mode = .coast → d.classifyAt = some (now s.blk) → (side s.blk 0).free = true → (side s.blk 1).free = false →
        let x := side s.blk 0
        let c := jumpClass x.offset
        Completes .returnClassify s (fun b => LastEvent b .jump [w32 0, ofInt x.offset, w32 c]
          ∧ (side b 0).free = false ∧ (side b 0).jumpClass = c
          ∧ (c = 1 → (side b 0).ctrl = x.src - ofInt x.offset ∧ (side b 0).corr = x.offset ∧ (side b 0).correcting = true)
          ∧ (c = 2 → (side b 0).ctrl = x.src ∧ (side b 0).cl = true ∧ (side b 0).clLeft = cfgN s.blk 0x11 0 0 15 0)
          ∧ (c = 3 → (side b 0).ctrl = x.ctrl ∧ (side b 0).class3At = some (now s.blk))
          ∧ b.md.returnAt = some (now s.blk + cfgN s.blk 0x0A 0 0 31 24) ∧ b.md.classifyAt = none ∧ b.md.mode = .coast))
    ∧ (isPartner s.blk = false → (side s.blk 0).correcting = true → (side s.blk 0).corrAt < now s.blk → (side s.blk 1).correcting = false →
        let c := corrNext (side s.blk 0).corr (jumpStep s.blk)
        Completes .jumpCorrection s (fun b => (c = 0 → Tbl.wf {} d.sides = true → LastEvent b .jumpDone [w32 0])
          ∧ (c ≠ 0 → (side b 0).corr = c ∧ (side b 0).ctrl = (side s.blk 0).src - ofInt c ∧ (side b 0).correcting = true ∧ b.ev = s.blk.ev)
          ∧ b = { s.blk with md.sides := b.md.sides, fab := b.fab, ev := b.ev }))
    ∧ (d.jumpAt = none → idle .jumpBlock ∧ idle .jumpBlockEnd)
    ∧ (∀ r, d.jumpAt = some r →
        (now s.blk = r → Completes .jumpBlock s (fun b => b = if sends s.blk = true then sendBlock 16 s.blk else s.blk))
        ∧ (now s.blk = r + 1 → Completes .jumpBlock s (fun b => b.md.mode = d.mode ∧ ∀ l ∈ limbs s.blk, ∀ n ∈ limbCells s.blk l,
            canRejoin s.blk n = true → lvShut s.blk n = false → (hub b n).slot = .integrating))
        ∧ (now s.blk ≠ r → now s.blk ≠ r + 1 → idle .jumpBlock)
        ∧ (r + 6 ≤ now s.blk → Completes .jumpBlockEnd s (fun b => b = { s.blk with md := { d with jumpAt := none }, fab := b.fab }))
        ∧ (now s.blk < r + 6 → idle .jumpBlockEnd))
    ∧ Completes .clExpiry s (fun b => b = { s.blk with fab := b.fab, md := { d with
        sides := Tbl.mapAll {} d.sides fun _ (x : Side) =>
          if x.cl = true ∧ x.clLeft = 0 then { x with cl := false, jumpClass := if x.jumpClass = 1 then 1 else 0 } else x } })

/-- Network sides at a boundary, a zero crossing, and the synchronism check -/
def Obligations.GridSides : Prop :=
  ∀ (k : Fin 2) (lvSide : Bool) (ps : Fin 10000000) (h : Hdr) (s : State),
    let d := s.blk.md
    let g := gridMeasOf { s.blk with free := s.blk.free + k.val } k.val
    let x := side s.blk k.val
    let frac := cfgW s.blk 0x12 k.val 4
    let turned := x.loop + w32 (turnsOf g.freq 32)
    let alive := if 100 ≤ x.liveRun then true else if 1000 ≤ x.deadRun then false else x.live
    let z := if lvSide = true then 1 else 0
    (gSrc s.blk k.val ≠ 0 → Completes .gridMeasure s (fun b =>
      let y := side b k.val
      y.vmag = g.vmag ∧ y.vneg = g.vneg ∧ y.freq = g.freq ∧ y.rocof = g.rocof ∧ y.fHist.head? = some g.freq
        ∧ (∃ c : Int, y.loop = turned + ofInt c)
        ∧ (loopSettled s.blk k.val g.freq (s32 (g.angle - turned)) = true → withinDegrees (s32 (g.angle - y.loop)) 1 2 = true)
        ∧ y.live = alive
        ∧ y.liveRun = (if fle frac g.vmag = true then Nat.min (x.liveRun + 1) 100 else 0)
        ∧ y.deadRun = (if flt g.vmag (fmul frac 0x3F000000) = true then Nat.min (x.deadRun + 1) 1000 else 0)
        ∧ y.enterRun = (if flt g.vmag (cfgW s.blk 0x12 k.val 5) = true then x.enterRun + 1 else 0)
        ∧ (x.srcState = 0 → y.srcState = 3)
        ∧ (x.srcState = 1 ∨ x.srcState = 2 → alive = false ∨ 100 ≤ x.badRun → y.srcState = 3)
        ∧ (x.srcState = 3 → alive = true → gSrc s.blk k.val = 1 → y.srcState = 1)
        ∧ (x.srcState = 1 → alive = true → gSrc s.blk k.val = 1 → x.badRun < 100 → 1000 ≤ x.okRun → y.srcState = 2)
        ∧ (x.srcState = 2 → alive = true → gSrc s.blk k.val = 1 → x.badRun < 100 → y.srcState = 2 ∧ y.src = y.loop)))
    ∧ (gSrc s.blk k.val = 0 → Completes .gridMeasure s (fun b => (side b k.val).live = true ∧ (side b k.val).srcState = 0))
    ∧ (gSrc s.blk 0 = 0 → gSrc s.blk 1 = 0 → isPartner s.blk = false → d.mode = .safe → Completes .gridMeasure s (fun b =>
        b.md.mode = .safe ∧ b = { s.blk with md := { d with sides := b.md.sides }, ev := b.ev, fab := b.fab, free := s.blk.free + 2 }))
    ∧ (gSrc s.blk z = 1 → cfgBit s.blk 0x12 z 0 29 = true → Completes (.phaseAZeroCrossing lvSide ps) s (fun b =>
        b = onSide z (fun (q : Side) => { q with loop := 0xC0000000 - ofInt (((fVal q.freq).1 * 2 ^ 32 * ps.val) / ((fVal q.freq).2 * 1000000000000 : Nat)) }) s.blk))
    ∧ (gSrc s.blk z ≠ 1 ∨ cfgBit s.blk 0x12 z 0 29 = false → Completes (.phaseAZeroCrossing lvSide ps) s (fun b => b = s.blk))
    ∧ (Admitted s.blk 0x0202 [] →
        (isPartner s.blk = true → Completes (.syncheckStart h) s (fun b => Answers h .pairRole noDetail [] s.blk b))
        ∧ (isPartner s.blk = false → (side s.blk 1).live = false ∨ (side s.blk 1).srcState ≠ 2 ∨ lvConnected s.blk = true ∨ d.stop = true →
            Completes (.syncheckStart h) s (fun b => Answers h .notReady noDetail [] s.blk b))
        ∧ (isPartner s.blk = false → d.mode = .follow ∨ (d.mode = .charge ∧ d.phase = 3) → (side s.blk 1).live = true → (side s.blk 1).srcState = 2 →
            lvConnected s.blk = false → d.stop = false → d.imm = none → Completes (.syncheckStart h) s (fun b => Answers h .ok noDetail []
              { onSide 1 (fun (q : Side) => { q with syncRun := 0 }) { s.blk with md.syncAt := some (now s.blk) } with pair.cmdSent := b.pair.cmdSent } b)))
    ∧ (isPartner s.blk = false → lvConnected s.blk = false → (side s.blk 1).live = true → (side s.blk 1).srcState = 2 → d.syncAt.isSome = true →
        (syncPasses s.blk = true → (side s.blk 1).syncRun + 1 < cfgN s.blk 0x13 0 0 24 12 → Completes .syncheckEval s (fun b =>
          (side b 1).syncOk = true ∧ (side b 1).syncRun = (side s.blk 1).syncRun + 1 ∧ b.md.syncAt = d.syncAt ∧ b.ev = s.blk.ev))
        ∧ (syncPasses s.blk = true → (side s.blk 1).syncRun + 1 = cfgN s.blk 0x13 0 0 24 12 → Completes .syncheckEval s (fun b =>
            LastEvent b .syncheckPass [] ∧ b.md.syncAt = none))
        ∧ (syncPasses s.blk = false → 0 < cfgN s.blk 0x13 0 0 24 12 → Completes .syncheckEval s (fun b =>
            b.md.syncAt = d.syncAt ∧ b.ev = s.blk.ev ∧ (side b 1).syncRun = 0 ∧ (side b 1).syncOk = false)))
    ∧ (isPartner s.blk = false → lvConnected s.blk = true ∨ (side s.blk 1).live = false ∨ (side s.blk 1).srcState ≠ 2 → d.syncAt.isSome = true →
        0 < cfgN s.blk 0x13 0 0 24 12 → Completes .syncheckEval s (fun b => (side b 1).syncOk = false ∧ (side b 1).syncRun = 0 ∧ b.ev = s.blk.ev))
    ∧ (d.syncAt = none → Completes .syncheckTimeout s (fun b => b = s.blk))
    ∧ (∀ t, d.syncAt = some t →
        (now s.blk < t + cfgN s.blk 0x13 0 0 11 4 * 100000 → Completes .syncheckTimeout s (fun b => b = s.blk))
        ∧ (t + cfgN s.blk 0x13 0 0 11 4 * 100000 ≤ now s.blk → Completes .syncheckTimeout s (fun b => LastEvent b .syncheckFail []
            ∧ b = { s.blk with ev := b.ev, md := { d with syncAt := none } })))

/-- The slew of a measurement is a free number within its limits (log 3). Where a table must be canonical the premise says so. -/
def Obligations.TimeKeeping : Prop :=
  ∀ (h : Hdr) (B us : Nat) (delta : Option Int) (pt : Fin 4) (k : Fin 5) (stamp o u : Int) (s : State),
    let t := s.blk.time
    let idle := fun (i : Instr) => Completes i s (fun b => b = s.blk)
    let steps := fun (d : Int) (b : Block) =>
      let n := (d + 5000000) / 10000000
      b.time.steps = satInc 65535 t.steps ∧ ((t.ns < 1000000000 ∧ t.sub < 2 ^ 32) →
        0 ≤ (tai s.blk : Int) + n * strideLen → (tai s.blk : Int) + n * strideLen < 2 ^ 64 * 1000000000 * 2 ^ 32 →
        (tai b : Int) = tai s.blk + n * strideLen)
    let row := fun (a : Action) (st : Status) => [w32 a.op, w32 a.h.tag.toNat, w32 a.h.mbx.val] ++ w64 a.boundary ++ [w32 st.code]
    let sel := timeSrc s.blk t.src
    let mode := cfgN s.blk 0x08 0 0 17 16
    let lim : Int := cfgN s.blk 0x08 0 0 15 8
    let max : Int := 100 * cfgN s.blk 0x21 0 0 17 7
    (Admitted s.blk 0x0601 [] →
      (s.blk.md.mode ≠ .safe → Completes (.timeStep h B delta) s (fun b => Answers h .wrongMode noDetail [] s.blk b))
      ∧ (∀ st, s.blk.md.mode = .safe → checkBoundary s.blk B = some st →
          Completes (.timeStep h B delta) s (fun b => Answers h st noDetail [] s.blk b))
      ∧ (s.blk.md.mode = .safe → checkBoundary s.blk B = none → delta = none → t.src = 0 →
          Completes (.timeStep h B delta) s (fun b => Answers h .notReady noDetail [] s.blk b))
      ∧ (s.blk.md.mode = .safe → checkBoundary s.blk B = none → delta ≠ none ∨ t.src ≠ 0 →
          Completes (.timeStep h B delta) s (fun b => Answers h .ok noDetail []
            (addAction { boundary := B, kind := .timeStep delta, op := 0x0601, h := h } s.blk) b)))
    ∧ (∀ a, s.blk.host.actions = [a] → a.boundary ≤ now s.blk → a.kind = .timeStep (some o) → t.state ≠ 0 →
        (s.blk.md.mode ≠ .safe → Completes .timeStepAct s (fun b => LastEvent b .action (row a .wrongMode) ∧ b.time = t))
        ∧ (s.blk.md.mode = .safe → stepAllowed s.blk = false → Completes .timeStepAct s (fun b => LastEvent b .action (row a .notReady) ∧ b.time = t))
        ∧ (s.blk.md.mode = .safe → stepAllowed s.blk = true → Completes .timeStepAct s (fun b =>
            LastEvent b .action (row a .ok) ∧ b.host.actions = [] ∧ b.time.liftStep = false ∧ steps (o * 1000) b)))
    ∧ (t.state = 0 → t.liftStep = true → t.src ≠ 0 → 1000000 < sel.offset ∨ sel.offset < -1000000 → stepAllowed s.blk = true →
        Completes .liftStep s (fun b => b.time.state = 1 ∧ b.time.liftStep = false ∧ LastEvent b .timeState [0, 1] ∧ steps sel.offset b))
    ∧ (t.state ≠ 0 ∨ t.liftStep = false ∨ t.src = 0 ∨ stepAllowed s.blk = false → idle .liftStep)
    ∧ (s.blk.pair.role = 1 ∨ s.blk.pair.role = 4 → s.blk.pair.feeding = 0 → (s.blk.pair.steer + 5000000) / 10000000 ≠ 0 →
        Completes .pairStepAct s (fun b => steps s.blk.pair.steer b
          ∧ b.pair.steer = s.blk.pair.steer - (s.blk.pair.steer + 5000000) / 10000000 * 10000000))
    ∧ (s.blk.pair.feeding ≠ 0 ∨ (s.blk.pair.role ≠ 1 ∧ s.blk.pair.role ≠ 4) ∨ (s.blk.pair.steer + 5000000) / 10000000 = 0 → idle .pairStepAct)
    ∧ (t.src ≠ 0 → sel.fresh = true → t.state = 1 →
        (-50000 ≤ sel.offset → sel.offset ≤ 50000 → 7 ≤ t.okRun → Completes .timeMeasurement s (fun b =>
          b.time.state = 2 ∧ LastEvent b .timeState [1, 2] ∧ b.time.left = sel.offset * 100))
        ∧ (-50000 ≤ sel.offset → sel.offset ≤ 50000 → t.okRun < 7 → Completes .timeMeasurement s (fun b =>
            b.time.state = 1 ∧ b.time.okRun = t.okRun + 1 ∧ b.ev = s.blk.ev ∧ b.time.left = sel.offset * 100))
        ∧ (50000 < sel.offset → Completes .timeMeasurement s (fun b => b.time.state = 1 ∧ b.time.okRun = 0)))
    ∧ (t.src = 0 ∨ sel.fresh = false → idle .timeMeasurement)
    ∧ (t.incrAt = some (now s.blk) → idle .incrUpdate)
    ∧ (t.incrAt ≠ some (now s.blk) → Completes .incrUpdate s (fun b => 10726680822 ≤ b.time.incr ∧ b.time.incr ≤ 10748155658
        ∧ (-max ≤ t.slew → t.slew ≤ max → -max ≤ b.time.slew ∧ b.time.slew ≤ max ∧ b.time.slew - t.slew ≤ 100 ∧ t.slew - b.time.slew ≤ 100)
        ∧ (t.state = 2 → t.src ≠ 0 → s.blk.pair.role ≠ 1 → 0 ≤ t.left → 0 ≤ t.slew → 0 ≤ b.time.slew)
        ∧ (t.state = 3 → s.blk.pair.role ≠ 1 → b.time.slew = ramp0 t.slew)
        ∧ b = { s.blk with free := b.free, time := { t with slew := b.time.slew, left := b.time.left, incr := b.time.incr, incrAt := some (now s.blk) } }))
    ∧ (cfgBit s.blk 0x21 0 0 (19 + pt.val) = false → ∀ m, idle (.ptpMessage pt m))
    ∧ (cfgBit s.blk 0x21 0 0 (19 + pt.val) = true →
        (∀ dl, Completes (.ptpMessage pt (.pdelayDone dl)) s (fun b => b = { s.blk with time := { t with pdelay := Tbl.set 0 t.pdelay pt.val dl } }))
        ∧ Completes (.ptpMessage pt .pdelayReq) s (fun b => b = { s.blk with time := { t with pdelayAnswers := t.pdelayAnswers + 1 } })
        ∧ (∀ (d : BitVec 8) (i : BitVec 64), d.toNat = cfgN s.blk 0x21 0 1 31 24 →
            (fromGm s.blk pt.val i.toNat = true → Completes (.ptpMessage pt (.sync d i stamp (some o))) s (fun b =>
              (timeSrc b 1).offset = o + Tbl.get 0 t.pdelay pt.val - stamp ∧ (timeSrc b 1).fresh = true))
            ∧ (fromGm s.blk pt.val i.toNat = false → idle (.ptpMessage pt (.sync d i stamp (some o))))
            ∧ (∀ ds ina utc leap, t.gm = none → gmOk s.blk ds ina = true → Completes (.ptpMessage pt (.announce d i ds ina utc leap)) s (fun b =>
                b.time.gm = some { port := pt.val, id := i.toNat, dataset := ds, inaccuracy := ina } ∧ b.time.utcOff = utc
                  ∧ b.time.srcs = t.srcs ∧ b.ev = s.blk.ev))))
    ∧ (let e := stamp - 1000 * cfgN s.blk 0x21 0 3 31 16
       Completes (.ppsInEdge stamp (some u)) s (fun b => (timeSrc b 2).offset = (u + taiUtc s.blk) * 1000000000000 - e
          ∧ (timeSrc b 2).fresh = true ∧ (timeSrc b 2).lastMark = some e
          ∧ (∀ m, (timeSrc s.blk 2).lastMark = some m → 999999000000 ≤ e - m → e - m ≤ 1000001000000 →
              (timeSrc b 2).good = (timeSrc s.blk 2).good + 1 ∧ (2 ≤ (timeSrc s.blk 2).good → (timeSrc b 2).qualified = true)))
        ∧ Completes (.ppsInEdge stamp none) s (fun b => (timeSrc b 2).good = 0 ∧ (timeSrc b 2).lastMark = some e))
    ∧ Completes (.irigFrame stamp none) s (fun b => (timeSrc b 3).good = 0 ∧ (timeSrc b 3).bad = (timeSrc s.blk 3).bad + 1
        ∧ (2 ≤ (timeSrc s.blk 3).bad → (timeSrc b 3).qualified = false))
    ∧ (∀ l y, cfgBit s.blk 0x21 0 0 18 = false → l.year = some y → Completes (.irigFrame stamp (some l)) s (fun b =>
        (timeSrc b 3).offset = (((yearStart y + l.second : Nat) : Int) + taiUtc s.blk) * 1000000000000 - (stamp - 1000 * cfgN s.blk 0x21 0 3 15 0)
          ∧ (timeSrc b 3).fresh = true))
    ∧ (∀ n : Fin 4, n = 0 ∨ srcMissing s.blk n.val = false → idle (.timeSourceLost n))
    ∧ (∀ n : Fin 4, n ≠ 0 → srcMissing s.blk n.val = true → t.state = 2 → t.src = n.val → Tbl.wf {} t.srcs = true → (∀ m, 1 ≤ m → m ≤ 3 → m ≠ n.val → srcUsable s.blk m = false) →
        Completes (.timeSourceLost n) s (fun b => b.time.state = 3 ∧ b.time.src = 0 ∧ b.time.holdAt = some (now s.blk) ∧ LastEvent b .timeState [2, 3]))
    ∧ (∀ a, t.holdAt = some a → t.state = 3 →
        (a + 100000 * cfgN s.blk 0x21 0 1 23 8 ≤ now s.blk → Completes .holdoverExpiry s (fun b => b.time.state = 4 ∧ LastEvent b .timeState [3, 4]
          ∧ (b.ev.log[1]?.map fun r => r.code) = some Ev.timeLost.code))
        ∧ (now s.blk < a + 100000 * cfgN s.blk 0x21 0 1 23 8 → idle .holdoverExpiry))
    ∧ (leapDue s.blk = false → idle .leapSecond)
    ∧ ((t.leap = 1 ∧ utcSec s.blk % 86400 = 1) ∨ (t.leap = 2 ∧ utcSec s.blk % 86400 = 86399) →
        t.src ≠ 1 → Completes .leapSecond s (fun b => b = { s.blk with time := { t with
        leap := 0, leapAdj := t.leapAdj + (if t.leap = 1 then 1 else if t.leap = 2 then -1 else 0) } }))
    ∧ Completes .refclkOutOfBand s (fun b => LastEvent b .refclk [] ∧ b = { s.blk with ev := b.ev, time := { t with refBad := true, incr := clampIncr t.incr } })
    ∧ (t.refOk = true → idle .refclkReturn)
    ∧ (t.refOk = false → s.blk.prot.summitReset = true → Completes .refclkReturn s (fun b => b = { s.blk with time := { t with refOk := true, refBad := false } }))
    ∧ (t.refOk = false → s.blk.prot.summitReset = false → Completes .refclkReturn s (fun b => b.time.state = 4 ∧ b.time.refOk = true ∧ b.time.refBad = false))
    ∧ (mode = 0 → idle (.synciEdge o))
    ∧ (mode ≠ 0 → -lim ≤ o → o ≤ lim → Completes (.synciEdge o) s (fun b => b = { s.blk with time := { t with
        synciOff := o, synciAt := some (now s.blk), synciTold := false, synciRun := 0 } }))
    ∧ (mode = 1 → lim < o → Completes (.synciEdge o) s (fun b => (t.synciRun = 15 → LastEvent b .synciDev [ofInt o])
        ∧ (t.synciRun ≠ 15 → b.ev = s.blk.ev) ∧ b.time.synciRun = t.synciRun + 1))
    ∧ (∀ a, t.synciAt = some a → mode = 1 → t.synciTold = false → a + 2 * 2 ^ cfgN s.blk 0x08 0 0 30 28 ≤ now s.blk →
        Completes .synciLost s (fun b => LastEvent b .synciLost [] ∧ b = { s.blk with ev := b.ev, time := { t with synciTold := true, synciRun := 0 } }))
    ∧ (mode ≠ 1 ∨ t.synciTold = true → idle .synciLost)
    ∧ (acquired s.blk = false → idle .syncoPulse ∧ idle .ppsOutPulse)
    ∧ (acquired s.blk = true → cfgBit s.blk 0x08 0 0 31 = true → cfgN s.blk 0x08 0 0 27 18 = 0 → now s.blk % 2 ^ cfgN s.blk 0x08 0 0 30 28 = 0 →
        Completes .syncoPulse s (fun b => b = { s.blk with time := { t with syncoAt := some (now s.blk) } }))
    ∧ (cfgBit s.blk 0x21 0 4 31 = false → idle .ppsOutPulse)
    ∧ (let adv := cfgN s.blk 0x21 0 4 20 11
       acquired s.blk = true → cfgBit s.blk 0x21 0 4 31 = true →
        (adv = 0 → t.ns < 10000 → Completes .ppsOutPulse s (fun b => b = { s.blk with time := { t with ppsAt := some t.sec } }))
        ∧ (adv ≠ 0 → 999990000 ≤ t.ns → Completes .ppsOutPulse s (fun b => b = { s.blk with time := { t with ppsAt := some (t.sec + 1) } }))
        ∧ ((adv = 0 ∧ 10000 ≤ t.ns) ∨ (adv ≠ 0 ∧ t.ns < 999990000) → idle .ppsOutPulse))
    ∧ ((synth s.blk k.val).locked = false → idle (.pllUnlock k))
    ∧ ((synth s.blk k.val).locked = true → Tbl.wf {} s.blk.synth = true → Tbl.wf {} s.blk.ports = true → Completes (.pllUnlock k) s (fun b =>
        (synth b k.val).locked = false ∧ (synth b k.val).holding = true ∧ (∀ j, j ≠ k.val → synth b j = synth s.blk j)
          ∧ (k ≠ 2 → LastEvent b .pllUnlock [w32 k.val])
          ∧ ((∀ j : Fin 5, j ≠ k → (synth s.blk j.val).locked = false) → b.time.refOk = false)
          ∧ ((∃ j : Fin 5, j ≠ k ∧ (synth s.blk j.val).locked = true) → b.time.refOk = t.refOk)
          ∧ (k = 0 → b.prot.ownOsc = true ∧ b.prot.sysOut = true) ∧ (k = 3 → b.net = [])
          ∧ (k = 1 → ∀ p < 16, (port b p).txIdle = true) ∧ (k = 2 → ∀ p, 16 ≤ p → p < 36 → (port b p).txIdle = true)))
    ∧ (relockBarred s.blk k.val = true → idle (.pllLock k us))
    ∧ ((k = 1 ∨ k = 2) → (synth s.blk k.val).locked = true → s.blk.md.mode = .charge → 2 ≤ s.blk.sup.stage → relockBarred s.blk k.val = true)
    ∧ ((synth s.blk k.val).locked = false → k ≠ 0 ∨ s.blk.prot.summitReset = true → relockBarred s.blk k.val = false)
    ∧ (relockBarred s.blk k.val = false → Completes (.pllLock k us) s (fun b => (synth b k.val).locked = true ∧ (synth b k.val).holding = false
        ∧ (synth b k.val).relocks = satInc 255 (synth s.blk k.val).relocks ∧ (synth b k.val).lockUs = Nat.min us 16383
        ∧ (synth b k.val).bandSrc = bandValid s.blk (synth s.blk k.val)
        ∧ (k = 0 → b.prot.sysOut = false ∧ b.time.refOk = true) ∧ b.ev = s.blk.ev))
    ∧ ((synth s.blk 4).setting = cfgW s.blk 0x22 0 0 → idle .pllHop)
    ∧ ((synth s.blk 4).setting ≠ cfgW s.blk 0x22 0 0 → Completes .pllHop s (fun b =>
        b = onSynth 4 (fun (x : Synth) => { x with setting := cfgW s.blk 0x22 0 0, locked := false, holding := true }) s.blk))
    ∧ (∀ j : Nat, (cfgBit s.blk 0x23 j 0 31 = false ∨ s.blk.prot.summitReset = true → clkOut s.blk j = none)
        ∧ (cfgBit s.blk 0x23 j 0 31 = true → s.blk.prot.summitReset = false → s.blk.sup.good = true → t.refOk = true →
            (cfgBit s.blk 0x23 j 0 26 = true → clkOut s.blk j = some 0x4CBEBC20)
            ∧ (cfgBit s.blk 0x23 j 0 26 = false → (synth s.blk 4).holding = true → clkOut s.blk j =
                some (holdingClock (fdiv (cfgW s.blk 0x22 0 0) (ofNatF (cfgN s.blk 0x23 j 0 25 14)))))))
    ∧ (∀ up, Completes (.stationPortLinkChange pt up) s (fun b => b = { s.blk with net := Tbl.upd {} s.blk.net pt.val fun (n : NetPort) => { n with link := up } }))

/-- The Sense bridge, phasor streams, traveling waves and fault records -/
def Obligations.SenseAndRecords : Prop :=
  ∀ (h : Hdr) (prec : List (List (BitVec 18))) (high : List (List (BitVec 16))) (k : Fin 2) (ln : Fin 4) (soc id part : W32)
    (ix S : Nat) (ws : List W32) (cmd : BitVec 16) (pk : Fin 200) (m : Fin 3) (ld : Fin 8)
    (codes : List (BitVec 16 × BitVec 16 × BitVec 16)) (s : State),
    let r := s.blk.recd
    let idle := fun (i : Instr) => Completes i s (fun b => b = s.blk)
    let last := m64 (now s.blk + 2 ^ 64 - 1)
    let vals := fun (c : Nat) => (prec.getD c []).map fun x => primary s.blk c x.toInt
    let p : Pmu := Tbl.get {} s.blk.pmu k.val
    let idc := cfgN s.blk 0x1E k.val 1 31 16
    let cfg := cfgEntry s.blk 0x1F ln.val
    let ch := fun i (x : BitVec 16) => primary s.blk (16 + (twChannels cfg).getD i 0) x.toInt
    let l := codes.map fun x => (ch 0 x.1, ch 1 x.2.1, ch 2 x.2.2)
    let mine := fun (j : Nat) => cfgWritten s.blk 0x1F j && cfgBit s.blk 0x1F j 0 29 && cfgN s.blk 0x1F j 5 15 0 == bits (word ws 0) 23 8
    (s.blk.sup.senseReset = true ∨ s.blk.sense.gotAt = some (now s.blk) → idle (.senseSamples prec high))
    ∧ (s.blk.sup.senseReset = false → s.blk.sense.gotAt ≠ some (now s.blk) → Completes (.senseSamples prec high) s (fun b =>
        b.sense.lost = false ∧ b.sense.gotAt = some (now s.blk) ∧ (Tbl.get (0, []) b.sense.precRing (last % 524288)).1 = last
          ∧ (isPartner s.blk = false → ∀ c < 16, ∀ i < 4,
              (Tbl.get {} b.fab.xvars (0x0B00 + 4 * c + i)).cur = { val := word (channelWords (vals c)) i, at? := some (work s.blk) })
          ∧ (isPartner s.blk = true → b.fab.xvars = s.blk.fab.xvars) ∧ b = { s.blk with sense := b.sense, fab := b.fab }))
    ∧ (∀ t, s.blk.sense.gotAt = some t → now s.blk < t + 2 → idle .senseLost)
    ∧ (s.blk.sense.lost = false → s.blk.sense.gotAt = none → isPartner s.blk = false → Completes .senseLost s (fun b =>
        b.sense.lost = true ∧ (∀ x ∈ b.recd.openRecs, x.trunc = true)
          ∧ (s.blk.md.mode = .safe → LastEvent b .senseLost [])
          ∧ (s.blk.md.mode ≠ .safe → s.blk.md.imm = none → b.md.imm = some (stopRow 2) ∧ b.md.immAt = now s.blk)))
    ∧ (let rate := streamRate s.blk k.val
       let R := (((soc.toNat : Int) + taiUtc s.blk) * 100000).toNat + ix * 100000 / rate
       (pmuSends s.blk k.val = false ∨ rate ≤ ix ∨ now s.blk < R → idle (.phasorReport k soc ix))
       ∧ (∀ g, p.frame = some g → g.soc = soc.toNat → g.fracsec = ix * 1200000 / rate → idle (.phasorReport k soc ix))
       ∧ (pmuSends s.blk k.val = true → ix < rate → R ≤ now s.blk → (∀ g, p.frame = some g → g.soc ≠ soc.toNat ∨ g.fracsec ≠ ix * 1200000 / rate) →
           Completes (.phasorReport k soc ix) s (fun b =>
            let q : Pmu := Tbl.get {} b.pmu k.val
            q.frames = p.frames + 1 ∧ b = { s.blk with pmu := b.pmu, free := b.free }
              ∧ ∃ g, q.frame = some g ∧ q.wire = dataOctets s.blk k.val g ∧ g.idcode = idc ∧ g.soc = soc.toNat ∧ g.fracsec = ix * 1200000 / rate
                ∧ g.phasors.length = (phasorItems s.blk k.val).length ∧ g.digital = pmuDigital s.blk ∧ g.stat = statWord k.val R s.blk
                ∧ g.analogs.length = (analogItems s.blk k.val).length)))
    ∧ (pmuEn s.blk k.val = true → s.blk.host.coachUp = true → cmd.toNat = idc → pmuTransport s.blk k.val ≠ 0 →
        Completes (.pmuCommand k cmd 2 false) s (fun b => b = { s.blk with pmu := Tbl.upd {} s.blk.pmu k.val fun (x : Pmu) => { x with on := true } })
        ∧ Completes (.pmuCommand k cmd 1 false) s (fun b => b = { s.blk with pmu := Tbl.upd {} s.blk.pmu k.val fun (x : Pmu) => { x with on := false } })
        ∧ (s.blk.time.state ≠ 0 → Completes (.pmuCommand k cmd 4 false) s (fun b => (Tbl.get {} b.pmu k.val : Pmu).reply = configOctets s.blk k.val 4)
            ∧ Completes (.pmuCommand k cmd 5 false) s (fun b => (Tbl.get {} b.pmu k.val : Pmu).reply = configOctets s.blk k.val 5)))
    ∧ (cmd.toNat ≠ idc → ∀ c x, idle (.pmuCommand k cmd c x))
    ∧ (twWatched s.blk ln.val = false ∨ codes.length ≠ 128 ∨ detected l (word cfg 3) m.val ld.val = false → idle (.twArrival ln S pk m ld codes))
    ∧ (∀ pos, Tbl.get none s.blk.tw.peaks ln.val = some pos → rearmed l (word cfg 3) ld.val (some (S * 200 + pk.val - pos)) = false →
        idle (.twArrival ln S pk m ld codes))
    ∧ (twWatched s.blk ln.val = true → codes.length = 128 → detected l (word cfg 3) m.val ld.val = true → Tbl.get none s.blk.tw.peaks ln.val = none →
        Tbl.get none s.blk.tw.lines ln.val = none → Tbl.get none s.blk.tw.holdoff ln.val = none →
        Completes (.twArrival ln S pk m ld codes) s (fun b =>
          let t := (arrivalTime (S * 200 + pk.val) l m.val cfg s.blk).1
          Tbl.get none b.tw.lines ln.val = some {
              id := s.blk.tw.nextId, line := ln.val, cfg := cfg, closeAt := t + twWindow cfg
              arrivals := [{ time := t, mode := m.val, peak := absD l m.val 64, samples := l }] }
            ∧ b.tw.nextId = (s.blk.tw.nextId + 1) % 65536 ∧ Tbl.get none b.tw.peaks ln.val = some (S * 200 + pk.val)
            ∧ (bit (word cfg 0) 14 = true → b.recd.notes = r.notes ++ [(0, s.blk.tw.nextId)])))
    ∧ (∀ e, Tbl.get none s.blk.tw.lines ln.val = some e →
        (now s.blk * 1000 + 999 < e.closeAt → idle (.twWindowClose ln))
        ∧ (e.closeAt ≤ now s.blk * 1000 + 999 → Completes (.twWindowClose ln) s (fun b =>
            Tbl.get none b.tw.holdoff ln.val = some (now s.blk + bits (word e.cfg 5) 31 16)
              ∧ (e.de = false → LastEvent b .tw (twPayload { e with closed := true, timeOk := acquired s.blk } s.blk).1)
              ∧ (e.de = true → e.tag = none → b.ev = s.blk.ev ∧ b.tw.tagSeq = s.blk.tw.tagSeq + 1 ∧ word b.tw.sentTag 5 = b.tw.tagSeq
                  ∧ b.tw.events.head? = some { e with closed := true, timeOk := acquired s.blk }))))
    ∧ (∀ t, Tbl.get none s.blk.tw.holdoff ln.val = some t →
        (now s.blk < t → idle (.twHoldoffEnd ln))
        ∧ (t ≤ now s.blk → Completes (.twHoldoffEnd ln) s (fun b => b = { s.blk with tw := { s.blk.tw with
            holdoff := Tbl.set none s.blk.tw.holdoff ln.val none } })))
    ∧ (tagWhole ws = false → idle (.twTag ln ws))
    ∧ (∀ e, Tbl.get none s.blk.tw.lines ln.val = none → s.blk.tw.events = [e] → e.waits ln.val (bits (word ws 0) 23 8) (now s.blk) = true → e.closed = true → tagWhole ws = true →
        let t := join64 (word ws 2) (word ws 3) * 1000 + bits (word ws 4) 31 22
        e.within t = true → Completes (.twTag ln ws) s (fun b =>
          LastEvent b .tw (twPayload { e with tag := some (t, bit (word ws 1) 31) } s.blk).1 ∧ b.tw.events.head?.map TwEvent.done = some true))
    ∧ (∀ e, s.blk.tw.events = [e] → e.line = ln.val → e.done = false → e.closeAt / 1000 + 100000 ≤ now s.blk →
        Completes (.twTagWaitEnd ln) s (fun b => LastEvent b .tw (twPayload e s.blk).1 ∧ b.tw.events.head?.map TwEvent.done = some true))
    ∧ ((∀ e ∈ s.blk.tw.events, e.line ≠ ln.val ∨ e.done = true) → idle (.twTagWaitEnd ln))
    ∧ (Admitted s.blk 0x0505 [] →
        (ws.length ≠ 8 → Completes (.twRemote h ws) s (fun b => Answers h .badArg noDetail [] s.blk b))
        ∧ (ws.length = 8 → bits (word ws 0) 31 24 ≠ 1 → Completes (.twRemote h ws) s (fun b => Answers h .badArg 0 [] s.blk b))
        ∧ (ws.length = 8 → bits (word ws 0) 7 0 ≠ 0 → Completes (.twRemote h ws) s (fun b => Answers h .badArg 0 [] s.blk b))
        ∧ (ws.length = 8 → bits (word ws 0) 31 24 = 1 → bits (word ws 0) 7 0 = 0 →
            (bits (word ws 1) 26 0 ≠ 0 → Completes (.twRemote h ws) s (fun b => Answers h .badArg 1 [] s.blk b))
            ∧ (bits (word ws 1) 26 0 = 0 → 999 < bits (word ws 4) 31 22 ∨ bits (word ws 4) 21 0 ≠ 0 →
                Completes (.twRemote h ws) s (fun b => Answers h .badArg 4 [] s.blk b))
            ∧ (bits (word ws 1) 26 0 = 0 → bits (word ws 4) 31 22 ≤ 999 → bits (word ws 4) 21 0 = 0 →
                (word ws 6 ≠ 0 → Completes (.twRemote h ws) s (fun b => Answers h .badArg 6 [] s.blk b))
                ∧ (word ws 6 = 0 →
                    (crc32 (bytesOf (ws.take 7)) ≠ word ws 7 → Completes (.twRemote h ws) s (fun b => Answers h .badArg 7 [] s.blk b))
                    ∧ (crc32 (bytesOf (ws.take 7)) = word ws 7 →
                        ((∀ j < 4, mine j = false) → Completes (.twRemote h ws) s (fun b => Answers h .badArg 0 [] s.blk b))
                        ∧ (∀ q < 4, mine q = true → (∀ j < q, mine j = false) →
                            Completes (.twRemote h ws) s (fun b => Answers h .ok noDetail [] (twTag q ws s.blk) b)))))))
    ∧ (Admitted s.blk 0x0504 [] → feature s.blk 9 = true →
        ((∀ e ∈ s.blk.tw.events, e.id ≠ id.toNat) → Completes (.twEventRead h id) s (fun b => Answers h .badArg 0 [] s.blk b))
        ∧ (∀ e, s.blk.tw.events.find? (fun x => x.id == id.toNat) = some e →
            (e.done = false → Completes (.twEventRead h id) s (fun b => Answers h .notReady noDetail [] s.blk b))
            ∧ (e.done = true → Completes (.twEventRead h id) s (fun b => ∃ d, b = startBulk { h := h, data := e.payload ++ d } s.blk
                ∧ d.length = 4 * e.arrivals.length + (e.arrivals.map fun a => 3 * a.samples.length).foldr (· + ·) 0))))
    ∧ (s.blk.sense.lost = true → Completes .recTriggerEval s (fun b => b = { s.blk with recd := { r with notes := [] } }))
    ∧ (s.blk.sense.lost = false → r.notes = [(6, 0)] → trigEnabled s.blk 6 = true → trigCond s.blk 3 = false → trigCond s.blk 4 = false → trigCond s.blk 5 = false →
        (r.openRecs = [] → Completes .recTriggerEval s (fun b => b.recd.nextId = r.nextId + 1 ∧ b.recd.openRecs =
          [RecordR.trigger { id := r.nextId, start := now s.blk - recPre s.blk, stop := now s.blk + recPost s.blk } (now s.blk) 6 0 (recPost s.blk)]))
        ∧ (∀ x, r.openRecs = [x] → now s.blk ≤ x.stop → Completes .recTriggerEval s (fun b =>
            b.recd.nextId = r.nextId ∧ b.recd.openRecs = [x.trigger (now s.blk) 6 0 (recPost s.blk)])))
    ∧ (s.blk.sense.lost = false → r.notes = [] → r.openRecs = [] → Tbl.get 0 r.quiet 3 = 0 → trigEnabled s.blk 3 = true → trigCond s.blk 3 = true →
        trigCond s.blk 4 = false → trigCond s.blk 5 = false → Completes .recTriggerEval s (fun b =>
          b.recd.openRecs.map RecordR.kinds = [8] ∧ b.recd.openRecs.map RecordR.trigs = [[(now s.blk, 3, 0)]]))
    ∧ Completes .recordClose s (fun b => b = { s.blk with recd := { r with
        openRecs := r.openRecs.filter fun x => now s.blk ≤ x.stop, closing := r.closing ++ r.openRecs.filter fun x => x.stop < now s.blk } })
    ∧ (r.closing = [] → idle .recCopyDone)
    ∧ (∀ x xs, r.closing = x :: xs → Completes .recCopyDone s (fun b => LastEvent b .recorded [w32 x.id] ∧ b.recd.closing = xs
        ∧ b = { s.blk with ev := b.ev, recd := { r with closing := xs, store := b.recd.store } }))
    ∧ (Admitted s.blk 0x0501 [] →
        (trigEnabled s.blk 6 = false ∨ s.blk.sense.lost = true → Completes (.recTrigger h) s (fun b => Answers h .notReady noDetail [] s.blk b))
        ∧ (trigEnabled s.blk 6 = true → s.blk.sense.lost = false → Completes (.recTrigger h) s (fun b =>
            Answers h .ok noDetail [] { s.blk with recd := { r with notes := r.notes ++ [(6, 0)] } } b)))
    ∧ (Admitted s.blk 0x0502 [] → (r.store.flatMap RecordR.header).length ≤ 1020 →
        Completes (.recList h) s (fun b => Answers h .ok noDetail (r.store.flatMap RecordR.header) s.blk b))
    ∧ (Admitted s.blk 0x0503 [] → feature s.blk 9 = true →
        ((∀ x ∈ r.store, x.id ≠ id.toNat) → Completes (.recRead h id part) s (fun b => Answers h .badArg 0 [] s.blk b))
        ∧ (∀ x, r.store.find? (fun y => y.id == id.toNat) = some x →
            (1 < part.toNat → Completes (.recRead h id part) s (fun b => Answers h .badArg 1 [] s.blk b))
            ∧ (part = 0 → Completes (.recRead h id part) s (fun b =>
                b = startBulk { h := h, data := x.header ++ x.body, uses := some (.record id.toNat) } s.blk))
            ∧ (part = 1 → hsHeld s.blk x.start = false → Completes (.recRead h id part) s (fun b => Answers h .overwritten noDetail [] s.blk b))
            ∧ (part = 1 → hsHeld s.blk x.start = true → Completes (.recRead h id part) s (fun b => ∃ d,
                b = startBulk { h := h, data := d, uses := some (.record id.toNat), window := some x.start } s.blk))))

/-- Snapshots from request to record, the reads of rings, log, telemetry and endpoints, and an uncorrectable error -/
def Obligations.SnapshotsAndReads : Prop :=
  ∀ (h : Hdr) (lo hi ch pt id a fst : W32) (off len first cnt cell cells : Nat) (n : Fin 2048) (p : Fin 32) (vs : List W32)
    (pl : BitVec 56) (sk : Nat) (el eh : Fin 3) (ad : BitVec 33) (s : State),
    let B := join64 lo hi
    let sn := s.blk.snaps
    let req := Instr.snapshotRequest h [lo, hi, ch, pt]
    let ends := fun (i : Instr) (st : Status) (d : Nat) => Completes i s (fun b => Answers h st d [] s.blk b)
    let idle := fun (i : Instr) => Completes i s (fun b => b = s.blk)
    (Admitted s.blk 0x0401 [] →
      (7 < pt.toNat → ends req .badArg 3)
      ∧ (pt.toNat ≤ 7 → s.blk.pair.role ≠ 0 → isLead s.blk = false → ends req .pairRole noDetail)
      ∧ (pt.toNat ≤ 7 → s.blk.pair.role = 0 ∨ isLead s.blk = true →
        (∀ st, checkBoundary s.blk B = some st → ends req st 0)
        ∧ (checkBoundary s.blk B = none → (∃ q ∈ bitList 32 ch.toNat, (chain s.blk q).st ≠ .ready) → ends req .notReady 2)
        ∧ (checkBoundary s.blk B = none → (∀ q ∈ bitList 32 ch.toNat, (chain s.blk q).st = .ready) → (∃ x ∈ sn.list, x.st < 2 ∧ near40 x.boundary B = true
            ∧ ∃ q ∈ bitList 32 ch.toNat, snapChain x q = true) → ends req .busy noDetail)
        ∧ (checkBoundary s.blk B = none → ch = 0 → sn.list = [] → Completes req s (fun b => Answers h .ok noDetail [w32 sn.nextId] { s.blk with
            host := { s.blk.host with actions := s.blk.host.actions ++
              [{ boundary := B, kind := .snapshot sn.nextId, op := 0x0401, h := h, since := now s.blk }] }
            snaps := { list := [{ id := sn.nextId, boundary := B, chains := 0, parts := pt.toNat, slot := 0 }], nextId := sn.nextId + 1 } } b))))
    ∧ (Admitted s.blk 0x0402 [] →
        (findSnap s.blk id.toNat = none → ends (.snapshotCancel h id) .badArg 0)
        ∧ (∀ x, findSnap s.blk id.toNat = some x → x.st = 2 → ends (.snapshotCancel h id) .notReady noDetail)
        ∧ (∀ x, findSnap s.blk id.toNat = some x → x.st ≠ 2 → x.chains = 0 → s.blk.host.actions = [] → Completes (.snapshotCancel h id) s (fun b =>
            Answers h .ok noDetail [] (onSnap id.toNat (fun (y : Snap) => { y with st := 2, result := 2, doneAt := now s.blk }) s.blk) b)))
    ∧ (∀ act, s.blk.host.actions = [act] → act.kind = .snapshot id.toNat →
        (now s.blk < act.boundary → idle .snapshotLatch)
        ∧ (act.boundary ≤ now s.blk → Completes .snapshotLatch s (fun b => b.host.actions = []
            ∧ LastEvent b .action ([w32 act.op, w32 act.h.tag.toNat, w32 act.h.mbx.val] ++ w64 act.boundary ++ [w32 Status.ok.code])
            ∧ ∀ x ∈ b.snaps.list, x.id = id.toNat → x.st = 1 ∧ x.utc = utcSec s.blk ∧ x.taiUtc = taiUtc s.blk
                ∧ (x.parts.testBit 1 = true → x.ledger = s.blk.led.words))))
    ∧ (let seg := Instr.snapshotSegment n pl sk vs
       let got := rxFrame (n.val / 64) 0xCC pl sk vs s.blk
       (hears (port s.blk (n.val / 64)) = false → idle seg)
       ∧ (hears (port s.blk (n.val / 64)) = true →
          (got.2 = none → Completes seg s (fun b => b = got.1))
          ∧ (∀ l, got.2 = some l → segOk n.val 1 7 pl l = false → Completes seg s (fun b => b = ctrlErr (n.val / 64) got.1))
          ∧ (∀ l, got.2 = some l → segOk n.val 1 7 pl l = true →
              (uploading s.blk (n.val / 64) = none → Completes seg s (fun b => b = got.1))
              ∧ (∀ x, uploading s.blk (n.val / 64) = some x →
                  let at' := 8 * n.val + pf pl 47 44
                  ((Tbl.get none x.segs at').isSome = true → Completes seg s (fun b => b = got.1))
                  ∧ (Tbl.get none x.segs at' = none → Completes seg s (fun b =>
                      b = onSnap x.id (fun (y : Snap) => { y with segs := Tbl.set none y.segs at' (some l) }) got.1))))))
    ∧ (∀ x, findSnap s.blk id.toNat = some x →
        let m := ((List.range 64).map fun c => x.segCount (64 * p.val + c)).foldl Nat.max 0
        (x.st ≠ 1 ∨ snapChain x p.val = false ∨ x.closed.testBit p.val = true ∨ now s.blk < x.boundary + 2 * m + 1 → idle (.snapshotUploadClose p id))
        ∧ (x.st = 1 → snapChain x p.val = true → x.closed.testBit p.val = false → x.boundary + 2 * m + 1 ≤ now s.blk →
            Completes (.snapshotUploadClose p id) s (fun b => ∀ y ∈ b.snaps.list, y.id = id.toNat → y.closed.testBit p.val = true
              ∧ ((port s.blk p.val).st = .up → ∃ z ∈ sn.list, y.chainState = z.chainState)))
        ∧ (x.st = 1 → snapCells x = false → Completes (.snapshotAssembled id) s (fun b =>
            let r := if x.result = 4 then 4 else if x.slotsMissing = 0 then 0 else 1
            LastEvent b .snapshot ([w32 id.toNat, w32 r] ++ w64 x.boundary ++ [w32 x.partial?, w32 x.absent, w32 x.slotsMissing])
              ∧ ∀ y ∈ b.snaps.list, y.id = id.toNat → y.st = 2 ∧ y.result = r ∧ y.doneAt = now s.blk))
        ∧ (x.st ≠ 1 → idle (.snapshotAssembled id)))
    ∧ (Admitted s.blk 0x0403 [] → ((sn.list.filter fun x => 0 < x.st).flatMap Snap.header).length ≤ 1020 →
        Completes (.snapshotList h) s (fun b => Answers h .ok noDetail ((sn.list.filter fun x => 0 < x.st).flatMap Snap.header) s.blk b))
    ∧ (Admitted s.blk 0x0404 [] → feature s.blk 9 = true →
        (findSnap s.blk id.toNat = none → ends (.snapshotRead h id off len) .badArg 0)
        ∧ (∀ x, findSnap s.blk id.toNat = some x →
            (off % 4 ≠ 0 ∨ 0x3B1000 ≤ off → ends (.snapshotRead h id off len) .badArg 1)
            ∧ (off % 4 = 0 → off < 0x3B1000 → len % 4 ≠ 0 ∨ 0x3B1000 < off + len → ends (.snapshotRead h id off len) .badArg 2)
            ∧ (off % 4 = 0 → off < 0x3B1000 → len % 4 = 0 → off + len ≤ 0x3B1000 → x.st ≠ 2 → ends (.snapshotRead h id off len) .notReady noDetail)
            ∧ (off % 4 = 0 → len % 4 = 0 → 0 < len → off + len ≤ 0x3B1000 → x.st = 2 → Completes (.snapshotRead h id off len) s (fun b =>
                b = startBulk { h := h, data := (x.record.drop (off / 4)).take (len / 4), uses := some (.snapshot id.toNat) } s.blk))))
    ∧ (Admitted s.blk 0x0303 [] → feature s.blk 9 = true →
        (cells = 0 ∨ 2048 < cell + cells → ends (.ringRead h first cnt cell cells) .badArg 3)
        ∧ (0 < cells → cell + cells ≤ 2048 → Completes (.ringRead h first cnt cell cells) s (fun b =>
            let ss := ((List.range (Nat.min cnt 21845)).map (first + ·)).filter (ringHolds s.blk)
            b = startBulk { h := h, pre := [w32 ss.length], data := ss.flatMap fun t => ringRecords s.blk t cell cells } s.blk)))
    ∧ (Admitted s.blk 0x0304 [] → feature s.blk 9 = true → s.blk.ev.log.length < 1048576 → Completes (.logRead h fst cnt) s (fun b =>
        b = startBulk { h := h, data := ((s.blk.ev.log.filter fun r => (r.seq - fst).toNat < cnt).reverse.flatMap fun r => r.words false) } s.blk))
    ∧ (Admitted s.blk 0x0301 [] →
        (bits a 11 0 = 0 ∨ telemCount (bits a 31 24) < bits a 23 12 + bits a 11 0 → ends (.telemRead h [a]) .badArg 0)
        ∧ (0 < bits a 11 0 → bits a 23 12 + bits a 11 0 ≤ telemCount (bits a 31 24) →
            let r := w64 (now s.blk) ++ (List.range (bits a 11 0)).flatMap fun i => telemItem s.blk (bits a 31 24) (bits a 23 12 + i)
            (r.length ≤ 1020 → Completes (.telemRead h [a]) s (fun b => Answers h .ok noDetail r s.blk b))
            ∧ (1020 < r.length → ends (.telemRead h [a]) .badArg noDetail)))
    ∧ (Admitted s.blk 0x0302 [] → (∀ k < vs.length, endpointBad s.blk (word vs k) k = none) → Completes (.endpointRead h vs) s (fun b =>
        Answers h .ok noDetail (vs.map fun w => Tbl.get 0 s.blk.image (128 * bits w 17 7 + bits w 6 0)) s.blk b))
    ∧ (let fixed := (if el = 1 then 1 else 0) + (if eh = 1 then 1 else 0)
       let b1 := { s.blk with fab.ddr.ce := s.blk.fab.ddr.ce + fixed }
       let bad := Instr.ddrUncorrectable ad el eh id
       (el ≠ 2 → eh ≠ 2 → Completes bad s (fun b => b = b1))
       ∧ (el = 2 ∨ eh = 2 → Completes bad s (fun b =>
          (ad.toNat < 0x1DC000000 → LastEvent b .ddrUncorrectable (w64 ad.toNat))
          ∧ (ad.toNat < 0x100000000 → b = { b1 with ev := b.ev, sense := { s.blk.sense with hsRing := Tbl.set (0, []) s.blk.sense.hsRing (ad.toNat / 4800) (0, []) } })
          ∧ (0x100000000 ≤ ad.toNat → ad.toNat < 0x180000000 →
              b = { b1 with ev := b.ev, ring := Tbl.set (0, []) s.blk.ring ((ad.toNat - 0x100000000) / 48) (0, []) })
          ∧ (0x1C0000000 ≤ ad.toNat → ad.toNat < 0x1C4000000 →
              b = { b1 with ev := b.ev, sense := { s.blk.sense with precRing := Tbl.set (0, []) s.blk.sense.precRing ((ad.toNat - 0x1C0000000) / 128) (0, []) } })
          ∧ (0x1C4000000 ≤ ad.toNat → ad.toNat < 0x1CC000000 → ∀ r ∈ b.recd.store, r.id = id.toNat → r.complete = false))))

/-- A low of RESET_N between 80 ns and 120 ns is taken or not, freely (log 2). The voltage compared is the rail's own (log 16). -/
def Obligations.SupplyAndLift : Prop :=
  ∀ (h : Hdr) (r : Fin 12) (us : Fin 10) (mv cd : BitVec 16) (ms ns : Nat) (fl : BitVec 2) (f : Fin 6) (s : State),
    let u := s.blk.sup
    let q := rail s.blk r.val
    let t := micros s.blk us.val
    let v := Nat.min q.vMin mv.toNat
    let idle := fun (i : Instr) => Completes i s (fun b => b = s.blk)
    let ok := Nat.min 100 (u.okRun + 1)
    let l := (cd.toInt :: (if u.diodeFault = true then [] else u.readings)).take 10
    let T := meanTemp l
    let device := fun (b : Block) => b.cfg = [] ∧ b.host = {} ∧ b.time = {} ∧ b.md = {} ∧ b.eng = [] ∧ b.chains = [] ∧ b.cells = []
      ∧ b.terms = s.blk.terms ∧ b.trust.store = s.blk.trust.store ∧ b.trust.svnOtp = s.blk.trust.svnOtp ∧ b.led.ckpts = s.blk.led.ckpts
      ∧ b.pair = { stored := s.blk.pair.stored } ∧ b.safe.log = s.blk.safe.log ∧ b.sup.stage = 0 ∧ b.sup.good = false ∧ b.sup.dips = u.dips
    let throttled := fun (n : Nat) (b : Block) => b.sup.n = n ∧ LastEvent b .throttle [w32 n, w32 (effectiveCap b), w32 (shedStep b.sup.shed)]
    (Admitted s.blk 0x0B06 [] → Completes (.supplyLogRead h) s (fun b => Answers h .ok noDetail u.dips.flatten s.blk b))
    ∧ (q.dipAt.isSome = true ∨ railLow r.val mv.toNat = false → idle (.dipBegin r us mv))
    ∧ (q.dipAt = none → railLow r.val mv.toNat = true → q.lastEnd = none → Completes (.dipBegin r us mv) s (fun b => (rail b r.val).dipAt = some t ∧ (rail b r.val).vMin = mv.toNat
        ∧ LastEvent b .supplyWarn [w32 r.val] ∧ (isPartner s.blk = true → b.pair.inStep = false)
        ∧ b = { s.blk with sup.rails := b.sup.rails, pair.inStep := b.pair.inStep, ev := b.ev }))
    ∧ (∀ e, q.dipAt = none → railLow r.val mv.toNat = true → q.lastEnd = some e → t ≤ e + 10000 → Completes (.dipBegin r us mv) s (fun b =>
        (rail b r.val).dipAt = some q.lastBegin ∧ (rail b r.val).vMin = Nat.min q.lastMin mv.toNat ∧ b.ev = s.blk.ev))
    ∧ (q.dipAt = none ∨ railBack r.val mv.toNat = false → idle (.dipEnd r us mv))
    ∧ (∀ t0, q.dipAt = some t0 → railBack r.val mv.toNat = true → s.blk.led.heldCkpt = none →
        let w := dipRecord r.val t0 (if q.crossed = true then 2 else if q.long = true then 1 else 0) (t - t0) v
        (s.blk.prot.summitReset = false → Completes (.dipEnd r us mv) s (fun b => LastEvent b .supplyDip w ∧ b.sup.dips.getLast? = some w
          ∧ b.sup.dips.length ≤ 64 ∧ (rail b r.val).lastEnd = some t))
        ∧ (s.blk.prot.summitReset = true → Completes (.dipEnd r us mv) s (fun b => b.sup.dipsDue = u.dipsDue ++ [w] ∧ b.ev = s.blk.ev)))
    ∧ (∀ t0, q.dipAt = some t0 → q.long = false → q.crossed = false → t0 + 2000 ≤ t →
        (s.blk.pair.role = 0 → s.blk.md.mode = .follow → s.blk.md.stop = false → s.blk.md.orderly = none → s.blk.md.imm = none →
          Completes (.dip2ms r us) s (fun b => b.md.orderly = some 6 ∧ b.md.orderlyAt = now s.blk ∧ (rail b r.val).long = true))
        ∧ (isPartner s.blk = true → s.blk.pair.roleDue = none → Completes (.dip2ms r us) s (fun b =>
            LastEvent b .pairStepLost [4] ∧ b.pair.roleDue = some 4 ∧ b.md = s.blk.md))
        ∧ (covered s.blk = true → Completes (.dip2ms r us) s (fun b => b.pair.giveUp = true ∧ b.md = s.blk.md)))
    ∧ (q.dipAt = none ∨ q.long = true ∨ q.crossed = true → idle (.dip2ms r us))
    ∧ (∀ t0, q.dipAt = some t0 → t < t0 + 2000 → idle (.dip2ms r us))
    ∧ (∀ at', u.thermAt = some at' → now s.blk < at' + 100 → idle (.thermalReading cd))
    ∧ (s.blk.prot.summitReset = true → Completes (.thermalReading cd) s (fun b => b = { s.blk with sup.thermAt := b.sup.thermAt }))
    ∧ (s.blk.prot.summitReset = false → u.thermAt = none ∨ (∃ at', u.thermAt = some at' ∧ at' + 100 ≤ now s.blk) →
        (cd.toInt < -3520 ∨ 9600 < cd.toInt → 2 ≤ u.badRun → u.diodeFault = false → s.blk.md.mode = .safe → Completes (.thermalReading cd) s (fun b =>
          LastEvent b .thermDiode [ofRat u.temp 64] ∧ b.sup.diodeFault = true ∧ b.sup.temp = u.temp))
        ∧ (cd.toInt < -3520 ∨ 9600 < cd.toInt → u.badRun < 2 → Completes (.thermalReading cd) s (fun b =>
            b = { s.blk with sup := { u with badRun := u.badRun + 1, okRun := 0, thermAt := some (now s.blk) } }))
        ∧ (-3520 ≤ cd.toInt → cd.toInt ≤ 9600 → u.diodeFault = true → ok < 100 → Completes (.thermalReading cd) s (fun b =>
            b = { s.blk with sup := { u with badRun := 0, okRun := ok, thermAt := some (now s.blk) } }))
        ∧ (-3520 ≤ cd.toInt → cd.toInt ≤ 9600 → u.diodeFault = false ∨ ok = 100 → Completes (.thermalReading cd) s (fun b =>
            b.sup.temp = T ∧ b.sup.readings = l ∧ b.sup.diodeFault = false
              ∧ (u.warn = false → 6720 ≤ T → T < 7360 → LastEvent b .thermWarn [1, ofRat T 64] ∧ b.sup.warn = true)
              ∧ (u.warn = true → T < 6400 → LastEvent b .thermWarn [0, ofRat T 64] ∧ b.sup.warn = false)
              ∧ (6400 ≤ T → T < 6720 → b.sup.warn = u.warn ∧ b.ev = s.blk.ev)
              ∧ (T < 7680 → b.sup.shutdown = false ∧ b.sup.hard = false ∧ b.prot.therm66 = false)
              ∧ (8000 ≤ T → b.sup.shutdown = true) ∧ (8320 ≤ T → b.sup.hard = true ∧ b.prot.therm66 = true))))
    ∧ ((u.evalAt = none ∧ u.temp < 7360) ∨ (∃ at', u.evalAt = some at' ∧ now s.blk < at' + 99000) → idle .throttleEval)
    ∧ ((u.evalAt = none ∧ 7360 ≤ u.temp) ∨ (∃ at', u.evalAt = some at' ∧ at' + 99000 ≤ now s.blk) →
        (u.shutdown = true ∨ (7040 ≤ u.temp ∧ u.temp < 7360) ∨ (7360 ≤ u.temp ∧ capTenths s.blk = 3) →
          Completes .throttleEval s (fun b => b = { s.blk with sup.evalAt := some (now s.blk) }))
        ∧ (u.shutdown = false → 7360 ≤ u.temp → capTenths s.blk ≠ 3 → Completes .throttleEval s (throttled (u.n + 1)))
        ∧ (u.shutdown = false → u.temp < 7040 → 0 < u.n → Completes .throttleEval s (throttled (u.n - 1))))
    ∧ (s.blk.time.refOk = false ∨ s.blk.prot.summitReset = false ∨ u.fail = 2 ∨ s.blk.prot.heldFor < 100 ∨ summitRailLow s.blk = true →
        idle .summitResetRelease)
    ∧ (s.blk.prot.summitReset = false ∨ u.fail = 2 ∨ s.blk.prot.heldFor < 100 → idle (.dieRelease true))
    ∧ (s.blk.prot.summitReset = true → u.fail ≠ 2 → 100 ≤ s.blk.prot.heldFor →
        let released := fun (b : Block) => b.prot.summitReset = false ∧ b.prot.summitLost = false ∧ b.eng = [] ∧ b.chains = [] ∧ b.cells = []
          ∧ b.host.sessionOpen = false ∧ b.md.mode = .safe ∧ b.time.sec = s.blk.time.sec ∧ b.time.ns = s.blk.time.ns
          ∧ b.safe = s.blk.safe ∧ b.terms = s.blk.terms ∧ b.prot.legs = s.blk.prot.legs
        Completes (.dieRelease true) s released
          ∧ (s.blk.time.refOk = true → summitRailLow s.blk = false → Completes .summitResetRelease s released))
    ∧ (now s.blk * 10 < u.senseResetAt + 1000 → idle (.dieRelease false))
    ∧ (u.senseResetAt + 1000 ≤ now s.blk * 10 → Completes (.dieRelease false) s (fun b => b = { s.blk with sup := { u with senseReset := false } }))
    ∧ (u.good = true → idle .suppliesGood)
    ∧ (u.good = false → s.blk.trust.auth = none → s.blk.trust.trial = 0 → Completes .suppliesGood s (fun b =>
        b = { s.blk with sup := { u with good := true, patrolBank := activeBank s.blk 2 == 1 } }))
    ∧ (u.good = false ∨ u.stage ≠ 0 ∨ u.fail = 2 ∨ s.blk.prot.summitReset = true ∨ coreLocked s.blk = false → idle (.baseReached ms fl))
    ∧ (u.good = true → u.stage = 0 → u.fail ≠ 2 → s.blk.prot.summitReset = false → coreLocked s.blk = true → cfgWritten s.blk 0x81 0 = true →
        Completes (.baseReached ms fl) s (fun b => b.sup.stage = 1 ∧ b.sup.liftMs = Nat.min ms 2097151 ∧ b.sup.dipsDue = []
          ∧ b.pair.role = (if pairEn s.blk = true then 1 else 0)
          ∧ ∀ k < 36, (∀ j < 36, portUnused s.blk j = false) → (port b k).st = .train))
    ∧ (u.good = true → u.stage = 0 → u.fail ≠ 2 → s.blk.prot.summitReset = false → coreLocked s.blk = true → cfgWritten s.blk 0x81 0 = false →
        Completes (.baseReached ms fl) s (fun b => b.sup.stage = 1 ∧ b.sup.liftMs = Nat.min ms 2097151 ∧ b.trust.bus = .free
          ∧ b.sup.pcfgOk = !s.blk.prot.pcfgBad))
    ∧ (u.stage ≠ 1 ∨ u.fail = 4 → idle (.midStationReached ms fl))
    ∧ (u.stage = 1 → u.fail ≠ 4 → Completes (.midStationReached ms fl) s (fun b => b.sup.stage = 2 ∧ b.sup.liftMs = Nat.min ms 2097151))
    ∧ (u.stage = 1 → u.fail = 0 → s.blk.trust.store = [] → s.blk.host.held = [] → Completes (.midStationReached ms 0) s (fun b =>
        b.host.coachUp = true ∧ b.sup.coachOk = true ∧ b.cfg = s.blk.cfg ∧ b.eng = s.blk.eng ∧ b.ev = s.blk.ev))
    ∧ idle (.liftFail 0)
    ∧ (u.good = false ∨ 2 ≤ u.stage ∨ (f ≠ 4 ∧ u.stage ≠ 0) → idle (.liftFail f))
    ∧ (u.good = true → u.stage = 0 ∨ (f = 4 ∧ u.stage = 1) → f ≠ 0 → f ≠ 1 →
        Completes (.liftFail f) s (fun b => b.sup.fail = f.val ∧ (f = 3 → b.prot.pcfgBad = true ∧ Active b 69)
        ∧ (f = 4 → b.host.coachUp = false ∧ b.sup.coachOk = false) ∧ (f = 2 ∨ f = 5 → b.prot.summitReset = true ∧ b.prot.summitLost = true)))
    ∧ (u.good = true → u.stage = 0 →
        Completes (.liftFail 1) s (fun b => b = { s.blk with sup := { u with fail := 1, patrolBank := !u.patrolBank } }))
    ∧ (ns < 80 → idle (.resetNLow ns))
    ∧ (120 ≤ ns → Completes (.resetNLow ns) s device)
    ∧ (80 ≤ ns → ns < 120 → Completes (.resetNLow ns) s (fun b => device b ∨ b = { s.blk with free := s.blk.free + 1 }))
    ∧ (railFails r.val mv.toNat = false → idle (.railReset r us mv))
    ∧ (r.val ≤ 1 → railFails r.val mv.toNat = true → q.dipAt = none → Completes (.railReset r us mv) s (fun b => device b
        ∧ b.sup.dipsDue = u.dipsDue ++ [dipRecord r.val t 2 0 mv.toNat]))
    ∧ (2 ≤ r.val → r.val ≤ 8 → railFails r.val mv.toNat = true → s.blk.prot.summitReset = true → Completes (.railReset r us mv) s (fun b =>
        b.prot.summitReset = true ∧ b.prot.heldFor = 0 ∧ (rail b r.val).crossed = true ∧ b.ev = s.blk.ev))
    ∧ (2 ≤ r.val → r.val ≤ 8 → railFails r.val mv.toNat = true → s.blk.prot.summitReset = false → Completes (.railReset r us mv) s (fun b =>
        b.prot.summitReset = true ∧ b.prot.summitLost = true ∧ (rail b r.val).crossed = true
          ∧ (Tbl.wf {} s.blk.safe.out = true → ∀ k < 2, (Tbl.get {} b.safe.out k).armed = false)))
    ∧ (r.val = 9 ∨ r.val = 10 → railFails r.val mv.toNat = true → Completes (.railReset r us mv) s (fun b => b.sup.senseReset = true ∧ b.sense.lost = true ∧ (rail b r.val).crossed = true))
    ∧ (r.val = 11 → idle (.railReset r us mv))
    ∧ (s.blk.prot.summitReset = true ∨ s.blk.prot.sysOut = true →
        (s.blk.time.refOk = false → Completes .strideBoundary s (fun b => tai b = tai s.blk ∧ b.cfg = s.blk.cfg ∧ b.eng = s.blk.eng ∧ b.md = s.blk.md))
        ∧ (let incr := if s.blk.prot.sysOut = true then 4 * s.blk.time.incr else s.blk.time.incr
           s.blk.time.refOk = true → s.blk.time.ns < 1000000000 → s.blk.time.sub < 2 ^ 32 → 0 < s.blk.time.incr →
           incr ≤ strideLen → s.blk.time.sec + 1 < 2 ^ 64 / 100000 → Completes .strideBoundary s (fun b =>
            now b = now s.blk + 1 ∧ tai b < (now s.blk + 1) * strideLen + incr ∧ b.cfg = s.blk.cfg ∧ b.eng = s.blk.eng ∧ b.md = s.blk.md)))
    ∧ (s.blk.prot.summitReset = false → s.blk.prot.sysOut = false → Completes .strideBoundary s (fun b => ∀ i < 4,
        (Tbl.get {} b.fab.xvars (0x0A00 + i)).cur = { val := word (w64 (work b) ++ [w32 b.md.mode.code, w32 b.pair.role]) i, at? := some (work b) }))

/-- Which keys and certificates a device holds is not the model's to say (log 4). -/
def Obligations.TrustAndChange : Prop :=
  ∀ (h : Hdr) (l : List W32) (slot : BitVec 8) (bank pat ok : Bool) (B : Nat) (svn : BitVec 7) (rb : Fin 65) (ix : W32) (fl : BitVec 2)
    (ik : BitVec 8) (rv : BitVec 14) (s : State),
    let tr := s.blk.trust
    let ends := fun (i : Instr) (st : Status) (d : Nat) => Completes i s (fun b => Answers h st d [] s.blk b)
    let idle := fun (i : Instr) => Completes i s (fun b => b = s.blk)
    let img := fun (k : Nat) => stored s.blk k 0 bank.toNat
    let other := 1 - activeBank s.blk 1
    let boots := fun (k : Nat) (b : Block) =>
      let f := tr.flashFailed ||| fl
      let a := activeBank s.blk k
      activeBank b k = if f.getLsbD a = true ∧ f.getLsbD (1 - a) = false then 1 - a else a
    let kind := if pat = true then 2 else 1
    (Admitted s.blk 0x0803 [.flash] →
      (slot ≠ 0 → ends (.imageWrite h 1 slot l) .badArg 0) ∧ ends (.imageWrite h 0 slot l) .badArg 0
      ∧ (feature s.blk 9 = true → tr.flashFailed.getLsbD other = true → ends (.imageWrite h 1 0 l) .flashFault noDetail)
      ∧ (feature s.blk 9 = true → tr.flashFailed = 0 →
        (verifyImage s.blk 1 l = 0 → Completes (.imageWrite h 1 0 l) s (fun b => b = { s.blk with host.waiting :=
          s.blk.host.waiting ++ [{ h := h, op := 0x0803, objs := [.flash], data := w32 1 :: w32 0 :: l, since := now s.blk }] }))
        ∧ (verifyImage s.blk 1 l ≠ 0 → Completes (.imageWrite h 1 0 l) s (fun b => Answered h .imageBad noDetail [] b
            ∧ LastEvent b .imageRejected [1, w32 other, w32 (verifyImage s.blk 1 l)]))
        ∧ (atRest s.blk = false → ends (.imageWrite h 3 0 l) .wrongMode noDetail)))
    ∧ (∀ w : Waiting, s.blk.host.waiting = [w] → w.op = 0x0803 → w.data = w32 1 :: w32 0 :: l → flashHeld s.blk = false →
        Completes (.flashWriteDone .image true 0) s (fun b => Answered w.h .ok noDetail [] b ∧ b.host.waiting = []
          ∧ stored b 1 0 other = { valid := true, reason := 0, words := l } ∧ LastEvent b .imageWritten (([1, w32 other] ++ measurement l).take 12))
        ∧ Completes (.flashWriteDone .image false fl) s (fun b => Answered w.h .flashFault noDetail [] b ∧ b.host.waiting = []
          ∧ LastEvent b .imageRejected [1, w32 other, 8] ∧ b.trust.flashFailed = tr.flashFailed ||| fl))
    ∧ (s.blk.host.waiting = [] → Completes (.flashWriteDone .config ok fl) s (fun b =>
        b = { s.blk with trust := { tr with flashFailed := tr.flashFailed ||| fl } }))
    ∧ (Admitted s.blk 0x0804 [] →
        (rv ≠ 0 → ends (.imageActivate h ik bank rv B) .badArg 0 ∧ ends (.imageConfirm h ik rv) .badArg 0)
        ∧ ends (.imageActivate h 3 bank 0 B) .badArg 0
        ∧ ((img 4).valid = false → ends (.imageActivate h 4 bank 0 B) .notReady noDetail)
        ∧ ((img 4).valid = true → versionOk s.blk 4 (img 4).words = true → atRest s.blk = false → ends (.imageActivate h 4 bank 0 B) .wrongMode noDetail)
        ∧ ((img 4).valid = true → versionOk s.blk 4 (img 4).words = true → atRest s.blk = true → Completes (.imageActivate h 4 bank 0 B) s (fun b =>
            activeBank b 4 = bank.toNat ∧ Answered h .ok noDetail [] b ∧ LastEvent b .imageActivated ([4, w32 bank.toNat] ++ w64 0 ++ [0, 0])))
        ∧ ((img 4).valid = true → versionOk s.blk 4 (img 4).words = false → Completes (.imageActivate h 4 bank 0 B) s (fun b =>
            Answered h .notReady noDetail [] b ∧ LastEvent b .imageRejected [4, w32 bank.toNat, 5] ∧ b.trust = tr))
        ∧ ((img 1).valid = true → versionOk s.blk 1 (img 1).words = true → Completes (.imageActivate h 1 bank 0 B) s (fun b =>
            activeBank b 1 = bank.toNat ∧ trialOf b 1 = true ∧ b.host.coachUp = false ∧ b.host.restarts = satInc 255 s.blk.host.restarts
              ∧ LastEvent b .imageActivated ([1, w32 bank.toNat] ++ w64 0 ++ [1, 0])))
        ∧ (trialOf s.blk 1 = false → ends (.imageConfirm h 1 0) .notReady noDetail)
        ∧ (trialOf s.blk 1 = true → s.blk.host.coachUp = true → s.blk.sup.coachBank = (activeBank s.blk 1 == 1) → Completes (.imageConfirm h 1 0) s (fun b =>
            trialOf b 1 = false ∧ activeBank b 1 = activeBank s.blk 1 ∧ Answered h .ok noDetail [] b
              ∧ LastEvent b .imageActivated ([1, w32 (activeBank s.blk 1)] ++ w64 0 ++ [0, 1]))))
    ∧ (Admitted s.blk 0x0804 [.flash] →
        let fit := [1, 2, 4].all fun k => [0, 1].all fun d => (stored s.blk k 0 d).valid && decide (svn.toNat ≤ iSvn (stored s.blk k 0 d).words)
        let n := Nat.max tr.svnOtp (Nat.min svn.toNat rb.val)
        (rv ≠ 0 → ends (.svnCommit h svn rv rb) .badArg 0)
        ∧ (svn.toNat ≤ tr.svnOtp ∨ 64 < svn.toNat → ends (.svnCommit h svn 0 rb) .badArg 0)
        ∧ (tr.svnOtp < svn.toNat → svn.toNat ≤ 64 → atRest s.blk = false ∨ flashHeld s.blk = true ∨ fit = false → ends (.svnCommit h svn 0 rb) .notReady noDetail)
        ∧ (tr.svnOtp < svn.toNat → svn.toNat ≤ 64 → atRest s.blk = true → flashHeld s.blk = false → fit = true → Completes (.svnCommit h svn 0 rb) s (fun b =>
            b.trust = { tr with svnOtp := n } ∧ tr.svnOtp ≤ b.trust.svnOtp ∧ LastEvent b .svnAdvanced [w32 tr.svnOtp, w32 n]
              ∧ Answered h (if n < svn.toNat then .flashFault else .ok) noDetail [] b)))
    ∧ (Admitted s.blk 0x0805 [] → ends (.imageStatus h 0) .badArg 0
        ∧ Completes (.imageStatus h 4) s (fun b => Answers h .ok noDetail (w32 tr.svnOtp :: (imageEntry s.blk 4 0 0 ++ imageEntry s.blk 4 0 1)) s.blk b))
    ∧ (Admitted s.blk 0x0901 [] → (l.length ≠ 16 → ends (.attestReport h l) .badArg noDetail)
        ∧ (l.length = 16 → Completes (.attestReport h l) s (fun b => Answers h .ok noDetail
            (attestBody l s.blk ++ signWords (attestBody l s.blk)) s.blk b)))
    ∧ (Admitted s.blk 0x0902 [] → (2 < ix.toNat → ends (.certRead h ix) .badArg 0)
        ∧ (ix.toNat ≤ 2 → Completes (.certRead h ix) s (fun b => Answers h .ok noDetail (Config.certificate ix.toNat) s.blk b)))
    ∧ (Admitted s.blk 0x0903 [] →
        Completes (.debugChallenge h) s (fun b => ∃ c, c.length = 8 ∧ b.trust = { tr with challenge := some (c, now s.blk + 30000000) }
          ∧ Answered h .ok noDetail c b)
        ∧ (verifyImage s.blk 8 l ≠ 0 → Completes (.debugAuthorize h l) s (fun b => Answered h .imageBad noDetail [] b ∧ b.trust = tr
            ∧ LastEvent b .imageRejected [8, 0, w32 (verifyImage s.blk 8 l)]))
        ∧ (verifyImage s.blk 8 l = 0 →
            let t := (sectionOf l 7).getD []
            let sc := bits (word t 8) 31 29
            (sc.testBit 2 = true → s.blk.md.mode ≠ .service → ends (.debugAuthorize h l) .wrongMode noDetail)
            ∧ (sc.testBit 2 = false ∨ s.blk.md.mode = .service → Completes (.debugAuthorize h l) s (fun b => Answered h .ok noDetail [] b
                ∧ b.trust = { tr with challenge := none, auth := some { scope := sc, endAt := now s.blk + bits (word t 8) 28 12 * 100000 } }
                ∧ b.safe.degr.getLsbD 7 = true ∧ LastEvent b .debugOn ([w32 sc, w32 (bits (word t 8) 28 12)] ++ iKeyId l)))))
    ∧ (Admitted s.blk 0x0904 [] → (tr.auth = none → ends (.debugRevoke h) .ok noDetail)
        ∧ (tr.auth.isSome = true → Completes (.debugRevoke h) s (fun b => Answered h .ok noDetail [] b ∧ b.trust.auth = none
            ∧ b.safe.degr.getLsbD 7 = false ∧ LastEvent b .debugOff [2])))
    ∧ (tr.auth = none → idle .debugExpiry)
    ∧ (∀ a, tr.auth = some a → (now s.blk < a.endAt → idle .debugExpiry)
        ∧ (a.endAt ≤ now s.blk → Completes .debugExpiry s (fun b => b.trust.auth = none ∧ b.safe.degr.getLsbD 7 = false ∧ LastEvent b .debugOff [1])))
    ∧ (s.blk.host.coachUp = false → idle .coachLockstepMismatch)
    ∧ (s.blk.host.coachUp = true → Completes .coachLockstepMismatch s (fun b => b.host.coachUp = false
        ∧ b.host.restarts = satInc 255 s.blk.host.restarts ∧ b.host.waiting = [] ∧ trialOf b 1 = false
        ∧ (trialOf s.blk 1 = true → activeBank b 1 = other ∧ LastEvent b .imageReverted [1, w32 other, 1])))
    ∧ (s.blk.host.coachUp = true → idle (.coachRestartDone fl))
    ∧ (s.blk.host.coachUp = false → s.blk.host.held = [] → Completes (.coachRestartDone fl) s (fun b => b.host.coachUp = true
        ∧ LastEvent b .coachRestart [w32 (activeBank b 1)] ∧ b.sup.coachBank = (activeBank b 1 == 1) ∧ b.trust.bus = .coach
        ∧ b.trust.flashFailed = tr.flashFailed ||| fl ∧ boots 1 b))
    ∧ (flashHeld s.blk = false → idle .flashWaitTimeout)
    ∧ (∀ w : Waiting, flashHeld s.blk = true → s.blk.host.waiting = [w] → w.objs = [.flash] →
        (now s.blk < Nat.max w.since (dipStride s.blk) + 100000 → idle .flashWaitTimeout)
        ∧ (Nat.max w.since (dipStride s.blk) + 100000 ≤ now s.blk → Completes .flashWaitTimeout s (fun b =>
            Answered w.h .supplyLow noDetail [] b ∧ b.host.waiting = [] ∧ b.trust = tr)))
    ∧ (trialOf s.blk kind = false ∨ now s.blk < Tbl.get 0 tr.trialAt kind + 60000000 → idle (.trialTimeout pat))
    ∧ (trialOf s.blk 1 = true → Tbl.get 0 tr.trialAt 1 + 60000000 ≤ now s.blk → Completes (.trialTimeout false) s (fun b =>
        trialOf b 1 = false ∧ activeBank b 1 = other ∧ b.host.coachUp = false ∧ LastEvent b .imageReverted [1, w32 other, 2]))
    ∧ (s.blk.prot.restartAt = none → idle (.patrolRestartDone fl))
    ∧ (s.blk.prot.restartAt.isSome = true → Completes (.patrolRestartDone fl) s (fun b => b.prot.restartAt = none
        ∧ b.sup.patrolBank = (activeBank b 2 == 1) ∧ b.trust.bus ≠ .patrol ∧ b.trust.flashFailed = tr.flashFailed ||| fl ∧ boots 2 b))
    ∧ (s.blk.sup.fail ≠ 4 → idle (.recoveryImageWrite h l))
    ∧ (s.blk.sup.fail = 4 → verifyImage s.blk 1 l = 0 → Completes (.recoveryImageWrite h l) s (fun b => Answered h .ok noDetail [] b
        ∧ b.sup.fail = 0 ∧ b.host.coachUp = true ∧ (∀ d < 2, stored b 1 0 d = { valid := true, reason := 0, words := l }) ∧ LastEvent b .liftFail [4]))
    ∧ (s.blk.sup.fail = 4 → verifyImage s.blk 1 l ≠ 0 → Completes (.recoveryImageWrite h l) s (fun b => Answered h .imageBad noDetail [] b
        ∧ b.trust = tr ∧ b.sup = s.blk.sup ∧ LastEvent b .imageRejected [1, 0, w32 (verifyImage s.blk 1 l)]))
    ∧ (tr.auth = none → s.pending = [] → ∃ b, step s = .next { s with blk := b }
        ∧ (∀ c, b.dbg.insn = .opened c → s.blk.dbg.insn = .opened c) ∧ (s.blk.sup.stage = 0 → b.dbg = s.blk.dbg))

/-- Every step keeps the tables of cells canonical, and no mailbox BUSY and DONE at once -/
def Obligations.StepKeepsForm : Prop :=
  ∀ s t : State, Canonical s → MailboxesApart s → step s = .next t → Canonical t ∧ MailboxesApart t

/-- A cell obeys BLOCK whatever bib it has heard, and when it has heard none -/
def Obligations.BlockWhateverTheBib : Prop :=
  ∀ (n : Fin 2048) (octet : BitVec 8) (heard : List (Nat × Nat)) (s : State), isBlockOctet octet = true →
    (term s.blk n.val).ladder ≠ .blocked →
    Completes (.cellBlock n octet) { s with blk := onTerm n.val (fun c => { c with bibs := heard }) s.blk } (fun b =>
      (term b n.val).ladder = .blocked ∧ (term b n.val).blockCause = 1 ∧ (term b n.val).sw = 0
        ∧ (term b n.val).localRun = false ∧ (term b n.val).lists = [] ∧ (term b n.val).bibs = heard)

/-- While LOCK_CAL is set, CFG_WRITE of calibration data ends with ST_NOT_READY -/
def Obligations.LockCalRefusesCalibration : Prop :=
  ∀ (h : Hdr) (st ix : Nat) (w lo hi : W32) (l : List W32) (s : State), st ∈ [0x0B, 0x0C, 0x0D, 0x0E, 0x1C, 0x1D] →
    bits w 31 24 = st → bits w 23 8 = ix → Admitted s.blk 0x0101 [.cfg st ix] → lockCal s.blk = true →
    (bits w 7 0 = 0 → ix < cfgCount st → l.length = cfgWords st → s.blk.pair.role ≠ 3 →
      join64 lo hi = 0 ∨ checkBoundary s.blk (join64 lo hi) = none →
      Completes (.cfgWrite h (w :: lo :: hi :: l)) s (fun b => Answers h .notReady noDetail [] s.blk b))
    ∧ ∃ x d, x ≠ Status.ok ∧ Completes (.cfgWrite h (w :: lo :: hi :: l)) s (fun b => Answers h x d [] s.blk b)
end

