-- ==== Sys2Proof/Laws/State.lean ====
section
/-! SUPPORT. One lemma per field of the block per update: what each shared update leaves as it was, so that no proof
unfolds a record update. -/

namespace Sys2Proof.Machine

variable (b : Block) (n m k c d v' : Nat) (v : W32) (l : List W32) (e : Ev) (h : Hdr) (st : Status) (a : Action)
  (fe : Engine → Engine) (fc : Chain → Chain) (fh : HubCell → HubCell) (ft : CellTerm → CellTerm) (fp : Port → Port)
  (fs : Side → Side) (fl : Leg → Leg) (fo : Comp → Comp) (fd : Drive → Drive) (fk : Chop → Chop) (fg : Goose → Goose)
  (fu : SafeOut → SafeOut) (fr : Rail → Rail) (fi : TimeSrc → TimeSrc) (fy : Synth → Synth) (fb : LedCell → LedCell)
  (fv : SlCell → SlCell)

/-! ### raiseCode -/
@[simp] theorem raiseCode_host : (raiseCode c l b).host = b.host := rfl
@[simp] theorem raiseCode_cfg : (raiseCode c l b).cfg = b.cfg := rfl
@[simp] theorem raiseCode_staged : (raiseCode c l b).staged = b.staged := rfl
@[simp] theorem raiseCode_nextCfg : (raiseCode c l b).nextCfg = b.nextCfg := rfl
@[simp] theorem raiseCode_time : (raiseCode c l b).time = b.time := rfl
@[simp] theorem raiseCode_synth : (raiseCode c l b).synth = b.synth := rfl
@[simp] theorem raiseCode_net : (raiseCode c l b).net = b.net := rfl
@[simp] theorem raiseCode_sup : (raiseCode c l b).sup = b.sup := rfl
@[simp] theorem raiseCode_sense : (raiseCode c l b).sense = b.sense := rfl
@[simp] theorem raiseCode_pmu : (raiseCode c l b).pmu = b.pmu := rfl
@[simp] theorem raiseCode_tw : (raiseCode c l b).tw = b.tw := rfl
@[simp] theorem raiseCode_recd : (raiseCode c l b).recd = b.recd := rfl
@[simp] theorem raiseCode_snaps : (raiseCode c l b).snaps = b.snaps := rfl
@[simp] theorem raiseCode_prot : (raiseCode c l b).prot = b.prot := rfl
@[simp] theorem raiseCode_md : (raiseCode c l b).md = b.md := rfl
@[simp] theorem raiseCode_safe : (raiseCode c l b).safe = b.safe := rfl
@[simp] theorem raiseCode_pair : (raiseCode c l b).pair = b.pair := rfl
@[simp] theorem raiseCode_trust : (raiseCode c l b).trust = b.trust := rfl
@[simp] theorem raiseCode_eng : (raiseCode c l b).eng = b.eng := rfl
@[simp] theorem raiseCode_fab : (raiseCode c l b).fab = b.fab := rfl
@[simp] theorem raiseCode_ports : (raiseCode c l b).ports = b.ports := rfl
@[simp] theorem raiseCode_chains : (raiseCode c l b).chains = b.chains := rfl
@[simp] theorem raiseCode_cells : (raiseCode c l b).cells = b.cells := rfl
@[simp] theorem raiseCode_terms : (raiseCode c l b).terms = b.terms := rfl
@[simp] theorem raiseCode_image : (raiseCode c l b).image = b.image := rfl
@[simp] theorem raiseCode_slal : (raiseCode c l b).slal = b.slal := rfl
@[simp] theorem raiseCode_led : (raiseCode c l b).led = b.led := rfl
@[simp] theorem raiseCode_ring : (raiseCode c l b).ring = b.ring := rfl
@[simp] theorem raiseCode_dbg : (raiseCode c l b).dbg = b.dbg := rfl
@[simp] theorem raiseCode_free : (raiseCode c l b).free = b.free := rfl

/-! ### raise -/
@[simp] theorem raise_host : (raise e l b).host = b.host := rfl
@[simp] theorem raise_cfg : (raise e l b).cfg = b.cfg := rfl
@[simp] theorem raise_staged : (raise e l b).staged = b.staged := rfl
@[simp] theorem raise_nextCfg : (raise e l b).nextCfg = b.nextCfg := rfl
@[simp] theorem raise_time : (raise e l b).time = b.time := rfl
@[simp] theorem raise_synth : (raise e l b).synth = b.synth := rfl
@[simp] theorem raise_net : (raise e l b).net = b.net := rfl
@[simp] theorem raise_sup : (raise e l b).sup = b.sup := rfl
@[simp] theorem raise_sense : (raise e l b).sense = b.sense := rfl
@[simp] theorem raise_pmu : (raise e l b).pmu = b.pmu := rfl
@[simp] theorem raise_tw : (raise e l b).tw = b.tw := rfl
@[simp] theorem raise_recd : (raise e l b).recd = b.recd := rfl
@[simp] theorem raise_snaps : (raise e l b).snaps = b.snaps := rfl
@[simp] theorem raise_prot : (raise e l b).prot = b.prot := rfl
@[simp] theorem raise_md : (raise e l b).md = b.md := rfl
@[simp] theorem raise_safe : (raise e l b).safe = b.safe := rfl
@[simp] theorem raise_pair : (raise e l b).pair = b.pair := rfl
@[simp] theorem raise_trust : (raise e l b).trust = b.trust := rfl
@[simp] theorem raise_eng : (raise e l b).eng = b.eng := rfl
@[simp] theorem raise_fab : (raise e l b).fab = b.fab := rfl
@[simp] theorem raise_ports : (raise e l b).ports = b.ports := rfl
@[simp] theorem raise_chains : (raise e l b).chains = b.chains := rfl
@[simp] theorem raise_cells : (raise e l b).cells = b.cells := rfl
@[simp] theorem raise_terms : (raise e l b).terms = b.terms := rfl
@[simp] theorem raise_image : (raise e l b).image = b.image := rfl
@[simp] theorem raise_slal : (raise e l b).slal = b.slal := rfl
@[simp] theorem raise_led : (raise e l b).led = b.led := rfl
@[simp] theorem raise_ring : (raise e l b).ring = b.ring := rfl
@[simp] theorem raise_dbg : (raise e l b).dbg = b.dbg := rfl
@[simp] theorem raise_free : (raise e l b).free = b.free := rfl

/-! ### recNote -/
@[simp] theorem recNote_host : (recNote k d b).host = b.host := rfl
@[simp] theorem recNote_ev : (recNote k d b).ev = b.ev := rfl
@[simp] theorem recNote_cfg : (recNote k d b).cfg = b.cfg := rfl
@[simp] theorem recNote_staged : (recNote k d b).staged = b.staged := rfl
@[simp] theorem recNote_nextCfg : (recNote k d b).nextCfg = b.nextCfg := rfl
@[simp] theorem recNote_time : (recNote k d b).time = b.time := rfl
@[simp] theorem recNote_synth : (recNote k d b).synth = b.synth := rfl
@[simp] theorem recNote_net : (recNote k d b).net = b.net := rfl
@[simp] theorem recNote_sup : (recNote k d b).sup = b.sup := rfl
@[simp] theorem recNote_sense : (recNote k d b).sense = b.sense := rfl
@[simp] theorem recNote_pmu : (recNote k d b).pmu = b.pmu := rfl
@[simp] theorem recNote_tw : (recNote k d b).tw = b.tw := rfl
@[simp] theorem recNote_recd_openRecs : (recNote k d b).recd.openRecs = b.recd.openRecs := rfl
@[simp] theorem recNote_recd_closing : (recNote k d b).recd.closing = b.recd.closing := rfl
@[simp] theorem recNote_recd_store : (recNote k d b).recd.store = b.recd.store := rfl
@[simp] theorem recNote_recd_nextId : (recNote k d b).recd.nextId = b.recd.nextId := rfl
@[simp] theorem recNote_recd_quiet : (recNote k d b).recd.quiet = b.recd.quiet := rfl
@[simp] theorem recNote_recd_trigAt : (recNote k d b).recd.trigAt = b.recd.trigAt := rfl
@[simp] theorem recNote_snaps : (recNote k d b).snaps = b.snaps := rfl
@[simp] theorem recNote_prot : (recNote k d b).prot = b.prot := rfl
@[simp] theorem recNote_md : (recNote k d b).md = b.md := rfl
@[simp] theorem recNote_safe : (recNote k d b).safe = b.safe := rfl
@[simp] theorem recNote_pair : (recNote k d b).pair = b.pair := rfl
@[simp] theorem recNote_trust : (recNote k d b).trust = b.trust := rfl
@[simp] theorem recNote_eng : (recNote k d b).eng = b.eng := rfl
@[simp] theorem recNote_fab : (recNote k d b).fab = b.fab := rfl
@[simp] theorem recNote_ports : (recNote k d b).ports = b.ports := rfl
@[simp] theorem recNote_chains : (recNote k d b).chains = b.chains := rfl
@[simp] theorem recNote_cells : (recNote k d b).cells = b.cells := rfl
@[simp] theorem recNote_terms : (recNote k d b).terms = b.terms := rfl
@[simp] theorem recNote_image : (recNote k d b).image = b.image := rfl
@[simp] theorem recNote_slal : (recNote k d b).slal = b.slal := rfl
@[simp] theorem recNote_led : (recNote k d b).led = b.led := rfl
@[simp] theorem recNote_ring : (recNote k d b).ring = b.ring := rfl
@[simp] theorem recNote_dbg : (recNote k d b).dbg = b.dbg := rfl
@[simp] theorem recNote_free : (recNote k d b).free = b.free := rfl

/-! ### msix -/
@[simp] theorem msix_host_req : (msix v' b).host.req = b.host.req := rfl
@[simp] theorem msix_host_wdogTrip : (msix v' b).host.wdogTrip = b.host.wdogTrip := rfl
@[simp] theorem msix_host_linkTrip : (msix v' b).host.linkTrip = b.host.linkTrip := rfl
@[simp] theorem msix_host_badKey : (msix v' b).host.badKey = b.host.badKey := rfl
@[simp] theorem msix_host_wdogPeriod : (msix v' b).host.wdogPeriod = b.host.wdogPeriod := rfl
@[simp] theorem msix_host_linkArm : (msix v' b).host.linkArm = b.host.linkArm := rfl
@[simp] theorem msix_host_kicks : (msix v' b).host.kicks = b.host.kicks := rfl
@[simp] theorem msix_host_kickAt : (msix v' b).host.kickAt = b.host.kickAt := rfl
@[simp] theorem msix_host_requests : (msix v' b).host.requests = b.host.requests := rfl
@[simp] theorem msix_host_responses : (msix v' b).host.responses = b.host.responses := rfl
@[simp] theorem msix_host_busy : (msix v' b).host.busy = b.host.busy := rfl
@[simp] theorem msix_host_done : (msix v' b).host.done = b.host.done := rfl
@[simp] theorem msix_host_held : (msix v' b).host.held = b.host.held := rfl
@[simp] theorem msix_host_coachUp : (msix v' b).host.coachUp = b.host.coachUp := rfl
@[simp] theorem msix_host_restarts : (msix v' b).host.restarts = b.host.restarts := rfl
@[simp] theorem msix_host_dbErr : (msix v' b).host.dbErr = b.host.dbErr := rfl
@[simp] theorem msix_host_sessionOpen : (msix v' b).host.sessionOpen = b.host.sessionOpen := rfl
@[simp] theorem msix_host_sessionAccepted : (msix v' b).host.sessionAccepted = b.host.sessionAccepted := rfl
@[simp] theorem msix_host_sessionId : (msix v' b).host.sessionId = b.host.sessionId := rfl
@[simp] theorem msix_host_hostVer : (msix v' b).host.hostVer = b.host.hostVer := rfl
@[simp] theorem msix_host_features : (msix v' b).host.features = b.host.features := rfl
@[simp] theorem msix_host_evBaseLo : (msix v' b).host.evBaseLo = b.host.evBaseLo := rfl
@[simp] theorem msix_host_evBaseHi : (msix v' b).host.evBaseHi = b.host.evBaseHi := rfl
@[simp] theorem msix_host_evEn : (msix v' b).host.evEn = b.host.evEn := rfl
@[simp] theorem msix_host_evFull : (msix v' b).host.evFull = b.host.evFull := rfl
@[simp] theorem msix_host_coalN : (msix v' b).host.coalN = b.host.coalN := rfl
@[simp] theorem msix_host_coalT : (msix v' b).host.coalT = b.host.coalT := rfl
@[simp] theorem msix_host_log2N : (msix v' b).host.log2N = b.host.log2N := rfl
@[simp] theorem msix_host_head : (msix v' b).host.head = b.host.head := rfl
@[simp] theorem msix_host_tail : (msix v' b).host.tail = b.host.tail := rfl
@[simp] theorem msix_host_phase : (msix v' b).host.phase = b.host.phase := rfl
@[simp] theorem msix_host_unsignalled : (msix v' b).host.unsignalled = b.host.unsignalled := rfl
@[simp] theorem msix_host_unsigAt : (msix v' b).host.unsigAt = b.host.unsigAt := rfl
@[simp] theorem msix_host_dmaOut : (msix v' b).host.dmaOut = b.host.dmaOut := rfl
@[simp] theorem msix_host_ringOut : (msix v' b).host.ringOut = b.host.ringOut := rfl
@[simp] theorem msix_host_channels : (msix v' b).host.channels = b.host.channels := rfl
@[simp] theorem msix_host_bulkWait : (msix v' b).host.bulkWait = b.host.bulkWait := rfl
@[simp] theorem msix_host_waiting : (msix v' b).host.waiting = b.host.waiting := rfl
@[simp] theorem msix_host_actions : (msix v' b).host.actions = b.host.actions := rfl
@[simp] theorem msix_host_hostVars : (msix v' b).host.hostVars = b.host.hostVars := rfl
@[simp] theorem msix_ev : (msix v' b).ev = b.ev := rfl
@[simp] theorem msix_cfg : (msix v' b).cfg = b.cfg := rfl
@[simp] theorem msix_staged : (msix v' b).staged = b.staged := rfl
@[simp] theorem msix_nextCfg : (msix v' b).nextCfg = b.nextCfg := rfl
@[simp] theorem msix_time : (msix v' b).time = b.time := rfl
@[simp] theorem msix_synth : (msix v' b).synth = b.synth := rfl
@[simp] theorem msix_net : (msix v' b).net = b.net := rfl
@[simp] theorem msix_sup : (msix v' b).sup = b.sup := rfl
@[simp] theorem msix_sense : (msix v' b).sense = b.sense := rfl
@[simp] theorem msix_pmu : (msix v' b).pmu = b.pmu := rfl
@[simp] theorem msix_tw : (msix v' b).tw = b.tw := rfl
@[simp] theorem msix_recd : (msix v' b).recd = b.recd := rfl
@[simp] theorem msix_snaps : (msix v' b).snaps = b.snaps := rfl
@[simp] theorem msix_prot : (msix v' b).prot = b.prot := rfl
@[simp] theorem msix_md : (msix v' b).md = b.md := rfl
@[simp] theorem msix_safe : (msix v' b).safe = b.safe := rfl
@[simp] theorem msix_pair : (msix v' b).pair = b.pair := rfl
@[simp] theorem msix_trust : (msix v' b).trust = b.trust := rfl
@[simp] theorem msix_eng : (msix v' b).eng = b.eng := rfl
@[simp] theorem msix_fab : (msix v' b).fab = b.fab := rfl
@[simp] theorem msix_ports : (msix v' b).ports = b.ports := rfl
@[simp] theorem msix_chains : (msix v' b).chains = b.chains := rfl
@[simp] theorem msix_cells : (msix v' b).cells = b.cells := rfl
@[simp] theorem msix_terms : (msix v' b).terms = b.terms := rfl
@[simp] theorem msix_image : (msix v' b).image = b.image := rfl
@[simp] theorem msix_slal : (msix v' b).slal = b.slal := rfl
@[simp] theorem msix_led : (msix v' b).led = b.led := rfl
@[simp] theorem msix_ring : (msix v' b).ring = b.ring := rfl
@[simp] theorem msix_dbg : (msix v' b).dbg = b.dbg := rfl
@[simp] theorem msix_free : (msix v' b).free = b.free := rfl

/-! ### complete -/
@[simp] theorem complete_host_req : (complete h st d l b).host.req = b.host.req := rfl
@[simp] theorem complete_host_wdogTrip : (complete h st d l b).host.wdogTrip = b.host.wdogTrip := rfl
@[simp] theorem complete_host_linkTrip : (complete h st d l b).host.linkTrip = b.host.linkTrip := rfl
@[simp] theorem complete_host_badKey : (complete h st d l b).host.badKey = b.host.badKey := rfl
@[simp] theorem complete_host_wdogPeriod : (complete h st d l b).host.wdogPeriod = b.host.wdogPeriod := rfl
@[simp] theorem complete_host_linkArm : (complete h st d l b).host.linkArm = b.host.linkArm := rfl
@[simp] theorem complete_host_kicks : (complete h st d l b).host.kicks = b.host.kicks := rfl
@[simp] theorem complete_host_kickAt : (complete h st d l b).host.kickAt = b.host.kickAt := rfl
@[simp] theorem complete_host_requests : (complete h st d l b).host.requests = b.host.requests := rfl
@[simp] theorem complete_host_held : (complete h st d l b).host.held = b.host.held := rfl
@[simp] theorem complete_host_coachUp : (complete h st d l b).host.coachUp = b.host.coachUp := rfl
@[simp] theorem complete_host_restarts : (complete h st d l b).host.restarts = b.host.restarts := rfl
@[simp] theorem complete_host_dbErr : (complete h st d l b).host.dbErr = b.host.dbErr := rfl
@[simp] theorem complete_host_sessionOpen : (complete h st d l b).host.sessionOpen = b.host.sessionOpen := rfl
@[simp] theorem complete_host_sessionAccepted : (complete h st d l b).host.sessionAccepted = b.host.sessionAccepted := rfl
@[simp] theorem complete_host_sessionId : (complete h st d l b).host.sessionId = b.host.sessionId := rfl
@[simp] theorem complete_host_hostVer : (complete h st d l b).host.hostVer = b.host.hostVer := rfl
@[simp] theorem complete_host_features : (complete h st d l b).host.features = b.host.features := rfl
@[simp] theorem complete_host_evBaseLo : (complete h st d l b).host.evBaseLo = b.host.evBaseLo := rfl
@[simp] theorem complete_host_evBaseHi : (complete h st d l b).host.evBaseHi = b.host.evBaseHi := rfl
@[simp] theorem complete_host_evEn : (complete h st d l b).host.evEn = b.host.evEn := rfl
@[simp] theorem complete_host_evFull : (complete h st d l b).host.evFull = b.host.evFull := rfl
@[simp] theorem complete_host_coalN : (complete h st d l b).host.coalN = b.host.coalN := rfl
@[simp] theorem complete_host_coalT : (complete h st d l b).host.coalT = b.host.coalT := rfl
@[simp] theorem complete_host_log2N : (complete h st d l b).host.log2N = b.host.log2N := rfl
@[simp] theorem complete_host_head : (complete h st d l b).host.head = b.host.head := rfl
@[simp] theorem complete_host_tail : (complete h st d l b).host.tail = b.host.tail := rfl
@[simp] theorem complete_host_phase : (complete h st d l b).host.phase = b.host.phase := rfl
@[simp] theorem complete_host_unsignalled : (complete h st d l b).host.unsignalled = b.host.unsignalled := rfl
@[simp] theorem complete_host_unsigAt : (complete h st d l b).host.unsigAt = b.host.unsigAt := rfl
@[simp] theorem complete_host_dmaOut : (complete h st d l b).host.dmaOut = b.host.dmaOut := rfl
@[simp] theorem complete_host_ringOut : (complete h st d l b).host.ringOut = b.host.ringOut := rfl
@[simp] theorem complete_host_channels : (complete h st d l b).host.channels = b.host.channels := rfl
@[simp] theorem complete_host_bulkWait : (complete h st d l b).host.bulkWait = b.host.bulkWait := rfl
@[simp] theorem complete_host_waiting : (complete h st d l b).host.waiting = b.host.waiting := rfl
@[simp] theorem complete_host_actions : (complete h st d l b).host.actions = b.host.actions := rfl
@[simp] theorem complete_host_hostVars : (complete h st d l b).host.hostVars = b.host.hostVars := rfl
@[simp] theorem complete_ev : (complete h st d l b).ev = b.ev := rfl
@[simp] theorem complete_cfg : (complete h st d l b).cfg = b.cfg := rfl
@[simp] theorem complete_staged : (complete h st d l b).staged = b.staged := rfl
@[simp] theorem complete_nextCfg : (complete h st d l b).nextCfg = b.nextCfg := rfl
@[simp] theorem complete_time : (complete h st d l b).time = b.time := rfl
@[simp] theorem complete_synth : (complete h st d l b).synth = b.synth := rfl
@[simp] theorem complete_net : (complete h st d l b).net = b.net := rfl
@[simp] theorem complete_sup : (complete h st d l b).sup = b.sup := rfl
@[simp] theorem complete_sense : (complete h st d l b).sense = b.sense := rfl
@[simp] theorem complete_pmu : (complete h st d l b).pmu = b.pmu := rfl
@[simp] theorem complete_tw : (complete h st d l b).tw = b.tw := rfl
@[simp] theorem complete_recd : (complete h st d l b).recd = b.recd := rfl
@[simp] theorem complete_snaps : (complete h st d l b).snaps = b.snaps := rfl
@[simp] theorem complete_prot : (complete h st d l b).prot = b.prot := rfl
@[simp] theorem complete_md : (complete h st d l b).md = b.md := rfl
@[simp] theorem complete_safe : (complete h st d l b).safe = b.safe := rfl
@[simp] theorem complete_pair : (complete h st d l b).pair = b.pair := rfl
@[simp] theorem complete_trust : (complete h st d l b).trust = b.trust := rfl
@[simp] theorem complete_eng : (complete h st d l b).eng = b.eng := rfl
@[simp] theorem complete_fab : (complete h st d l b).fab = b.fab := rfl
@[simp] theorem complete_ports : (complete h st d l b).ports = b.ports := rfl
@[simp] theorem complete_chains : (complete h st d l b).chains = b.chains := rfl
@[simp] theorem complete_cells : (complete h st d l b).cells = b.cells := rfl
@[simp] theorem complete_terms : (complete h st d l b).terms = b.terms := rfl
@[simp] theorem complete_image : (complete h st d l b).image = b.image := rfl
@[simp] theorem complete_slal : (complete h st d l b).slal = b.slal := rfl
@[simp] theorem complete_led : (complete h st d l b).led = b.led := rfl
@[simp] theorem complete_ring : (complete h st d l b).ring = b.ring := rfl
@[simp] theorem complete_dbg : (complete h st d l b).dbg = b.dbg := rfl
@[simp] theorem complete_free : (complete h st d l b).free = b.free := rfl

/-! ### addAction -/
@[simp] theorem addAction_host_req : (addAction a b).host.req = b.host.req := rfl
@[simp] theorem addAction_host_wdogTrip : (addAction a b).host.wdogTrip = b.host.wdogTrip := rfl
@[simp] theorem addAction_host_linkTrip : (addAction a b).host.linkTrip = b.host.linkTrip := rfl
@[simp] theorem addAction_host_badKey : (addAction a b).host.badKey = b.host.badKey := rfl
@[simp] theorem addAction_host_wdogPeriod : (addAction a b).host.wdogPeriod = b.host.wdogPeriod := rfl
@[simp] theorem addAction_host_linkArm : (addAction a b).host.linkArm = b.host.linkArm := rfl
@[simp] theorem addAction_host_kicks : (addAction a b).host.kicks = b.host.kicks := rfl
@[simp] theorem addAction_host_kickAt : (addAction a b).host.kickAt = b.host.kickAt := rfl
@[simp] theorem addAction_host_requests : (addAction a b).host.requests = b.host.requests := rfl
@[simp] theorem addAction_host_responses : (addAction a b).host.responses = b.host.responses := rfl
@[simp] theorem addAction_host_busy : (addAction a b).host.busy = b.host.busy := rfl
@[simp] theorem addAction_host_done : (addAction a b).host.done = b.host.done := rfl
@[simp] theorem addAction_host_held : (addAction a b).host.held = b.host.held := rfl
@[simp] theorem addAction_host_coachUp : (addAction a b).host.coachUp = b.host.coachUp := rfl
@[simp] theorem addAction_host_restarts : (addAction a b).host.restarts = b.host.restarts := rfl
@[simp] theorem addAction_host_dbErr : (addAction a b).host.dbErr = b.host.dbErr := rfl
@[simp] theorem addAction_host_sessionOpen : (addAction a b).host.sessionOpen = b.host.sessionOpen := rfl
@[simp] theorem addAction_host_sessionAccepted : (addAction a b).host.sessionAccepted = b.host.sessionAccepted := rfl
@[simp] theorem addAction_host_sessionId : (addAction a b).host.sessionId = b.host.sessionId := rfl
@[simp] theorem addAction_host_hostVer : (addAction a b).host.hostVer = b.host.hostVer := rfl
@[simp] theorem addAction_host_features : (addAction a b).host.features = b.host.features := rfl
@[simp] theorem addAction_host_evBaseLo : (addAction a b).host.evBaseLo = b.host.evBaseLo := rfl
@[simp] theorem addAction_host_evBaseHi : (addAction a b).host.evBaseHi = b.host.evBaseHi := rfl
@[simp] theorem addAction_host_evEn : (addAction a b).host.evEn = b.host.evEn := rfl
@[simp] theorem addAction_host_evFull : (addAction a b).host.evFull = b.host.evFull := rfl
@[simp] theorem addAction_host_coalN : (addAction a b).host.coalN = b.host.coalN := rfl
@[simp] theorem addAction_host_coalT : (addAction a b).host.coalT = b.host.coalT := rfl
@[simp] theorem addAction_host_log2N : (addAction a b).host.log2N = b.host.log2N := rfl
@[simp] theorem addAction_host_head : (addAction a b).host.head = b.host.head := rfl
@[simp] theorem addAction_host_tail : (addAction a b).host.tail = b.host.tail := rfl
@[simp] theorem addAction_host_phase : (addAction a b).host.phase = b.host.phase := rfl
@[simp] theorem addAction_host_unsignalled : (addAction a b).host.unsignalled = b.host.unsignalled := rfl
@[simp] theorem addAction_host_unsigAt : (addAction a b).host.unsigAt = b.host.unsigAt := rfl
@[simp] theorem addAction_host_dmaOut : (addAction a b).host.dmaOut = b.host.dmaOut := rfl
@[simp] theorem addAction_host_ringOut : (addAction a b).host.ringOut = b.host.ringOut := rfl
@[simp] theorem addAction_host_msix : (addAction a b).host.msix = b.host.msix := rfl
@[simp] theorem addAction_host_channels : (addAction a b).host.channels = b.host.channels := rfl
@[simp] theorem addAction_host_bulkWait : (addAction a b).host.bulkWait = b.host.bulkWait := rfl
@[simp] theorem addAction_host_waiting : (addAction a b).host.waiting = b.host.waiting := rfl
@[simp] theorem addAction_host_hostVars : (addAction a b).host.hostVars = b.host.hostVars := rfl
@[simp] theorem addAction_ev : (addAction a b).ev = b.ev := rfl
@[simp] theorem addAction_cfg : (addAction a b).cfg = b.cfg := rfl
@[simp] theorem addAction_staged : (addAction a b).staged = b.staged := rfl
@[simp] theorem addAction_nextCfg : (addAction a b).nextCfg = b.nextCfg := rfl
@[simp] theorem addAction_time : (addAction a b).time = b.time := rfl
@[simp] theorem addAction_synth : (addAction a b).synth = b.synth := rfl
@[simp] theorem addAction_net : (addAction a b).net = b.net := rfl
@[simp] theorem addAction_sup : (addAction a b).sup = b.sup := rfl
@[simp] theorem addAction_sense : (addAction a b).sense = b.sense := rfl
@[simp] theorem addAction_pmu : (addAction a b).pmu = b.pmu := rfl
@[simp] theorem addAction_tw : (addAction a b).tw = b.tw := rfl
@[simp] theorem addAction_recd : (addAction a b).recd = b.recd := rfl
@[simp] theorem addAction_snaps : (addAction a b).snaps = b.snaps := rfl
@[simp] theorem addAction_prot : (addAction a b).prot = b.prot := rfl
@[simp] theorem addAction_md : (addAction a b).md = b.md := rfl
@[simp] theorem addAction_safe : (addAction a b).safe = b.safe := rfl
@[simp] theorem addAction_pair : (addAction a b).pair = b.pair := rfl
@[simp] theorem addAction_trust : (addAction a b).trust = b.trust := rfl
@[simp] theorem addAction_eng : (addAction a b).eng = b.eng := rfl
@[simp] theorem addAction_fab : (addAction a b).fab = b.fab := rfl
@[simp] theorem addAction_ports : (addAction a b).ports = b.ports := rfl
@[simp] theorem addAction_chains : (addAction a b).chains = b.chains := rfl
@[simp] theorem addAction_cells : (addAction a b).cells = b.cells := rfl
@[simp] theorem addAction_terms : (addAction a b).terms = b.terms := rfl
@[simp] theorem addAction_image : (addAction a b).image = b.image := rfl
@[simp] theorem addAction_slal : (addAction a b).slal = b.slal := rfl
@[simp] theorem addAction_led : (addAction a b).led = b.led := rfl
@[simp] theorem addAction_ring : (addAction a b).ring = b.ring := rfl
@[simp] theorem addAction_dbg : (addAction a b).dbg = b.dbg := rfl
@[simp] theorem addAction_free : (addAction a b).free = b.free := rfl

/-! ### xwrite -/
@[simp] theorem xwrite_host : (xwrite n v b).host = b.host := rfl
@[simp] theorem xwrite_ev : (xwrite n v b).ev = b.ev := rfl
@[simp] theorem xwrite_cfg : (xwrite n v b).cfg = b.cfg := rfl
@[simp] theorem xwrite_staged : (xwrite n v b).staged = b.staged := rfl
@[simp] theorem xwrite_nextCfg : (xwrite n v b).nextCfg = b.nextCfg := rfl
@[simp] theorem xwrite_time : (xwrite n v b).time = b.time := rfl
@[simp] theorem xwrite_synth : (xwrite n v b).synth = b.synth := rfl
@[simp] theorem xwrite_net : (xwrite n v b).net = b.net := rfl
@[simp] theorem xwrite_sup : (xwrite n v b).sup = b.sup := rfl
@[simp] theorem xwrite_sense : (xwrite n v b).sense = b.sense := rfl
@[simp] theorem xwrite_pmu : (xwrite n v b).pmu = b.pmu := rfl
@[simp] theorem xwrite_tw : (xwrite n v b).tw = b.tw := rfl
@[simp] theorem xwrite_recd : (xwrite n v b).recd = b.recd := rfl
@[simp] theorem xwrite_snaps : (xwrite n v b).snaps = b.snaps := rfl
@[simp] theorem xwrite_prot : (xwrite n v b).prot = b.prot := rfl
@[simp] theorem xwrite_md : (xwrite n v b).md = b.md := rfl
@[simp] theorem xwrite_safe : (xwrite n v b).safe = b.safe := rfl
@[simp] theorem xwrite_pair : (xwrite n v b).pair = b.pair := rfl
@[simp] theorem xwrite_trust : (xwrite n v b).trust = b.trust := rfl
@[simp] theorem xwrite_eng : (xwrite n v b).eng = b.eng := rfl
@[simp] theorem xwrite_fab_wCoach : (xwrite n v b).fab.wCoach = b.fab.wCoach := rfl
@[simp] theorem xwrite_fab_wLedger : (xwrite n v b).fab.wLedger = b.fab.wLedger := rfl
@[simp] theorem xwrite_fab_wSnapshot : (xwrite n v b).fab.wSnapshot = b.fab.wSnapshot := rfl
@[simp] theorem xwrite_fab_wCarve : (xwrite n v b).fab.wCarve = b.fab.wCarve := rfl
@[simp] theorem xwrite_fab_turn : (xwrite n v b).fab.turn = b.fab.turn := rfl
@[simp] theorem xwrite_fab_left : (xwrite n v b).fab.left = b.fab.left := rfl
@[simp] theorem xwrite_fab_served : (xwrite n v b).fab.served = b.fab.served := rfl
@[simp] theorem xwrite_fab_opened : (xwrite n v b).fab.opened = b.fab.opened := rfl
@[simp] theorem xwrite_fab_rampWas : (xwrite n v b).fab.rampWas = b.fab.rampWas := rfl
@[simp] theorem xwrite_fab_ddr : (xwrite n v b).fab.ddr = b.fab.ddr := rfl
@[simp] theorem xwrite_ports : (xwrite n v b).ports = b.ports := rfl
@[simp] theorem xwrite_chains : (xwrite n v b).chains = b.chains := rfl
@[simp] theorem xwrite_cells : (xwrite n v b).cells = b.cells := rfl
@[simp] theorem xwrite_terms : (xwrite n v b).terms = b.terms := rfl
@[simp] theorem xwrite_image : (xwrite n v b).image = b.image := rfl
@[simp] theorem xwrite_slal : (xwrite n v b).slal = b.slal := rfl
@[simp] theorem xwrite_led : (xwrite n v b).led = b.led := rfl
@[simp] theorem xwrite_ring : (xwrite n v b).ring = b.ring := rfl
@[simp] theorem xwrite_dbg : (xwrite n v b).dbg = b.dbg := rfl
@[simp] theorem xwrite_free : (xwrite n v b).free = b.free := rfl

/-! ### onEngine -/
@[simp] theorem onEngine_host : (onEngine n fe b).host = b.host := rfl
@[simp] theorem onEngine_ev : (onEngine n fe b).ev = b.ev := rfl
@[simp] theorem onEngine_cfg : (onEngine n fe b).cfg = b.cfg := rfl
@[simp] theorem onEngine_staged : (onEngine n fe b).staged = b.staged := rfl
@[simp] theorem onEngine_nextCfg : (onEngine n fe b).nextCfg = b.nextCfg := rfl
@[simp] theorem onEngine_time : (onEngine n fe b).time = b.time := rfl
@[simp] theorem onEngine_synth : (onEngine n fe b).synth = b.synth := rfl
@[simp] theorem onEngine_net : (onEngine n fe b).net = b.net := rfl
@[simp] theorem onEngine_sup : (onEngine n fe b).sup = b.sup := rfl
@[simp] theorem onEngine_sense : (onEngine n fe b).sense = b.sense := rfl
@[simp] theorem onEngine_pmu : (onEngine n fe b).pmu = b.pmu := rfl
@[simp] theorem onEngine_tw : (onEngine n fe b).tw = b.tw := rfl
@[simp] theorem onEngine_recd : (onEngine n fe b).recd = b.recd := rfl
@[simp] theorem onEngine_snaps : (onEngine n fe b).snaps = b.snaps := rfl
@[simp] theorem onEngine_prot : (onEngine n fe b).prot = b.prot := rfl
@[simp] theorem onEngine_md : (onEngine n fe b).md = b.md := rfl
@[simp] theorem onEngine_safe : (onEngine n fe b).safe = b.safe := rfl
@[simp] theorem onEngine_pair : (onEngine n fe b).pair = b.pair := rfl
@[simp] theorem onEngine_trust : (onEngine n fe b).trust = b.trust := rfl
@[simp] theorem onEngine_fab : (onEngine n fe b).fab = b.fab := rfl
@[simp] theorem onEngine_ports : (onEngine n fe b).ports = b.ports := rfl
@[simp] theorem onEngine_chains : (onEngine n fe b).chains = b.chains := rfl
@[simp] theorem onEngine_cells : (onEngine n fe b).cells = b.cells := rfl
@[simp] theorem onEngine_terms : (onEngine n fe b).terms = b.terms := rfl
@[simp] theorem onEngine_image : (onEngine n fe b).image = b.image := rfl
@[simp] theorem onEngine_slal : (onEngine n fe b).slal = b.slal := rfl
@[simp] theorem onEngine_led : (onEngine n fe b).led = b.led := rfl
@[simp] theorem onEngine_ring : (onEngine n fe b).ring = b.ring := rfl
@[simp] theorem onEngine_dbg : (onEngine n fe b).dbg = b.dbg := rfl
@[simp] theorem onEngine_free : (onEngine n fe b).free = b.free := rfl

/-! ### onChain -/
@[simp] theorem onChain_host : (onChain n fc b).host = b.host := rfl
@[simp] theorem onChain_ev : (onChain n fc b).ev = b.ev := rfl
@[simp] theorem onChain_cfg : (onChain n fc b).cfg = b.cfg := rfl
@[simp] theorem onChain_staged : (onChain n fc b).staged = b.staged := rfl
@[simp] theorem onChain_nextCfg : (onChain n fc b).nextCfg = b.nextCfg := rfl
@[simp] theorem onChain_time : (onChain n fc b).time = b.time := rfl
@[simp] theorem onChain_synth : (onChain n fc b).synth = b.synth := rfl
@[simp] theorem onChain_net : (onChain n fc b).net = b.net := rfl
@[simp] theorem onChain_sup : (onChain n fc b).sup = b.sup := rfl
@[simp] theorem onChain_sense : (onChain n fc b).sense = b.sense := rfl
@[simp] theorem onChain_pmu : (onChain n fc b).pmu = b.pmu := rfl
@[simp] theorem onChain_tw : (onChain n fc b).tw = b.tw := rfl
@[simp] theorem onChain_recd : (onChain n fc b).recd = b.recd := rfl
@[simp] theorem onChain_snaps : (onChain n fc b).snaps = b.snaps := rfl
@[simp] theorem onChain_prot : (onChain n fc b).prot = b.prot := rfl
@[simp] theorem onChain_md : (onChain n fc b).md = b.md := rfl
@[simp] theorem onChain_safe : (onChain n fc b).safe = b.safe := rfl
@[simp] theorem onChain_pair : (onChain n fc b).pair = b.pair := rfl
@[simp] theorem onChain_trust : (onChain n fc b).trust = b.trust := rfl
@[simp] theorem onChain_eng : (onChain n fc b).eng = b.eng := rfl
@[simp] theorem onChain_fab : (onChain n fc b).fab = b.fab := rfl
@[simp] theorem onChain_ports : (onChain n fc b).ports = b.ports := rfl
@[simp] theorem onChain_cells : (onChain n fc b).cells = b.cells := rfl
@[simp] theorem onChain_terms : (onChain n fc b).terms = b.terms := rfl
@[simp] theorem onChain_image : (onChain n fc b).image = b.image := rfl
@[simp] theorem onChain_slal : (onChain n fc b).slal = b.slal := rfl
@[simp] theorem onChain_led : (onChain n fc b).led = b.led := rfl
@[simp] theorem onChain_ring : (onChain n fc b).ring = b.ring := rfl
@[simp] theorem onChain_dbg : (onChain n fc b).dbg = b.dbg := rfl
@[simp] theorem onChain_free : (onChain n fc b).free = b.free := rfl

/-! ### onHub -/
@[simp] theorem onHub_host : (onHub n fh b).host = b.host := rfl
@[simp] theorem onHub_ev : (onHub n fh b).ev = b.ev := rfl
@[simp] theorem onHub_cfg : (onHub n fh b).cfg = b.cfg := rfl
@[simp] theorem onHub_staged : (onHub n fh b).staged = b.staged := rfl
@[simp] theorem onHub_nextCfg : (onHub n fh b).nextCfg = b.nextCfg := rfl
@[simp] theorem onHub_time : (onHub n fh b).time = b.time := rfl
@[simp] theorem onHub_synth : (onHub n fh b).synth = b.synth := rfl
@[simp] theorem onHub_net : (onHub n fh b).net = b.net := rfl
@[simp] theorem onHub_sup : (onHub n fh b).sup = b.sup := rfl
@[simp] theorem onHub_sense : (onHub n fh b).sense = b.sense := rfl
@[simp] theorem onHub_pmu : (onHub n fh b).pmu = b.pmu := rfl
@[simp] theorem onHub_tw : (onHub n fh b).tw = b.tw := rfl
@[simp] theorem onHub_recd : (onHub n fh b).recd = b.recd := rfl
@[simp] theorem onHub_snaps : (onHub n fh b).snaps = b.snaps := rfl
@[simp] theorem onHub_prot : (onHub n fh b).prot = b.prot := rfl
@[simp] theorem onHub_md : (onHub n fh b).md = b.md := rfl
@[simp] theorem onHub_safe : (onHub n fh b).safe = b.safe := rfl
@[simp] theorem onHub_pair : (onHub n fh b).pair = b.pair := rfl
@[simp] theorem onHub_trust : (onHub n fh b).trust = b.trust := rfl
@[simp] theorem onHub_eng : (onHub n fh b).eng = b.eng := rfl
@[simp] theorem onHub_fab : (onHub n fh b).fab = b.fab := rfl
@[simp] theorem onHub_ports : (onHub n fh b).ports = b.ports := rfl
@[simp] theorem onHub_chains : (onHub n fh b).chains = b.chains := rfl
@[simp] theorem onHub_terms : (onHub n fh b).terms = b.terms := rfl
@[simp] theorem onHub_image : (onHub n fh b).image = b.image := rfl
@[simp] theorem onHub_slal : (onHub n fh b).slal = b.slal := rfl
@[simp] theorem onHub_led : (onHub n fh b).led = b.led := rfl
@[simp] theorem onHub_ring : (onHub n fh b).ring = b.ring := rfl
@[simp] theorem onHub_dbg : (onHub n fh b).dbg = b.dbg := rfl
@[simp] theorem onHub_free : (onHub n fh b).free = b.free := rfl

/-! ### onTerm -/
@[simp] theorem onTerm_host : (onTerm n ft b).host = b.host := rfl
@[simp] theorem onTerm_ev : (onTerm n ft b).ev = b.ev := rfl
@[simp] theorem onTerm_cfg : (onTerm n ft b).cfg = b.cfg := rfl
@[simp] theorem onTerm_staged : (onTerm n ft b).staged = b.staged := rfl
@[simp] theorem onTerm_nextCfg : (onTerm n ft b).nextCfg = b.nextCfg := rfl
@[simp] theorem onTerm_time : (onTerm n ft b).time = b.time := rfl
@[simp] theorem onTerm_synth : (onTerm n ft b).synth = b.synth := rfl
@[simp] theorem onTerm_net : (onTerm n ft b).net = b.net := rfl
@[simp] theorem onTerm_sup : (onTerm n ft b).sup = b.sup := rfl
@[simp] theorem onTerm_sense : (onTerm n ft b).sense = b.sense := rfl
@[simp] theorem onTerm_pmu : (onTerm n ft b).pmu = b.pmu := rfl
@[simp] theorem onTerm_tw : (onTerm n ft b).tw = b.tw := rfl
@[simp] theorem onTerm_recd : (onTerm n ft b).recd = b.recd := rfl
@[simp] theorem onTerm_snaps : (onTerm n ft b).snaps = b.snaps := rfl
@[simp] theorem onTerm_prot : (onTerm n ft b).prot = b.prot := rfl
@[simp] theorem onTerm_md : (onTerm n ft b).md = b.md := rfl
@[simp] theorem onTerm_safe : (onTerm n ft b).safe = b.safe := rfl
@[simp] theorem onTerm_pair : (onTerm n ft b).pair = b.pair := rfl
@[simp] theorem onTerm_trust : (onTerm n ft b).trust = b.trust := rfl
@[simp] theorem onTerm_eng : (onTerm n ft b).eng = b.eng := rfl
@[simp] theorem onTerm_fab : (onTerm n ft b).fab = b.fab := rfl
@[simp] theorem onTerm_ports : (onTerm n ft b).ports = b.ports := rfl
@[simp] theorem onTerm_chains : (onTerm n ft b).chains = b.chains := rfl
@[simp] theorem onTerm_cells : (onTerm n ft b).cells = b.cells := rfl
@[simp] theorem onTerm_image : (onTerm n ft b).image = b.image := rfl
@[simp] theorem onTerm_slal : (onTerm n ft b).slal = b.slal := rfl
@[simp] theorem onTerm_led : (onTerm n ft b).led = b.led := rfl
@[simp] theorem onTerm_ring : (onTerm n ft b).ring = b.ring := rfl
@[simp] theorem onTerm_dbg : (onTerm n ft b).dbg = b.dbg := rfl
@[simp] theorem onTerm_free : (onTerm n ft b).free = b.free := rfl

/-! ### onPort -/
@[simp] theorem onPort_host : (onPort n fp b).host = b.host := rfl
@[simp] theorem onPort_ev : (onPort n fp b).ev = b.ev := rfl
@[simp] theorem onPort_cfg : (onPort n fp b).cfg = b.cfg := rfl
@[simp] theorem onPort_staged : (onPort n fp b).staged = b.staged := rfl
@[simp] theorem onPort_nextCfg : (onPort n fp b).nextCfg = b.nextCfg := rfl
@[simp] theorem onPort_time : (onPort n fp b).time = b.time := rfl
@[simp] theorem onPort_synth : (onPort n fp b).synth = b.synth := rfl
@[simp] theorem onPort_net : (onPort n fp b).net = b.net := rfl
@[simp] theorem onPort_sup : (onPort n fp b).sup = b.sup := rfl
@[simp] theorem onPort_sense : (onPort n fp b).sense = b.sense := rfl
@[simp] theorem onPort_pmu : (onPort n fp b).pmu = b.pmu := rfl
@[simp] theorem onPort_tw : (onPort n fp b).tw = b.tw := rfl
@[simp] theorem onPort_recd : (onPort n fp b).recd = b.recd := rfl
@[simp] theorem onPort_snaps : (onPort n fp b).snaps = b.snaps := rfl
@[simp] theorem onPort_prot : (onPort n fp b).prot = b.prot := rfl
@[simp] theorem onPort_md : (onPort n fp b).md = b.md := rfl
@[simp] theorem onPort_safe : (onPort n fp b).safe = b.safe := rfl
@[simp] theorem onPort_pair : (onPort n fp b).pair = b.pair := rfl
@[simp] theorem onPort_trust : (onPort n fp b).trust = b.trust := rfl
@[simp] theorem onPort_eng : (onPort n fp b).eng = b.eng := rfl
@[simp] theorem onPort_fab : (onPort n fp b).fab = b.fab := rfl
@[simp] theorem onPort_chains : (onPort n fp b).chains = b.chains := rfl
@[simp] theorem onPort_cells : (onPort n fp b).cells = b.cells := rfl
@[simp] theorem onPort_terms : (onPort n fp b).terms = b.terms := rfl
@[simp] theorem onPort_image : (onPort n fp b).image = b.image := rfl
@[simp] theorem onPort_slal : (onPort n fp b).slal = b.slal := rfl
@[simp] theorem onPort_led : (onPort n fp b).led = b.led := rfl
@[simp] theorem onPort_ring : (onPort n fp b).ring = b.ring := rfl
@[simp] theorem onPort_dbg : (onPort n fp b).dbg = b.dbg := rfl
@[simp] theorem onPort_free : (onPort n fp b).free = b.free := rfl

/-! ### onSide -/
@[simp] theorem onSide_host : (onSide n fs b).host = b.host := rfl
@[simp] theorem onSide_ev : (onSide n fs b).ev = b.ev := rfl
@[simp] theorem onSide_cfg : (onSide n fs b).cfg = b.cfg := rfl
@[simp] theorem onSide_staged : (onSide n fs b).staged = b.staged := rfl
@[simp] theorem onSide_nextCfg : (onSide n fs b).nextCfg = b.nextCfg := rfl
@[simp] theorem onSide_time : (onSide n fs b).time = b.time := rfl
@[simp] theorem onSide_synth : (onSide n fs b).synth = b.synth := rfl
@[simp] theorem onSide_net : (onSide n fs b).net = b.net := rfl
@[simp] theorem onSide_sup : (onSide n fs b).sup = b.sup := rfl
@[simp] theorem onSide_sense : (onSide n fs b).sense = b.sense := rfl
@[simp] theorem onSide_pmu : (onSide n fs b).pmu = b.pmu := rfl
@[simp] theorem onSide_tw : (onSide n fs b).tw = b.tw := rfl
@[simp] theorem onSide_recd : (onSide n fs b).recd = b.recd := rfl
@[simp] theorem onSide_snaps : (onSide n fs b).snaps = b.snaps := rfl
@[simp] theorem onSide_prot : (onSide n fs b).prot = b.prot := rfl
@[simp] theorem onSide_md_mode : (onSide n fs b).md.mode = b.md.mode := rfl
@[simp] theorem onSide_md_prev : (onSide n fs b).md.prev = b.md.prev := rfl
@[simp] theorem onSide_md_phase : (onSide n fs b).md.phase = b.md.phase := rfl
@[simp] theorem onSide_md_enteredAt : (onSide n fs b).md.enteredAt = b.md.enteredAt := rfl
@[simp] theorem onSide_md_phaseAt : (onSide n fs b).md.phaseAt = b.md.phaseAt := rfl
@[simp] theorem onSide_md_pMode : (onSide n fs b).md.pMode = b.md.pMode := rfl
@[simp] theorem onSide_md_stop : (onSide n fs b).md.stop = b.md.stop := rfl
@[simp] theorem onSide_md_stopLeft : (onSide n fs b).md.stopLeft = b.md.stopLeft := rfl
@[simp] theorem onSide_md_stopCause : (onSide n fs b).md.stopCause = b.md.stopCause := rfl
@[simp] theorem onSide_md_stopAt : (onSide n fs b).md.stopAt = b.md.stopAt := rfl
@[simp] theorem onSide_md_p0 : (onSide n fs b).md.p0 = b.md.p0 := rfl
@[simp] theorem onSide_md_imm : (onSide n fs b).md.imm = b.md.imm := rfl
@[simp] theorem onSide_md_immAt : (onSide n fs b).md.immAt = b.md.immAt := rfl
@[simp] theorem onSide_md_orderly : (onSide n fs b).md.orderly = b.md.orderly := rfl
@[simp] theorem onSide_md_orderlyAt : (onSide n fs b).md.orderlyAt = b.md.orderlyAt := rfl
@[simp] theorem onSide_md_stopLen : (onSide n fs b).md.stopLen = b.md.stopLen := rfl
@[simp] theorem onSide_md_coastDue : (onSide n fs b).md.coastDue = b.md.coastDue := rfl
@[simp] theorem onSide_md_settleRun : (onSide n fs b).md.settleRun = b.md.settleRun := rfl
@[simp] theorem onSide_md_safeRun : (onSide n fs b).md.safeRun = b.md.safeRun := rfl
@[simp] theorem onSide_md_safeRunAll : (onSide n fs b).md.safeRunAll = b.md.safeRunAll := rfl
@[simp] theorem onSide_md_roundOver : (onSide n fs b).md.roundOver = b.md.roundOver := rfl
@[simp] theorem onSide_md_roundFailed : (onSide n fs b).md.roundFailed = b.md.roundFailed := rfl
@[simp] theorem onSide_md_coastStrides : (onSide n fs b).md.coastStrides = b.md.coastStrides := rfl
@[simp] theorem onSide_md_returnCount : (onSide n fs b).md.returnCount = b.md.returnCount := rfl
@[simp] theorem onSide_md_classifyAt : (onSide n fs b).md.classifyAt = b.md.classifyAt := rfl
@[simp] theorem onSide_md_returnAt : (onSide n fs b).md.returnAt = b.md.returnAt := rfl
@[simp] theorem onSide_md_jumpAt : (onSide n fs b).md.jumpAt = b.md.jumpAt := rfl
@[simp] theorem onSide_md_syncAt : (onSide n fs b).md.syncAt = b.md.syncAt := rfl
@[simp] theorem onSide_safe : (onSide n fs b).safe = b.safe := rfl
@[simp] theorem onSide_pair : (onSide n fs b).pair = b.pair := rfl
@[simp] theorem onSide_trust : (onSide n fs b).trust = b.trust := rfl
@[simp] theorem onSide_eng : (onSide n fs b).eng = b.eng := rfl
@[simp] theorem onSide_fab : (onSide n fs b).fab = b.fab := rfl
@[simp] theorem onSide_ports : (onSide n fs b).ports = b.ports := rfl
@[simp] theorem onSide_chains : (onSide n fs b).chains = b.chains := rfl
@[simp] theorem onSide_cells : (onSide n fs b).cells = b.cells := rfl
@[simp] theorem onSide_terms : (onSide n fs b).terms = b.terms := rfl
@[simp] theorem onSide_image : (onSide n fs b).image = b.image := rfl
@[simp] theorem onSide_slal : (onSide n fs b).slal = b.slal := rfl
@[simp] theorem onSide_led : (onSide n fs b).led = b.led := rfl
@[simp] theorem onSide_ring : (onSide n fs b).ring = b.ring := rfl
@[simp] theorem onSide_dbg : (onSide n fs b).dbg = b.dbg := rfl
@[simp] theorem onSide_free : (onSide n fs b).free = b.free := rfl

/-! ### onLeg -/
@[simp] theorem onLeg_host : (onLeg n fl b).host = b.host := rfl
@[simp] theorem onLeg_ev : (onLeg n fl b).ev = b.ev := rfl
@[simp] theorem onLeg_cfg : (onLeg n fl b).cfg = b.cfg := rfl
@[simp] theorem onLeg_staged : (onLeg n fl b).staged = b.staged := rfl
@[simp] theorem onLeg_nextCfg : (onLeg n fl b).nextCfg = b.nextCfg := rfl
@[simp] theorem onLeg_time : (onLeg n fl b).time = b.time := rfl
@[simp] theorem onLeg_synth : (onLeg n fl b).synth = b.synth := rfl
@[simp] theorem onLeg_net : (onLeg n fl b).net = b.net := rfl
@[simp] theorem onLeg_sup : (onLeg n fl b).sup = b.sup := rfl
@[simp] theorem onLeg_sense : (onLeg n fl b).sense = b.sense := rfl
@[simp] theorem onLeg_pmu : (onLeg n fl b).pmu = b.pmu := rfl
@[simp] theorem onLeg_tw : (onLeg n fl b).tw = b.tw := rfl
@[simp] theorem onLeg_recd : (onLeg n fl b).recd = b.recd := rfl
@[simp] theorem onLeg_snaps : (onLeg n fl b).snaps = b.snaps := rfl
@[simp] theorem onLeg_prot_inputs : (onLeg n fl b).prot.inputs = b.prot.inputs := rfl
@[simp] theorem onLeg_prot_comps : (onLeg n fl b).prot.comps = b.prot.comps := rfl
@[simp] theorem onLeg_prot_captures : (onLeg n fl b).prot.captures = b.prot.captures := rfl
@[simp] theorem onLeg_prot_capLost : (onLeg n fl b).prot.capLost = b.prot.capLost := rfl
@[simp] theorem onLeg_prot_ownOsc : (onLeg n fl b).prot.ownOsc = b.prot.ownOsc := rfl
@[simp] theorem onLeg_prot_copyA : (onLeg n fl b).prot.copyA = b.prot.copyA := rfl
@[simp] theorem onLeg_prot_copyB : (onLeg n fl b).prot.copyB = b.prot.copyB := rfl
@[simp] theorem onLeg_prot_burst : (onLeg n fl b).prot.burst = b.prot.burst := rfl
@[simp] theorem onLeg_prot_differAt : (onLeg n fl b).prot.differAt = b.prot.differAt := rfl
@[simp] theorem onLeg_prot_clearLegs : (onLeg n fl b).prot.clearLegs = b.prot.clearLegs := rfl
@[simp] theorem onLeg_prot_seen : (onLeg n fl b).prot.seen = b.prot.seen := rfl
@[simp] theorem onLeg_prot_tripId : (onLeg n fl b).prot.tripId = b.prot.tripId := rfl
@[simp] theorem onLeg_prot_matrixFault : (onLeg n fl b).prot.matrixFault = b.prot.matrixFault := rfl
@[simp] theorem onLeg_prot_crcBad : (onLeg n fl b).prot.crcBad = b.prot.crcBad := rfl
@[simp] theorem onLeg_prot_pcfgBad : (onLeg n fl b).prot.pcfgBad = b.prot.pcfgBad := rfl
@[simp] theorem onLeg_prot_legEdges : (onLeg n fl b).prot.legEdges = b.prot.legEdges := rfl
@[simp] theorem onLeg_prot_shadow : (onLeg n fl b).prot.shadow = b.prot.shadow := rfl
@[simp] theorem onLeg_prot_sent : (onLeg n fl b).prot.sent = b.prot.sent := rfl
@[simp] theorem onLeg_prot_got : (onLeg n fl b).prot.got = b.prot.got := rfl
@[simp] theorem onLeg_prot_missed : (onLeg n fl b).prot.missed = b.prot.missed := rfl
@[simp] theorem onLeg_prot_missAt : (onLeg n fl b).prot.missAt = b.prot.missAt := rfl
@[simp] theorem onLeg_prot_role : (onLeg n fl b).prot.role = b.prot.role := rfl
@[simp] theorem onLeg_prot_writes : (onLeg n fl b).prot.writes = b.prot.writes := rfl
@[simp] theorem onLeg_prot_want66 : (onLeg n fl b).prot.want66 = b.prot.want66 := rfl
@[simp] theorem onLeg_prot_therm66 : (onLeg n fl b).prot.therm66 = b.prot.therm66 := rfl
@[simp] theorem onLeg_prot_sysOut : (onLeg n fl b).prot.sysOut = b.prot.sysOut := rfl
@[simp] theorem onLeg_prot_summitLost : (onLeg n fl b).prot.summitLost = b.prot.summitLost := rfl
@[simp] theorem onLeg_prot_summitReset : (onLeg n fl b).prot.summitReset = b.prot.summitReset := rfl
@[simp] theorem onLeg_prot_heldFor : (onLeg n fl b).prot.heldFor = b.prot.heldFor := rfl
@[simp] theorem onLeg_prot_resetAt : (onLeg n fl b).prot.resetAt = b.prot.resetAt := rfl
@[simp] theorem onLeg_prot_patrolLost : (onLeg n fl b).prot.patrolLost = b.prot.patrolLost := rfl
@[simp] theorem onLeg_prot_restartAt : (onLeg n fl b).prot.restartAt = b.prot.restartAt := rfl
@[simp] theorem onLeg_prot_statusMissed : (onLeg n fl b).prot.statusMissed = b.prot.statusMissed := rfl
@[simp] theorem onLeg_prot_statusAt : (onLeg n fl b).prot.statusAt = b.prot.statusAt := rfl
@[simp] theorem onLeg_prot_status : (onLeg n fl b).prot.status = b.prot.status := rfl
@[simp] theorem onLeg_prot_lossLine : (onLeg n fl b).prot.lossLine = b.prot.lossLine := rfl
@[simp] theorem onLeg_prot_drives : (onLeg n fl b).prot.drives = b.prot.drives := rfl
@[simp] theorem onLeg_prot_chops : (onLeg n fl b).prot.chops = b.prot.chops := rfl
@[simp] theorem onLeg_prot_goose : (onLeg n fl b).prot.goose = b.prot.goose := rfl
@[simp] theorem onLeg_prot_prpSeen : (onLeg n fl b).prot.prpSeen = b.prot.prpSeen := rfl
@[simp] theorem onLeg_prot_avs : (onLeg n fl b).prot.avs = b.prot.avs := rfl
@[simp] theorem onLeg_prot_avRoots : (onLeg n fl b).prot.avRoots = b.prot.avRoots := rfl
@[simp] theorem onLeg_prot_avId : (onLeg n fl b).prot.avId = b.prot.avId := rfl
@[simp] theorem onLeg_prot_avMaps : (onLeg n fl b).prot.avMaps = b.prot.avMaps := rfl
@[simp] theorem onLeg_prot_stops : (onLeg n fl b).prot.stops = b.prot.stops := rfl
@[simp] theorem onLeg_prot_testQueue : (onLeg n fl b).prot.testQueue = b.prot.testQueue := rfl
@[simp] theorem onLeg_prot_frozen : (onLeg n fl b).prot.frozen = b.prot.frozen := rfl
@[simp] theorem onLeg_md : (onLeg n fl b).md = b.md := rfl
@[simp] theorem onLeg_safe : (onLeg n fl b).safe = b.safe := rfl
@[simp] theorem onLeg_pair : (onLeg n fl b).pair = b.pair := rfl
@[simp] theorem onLeg_trust : (onLeg n fl b).trust = b.trust := rfl
@[simp] theorem onLeg_eng : (onLeg n fl b).eng = b.eng := rfl
@[simp] theorem onLeg_fab : (onLeg n fl b).fab = b.fab := rfl
@[simp] theorem onLeg_ports : (onLeg n fl b).ports = b.ports := rfl
@[simp] theorem onLeg_chains : (onLeg n fl b).chains = b.chains := rfl
@[simp] theorem onLeg_cells : (onLeg n fl b).cells = b.cells := rfl
@[simp] theorem onLeg_terms : (onLeg n fl b).terms = b.terms := rfl
@[simp] theorem onLeg_image : (onLeg n fl b).image = b.image := rfl
@[simp] theorem onLeg_slal : (onLeg n fl b).slal = b.slal := rfl
@[simp] theorem onLeg_led : (onLeg n fl b).led = b.led := rfl
@[simp] theorem onLeg_ring : (onLeg n fl b).ring = b.ring := rfl
@[simp] theorem onLeg_dbg : (onLeg n fl b).dbg = b.dbg := rfl
@[simp] theorem onLeg_free : (onLeg n fl b).free = b.free := rfl

/-! ### onComp -/
@[simp] theorem onComp_host : (onComp n fo b).host = b.host := rfl
@[simp] theorem onComp_ev : (onComp n fo b).ev = b.ev := rfl
@[simp] theorem onComp_cfg : (onComp n fo b).cfg = b.cfg := rfl
@[simp] theorem onComp_staged : (onComp n fo b).staged = b.staged := rfl
@[simp] theorem onComp_nextCfg : (onComp n fo b).nextCfg = b.nextCfg := rfl
@[simp] theorem onComp_time : (onComp n fo b).time = b.time := rfl
@[simp] theorem onComp_synth : (onComp n fo b).synth = b.synth := rfl
@[simp] theorem onComp_net : (onComp n fo b).net = b.net := rfl
@[simp] theorem onComp_sup : (onComp n fo b).sup = b.sup := rfl
@[simp] theorem onComp_sense : (onComp n fo b).sense = b.sense := rfl
@[simp] theorem onComp_pmu : (onComp n fo b).pmu = b.pmu := rfl
@[simp] theorem onComp_tw : (onComp n fo b).tw = b.tw := rfl
@[simp] theorem onComp_recd : (onComp n fo b).recd = b.recd := rfl
@[simp] theorem onComp_snaps : (onComp n fo b).snaps = b.snaps := rfl
@[simp] theorem onComp_prot_inputs : (onComp n fo b).prot.inputs = b.prot.inputs := rfl
@[simp] theorem onComp_prot_captures : (onComp n fo b).prot.captures = b.prot.captures := rfl
@[simp] theorem onComp_prot_capLost : (onComp n fo b).prot.capLost = b.prot.capLost := rfl
@[simp] theorem onComp_prot_ownOsc : (onComp n fo b).prot.ownOsc = b.prot.ownOsc := rfl
@[simp] theorem onComp_prot_copyA : (onComp n fo b).prot.copyA = b.prot.copyA := rfl
@[simp] theorem onComp_prot_copyB : (onComp n fo b).prot.copyB = b.prot.copyB := rfl
@[simp] theorem onComp_prot_burst : (onComp n fo b).prot.burst = b.prot.burst := rfl
@[simp] theorem onComp_prot_differAt : (onComp n fo b).prot.differAt = b.prot.differAt := rfl
@[simp] theorem onComp_prot_clearLegs : (onComp n fo b).prot.clearLegs = b.prot.clearLegs := rfl
@[simp] theorem onComp_prot_seen : (onComp n fo b).prot.seen = b.prot.seen := rfl
@[simp] theorem onComp_prot_tripId : (onComp n fo b).prot.tripId = b.prot.tripId := rfl
@[simp] theorem onComp_prot_matrixFault : (onComp n fo b).prot.matrixFault = b.prot.matrixFault := rfl
@[simp] theorem onComp_prot_crcBad : (onComp n fo b).prot.crcBad = b.prot.crcBad := rfl
@[simp] theorem onComp_prot_pcfgBad : (onComp n fo b).prot.pcfgBad = b.prot.pcfgBad := rfl
@[simp] theorem onComp_prot_legs : (onComp n fo b).prot.legs = b.prot.legs := rfl
@[simp] theorem onComp_prot_legEdges : (onComp n fo b).prot.legEdges = b.prot.legEdges := rfl
@[simp] theorem onComp_prot_shadow : (onComp n fo b).prot.shadow = b.prot.shadow := rfl
@[simp] theorem onComp_prot_sent : (onComp n fo b).prot.sent = b.prot.sent := rfl
@[simp] theorem onComp_prot_got : (onComp n fo b).prot.got = b.prot.got := rfl
@[simp] theorem onComp_prot_missed : (onComp n fo b).prot.missed = b.prot.missed := rfl
@[simp] theorem onComp_prot_missAt : (onComp n fo b).prot.missAt = b.prot.missAt := rfl
@[simp] theorem onComp_prot_role : (onComp n fo b).prot.role = b.prot.role := rfl
@[simp] theorem onComp_prot_writes : (onComp n fo b).prot.writes = b.prot.writes := rfl
@[simp] theorem onComp_prot_want66 : (onComp n fo b).prot.want66 = b.prot.want66 := rfl
@[simp] theorem onComp_prot_therm66 : (onComp n fo b).prot.therm66 = b.prot.therm66 := rfl
@[simp] theorem onComp_prot_sysOut : (onComp n fo b).prot.sysOut = b.prot.sysOut := rfl
@[simp] theorem onComp_prot_summitLost : (onComp n fo b).prot.summitLost = b.prot.summitLost := rfl
@[simp] theorem onComp_prot_summitReset : (onComp n fo b).prot.summitReset = b.prot.summitReset := rfl
@[simp] theorem onComp_prot_heldFor : (onComp n fo b).prot.heldFor = b.prot.heldFor := rfl
@[simp] theorem onComp_prot_resetAt : (onComp n fo b).prot.resetAt = b.prot.resetAt := rfl
@[simp] theorem onComp_prot_patrolLost : (onComp n fo b).prot.patrolLost = b.prot.patrolLost := rfl
@[simp] theorem onComp_prot_restartAt : (onComp n fo b).prot.restartAt = b.prot.restartAt := rfl
@[simp] theorem onComp_prot_statusMissed : (onComp n fo b).prot.statusMissed = b.prot.statusMissed := rfl
@[simp] theorem onComp_prot_statusAt : (onComp n fo b).prot.statusAt = b.prot.statusAt := rfl
@[simp] theorem onComp_prot_status : (onComp n fo b).prot.status = b.prot.status := rfl
@[simp] theorem onComp_prot_lossLine : (onComp n fo b).prot.lossLine = b.prot.lossLine := rfl
@[simp] theorem onComp_prot_drives : (onComp n fo b).prot.drives = b.prot.drives := rfl
@[simp] theorem onComp_prot_chops : (onComp n fo b).prot.chops = b.prot.chops := rfl
@[simp] theorem onComp_prot_goose : (onComp n fo b).prot.goose = b.prot.goose := rfl
@[simp] theorem onComp_prot_prpSeen : (onComp n fo b).prot.prpSeen = b.prot.prpSeen := rfl
@[simp] theorem onComp_prot_avs : (onComp n fo b).prot.avs = b.prot.avs := rfl
@[simp] theorem onComp_prot_avRoots : (onComp n fo b).prot.avRoots = b.prot.avRoots := rfl
@[simp] theorem onComp_prot_avId : (onComp n fo b).prot.avId = b.prot.avId := rfl
@[simp] theorem onComp_prot_avMaps : (onComp n fo b).prot.avMaps = b.prot.avMaps := rfl
@[simp] theorem onComp_prot_stops : (onComp n fo b).prot.stops = b.prot.stops := rfl
@[simp] theorem onComp_prot_testQueue : (onComp n fo b).prot.testQueue = b.prot.testQueue := rfl
@[simp] theorem onComp_prot_frozen : (onComp n fo b).prot.frozen = b.prot.frozen := rfl
@[simp] theorem onComp_md : (onComp n fo b).md = b.md := rfl
@[simp] theorem onComp_safe : (onComp n fo b).safe = b.safe := rfl
@[simp] theorem onComp_pair : (onComp n fo b).pair = b.pair := rfl
@[simp] theorem onComp_trust : (onComp n fo b).trust = b.trust := rfl
@[simp] theorem onComp_eng : (onComp n fo b).eng = b.eng := rfl
@[simp] theorem onComp_fab : (onComp n fo b).fab = b.fab := rfl
@[simp] theorem onComp_ports : (onComp n fo b).ports = b.ports := rfl
@[simp] theorem onComp_chains : (onComp n fo b).chains = b.chains := rfl
@[simp] theorem onComp_cells : (onComp n fo b).cells = b.cells := rfl
@[simp] theorem onComp_terms : (onComp n fo b).terms = b.terms := rfl
@[simp] theorem onComp_image : (onComp n fo b).image = b.image := rfl
@[simp] theorem onComp_slal : (onComp n fo b).slal = b.slal := rfl
@[simp] theorem onComp_led : (onComp n fo b).led = b.led := rfl
@[simp] theorem onComp_ring : (onComp n fo b).ring = b.ring := rfl
@[simp] theorem onComp_dbg : (onComp n fo b).dbg = b.dbg := rfl
@[simp] theorem onComp_free : (onComp n fo b).free = b.free := rfl

/-! ### onDrive -/
@[simp] theorem onDrive_host : (onDrive n fd b).host = b.host := rfl
@[simp] theorem onDrive_ev : (onDrive n fd b).ev = b.ev := rfl
@[simp] theorem onDrive_cfg : (onDrive n fd b).cfg = b.cfg := rfl
@[simp] theorem onDrive_staged : (onDrive n fd b).staged = b.staged := rfl
@[simp] theorem onDrive_nextCfg : (onDrive n fd b).nextCfg = b.nextCfg := rfl
@[simp] theorem onDrive_time : (onDrive n fd b).time = b.time := rfl
@[simp] theorem onDrive_synth : (onDrive n fd b).synth = b.synth := rfl
@[simp] theorem onDrive_net : (onDrive n fd b).net = b.net := rfl
@[simp] theorem onDrive_sup : (onDrive n fd b).sup = b.sup := rfl
@[simp] theorem onDrive_sense : (onDrive n fd b).sense = b.sense := rfl
@[simp] theorem onDrive_pmu : (onDrive n fd b).pmu = b.pmu := rfl
@[simp] theorem onDrive_tw : (onDrive n fd b).tw = b.tw := rfl
@[simp] theorem onDrive_recd : (onDrive n fd b).recd = b.recd := rfl
@[simp] theorem onDrive_snaps : (onDrive n fd b).snaps = b.snaps := rfl
@[simp] theorem onDrive_prot_inputs : (onDrive n fd b).prot.inputs = b.prot.inputs := rfl
@[simp] theorem onDrive_prot_comps : (onDrive n fd b).prot.comps = b.prot.comps := rfl
@[simp] theorem onDrive_prot_captures : (onDrive n fd b).prot.captures = b.prot.captures := rfl
@[simp] theorem onDrive_prot_capLost : (onDrive n fd b).prot.capLost = b.prot.capLost := rfl
@[simp] theorem onDrive_prot_ownOsc : (onDrive n fd b).prot.ownOsc = b.prot.ownOsc := rfl
@[simp] theorem onDrive_prot_copyA : (onDrive n fd b).prot.copyA = b.prot.copyA := rfl
@[simp] theorem onDrive_prot_copyB : (onDrive n fd b).prot.copyB = b.prot.copyB := rfl
@[simp] theorem onDrive_prot_burst : (onDrive n fd b).prot.burst = b.prot.burst := rfl
@[simp] theorem onDrive_prot_differAt : (onDrive n fd b).prot.differAt = b.prot.differAt := rfl
@[simp] theorem onDrive_prot_clearLegs : (onDrive n fd b).prot.clearLegs = b.prot.clearLegs := rfl
@[simp] theorem onDrive_prot_seen : (onDrive n fd b).prot.seen = b.prot.seen := rfl
@[simp] theorem onDrive_prot_tripId : (onDrive n fd b).prot.tripId = b.prot.tripId := rfl
@[simp] theorem onDrive_prot_matrixFault : (onDrive n fd b).prot.matrixFault = b.prot.matrixFault := rfl
@[simp] theorem onDrive_prot_crcBad : (onDrive n fd b).prot.crcBad = b.prot.crcBad := rfl
@[simp] theorem onDrive_prot_pcfgBad : (onDrive n fd b).prot.pcfgBad = b.prot.pcfgBad := rfl
@[simp] theorem onDrive_prot_legs : (onDrive n fd b).prot.legs = b.prot.legs := rfl
@[simp] theorem onDrive_prot_legEdges : (onDrive n fd b).prot.legEdges = b.prot.legEdges := rfl
@[simp] theorem onDrive_prot_shadow : (onDrive n fd b).prot.shadow = b.prot.shadow := rfl
@[simp] theorem onDrive_prot_sent : (onDrive n fd b).prot.sent = b.prot.sent := rfl
@[simp] theorem onDrive_prot_got : (onDrive n fd b).prot.got = b.prot.got := rfl
@[simp] theorem onDrive_prot_missed : (onDrive n fd b).prot.missed = b.prot.missed := rfl
@[simp] theorem onDrive_prot_missAt : (onDrive n fd b).prot.missAt = b.prot.missAt := rfl
@[simp] theorem onDrive_prot_role : (onDrive n fd b).prot.role = b.prot.role := rfl
@[simp] theorem onDrive_prot_writes : (onDrive n fd b).prot.writes = b.prot.writes := rfl
@[simp] theorem onDrive_prot_want66 : (onDrive n fd b).prot.want66 = b.prot.want66 := rfl
@[simp] theorem onDrive_prot_therm66 : (onDrive n fd b).prot.therm66 = b.prot.therm66 := rfl
@[simp] theorem onDrive_prot_sysOut : (onDrive n fd b).prot.sysOut = b.prot.sysOut := rfl
@[simp] theorem onDrive_prot_summitLost : (onDrive n fd b).prot.summitLost = b.prot.summitLost := rfl
@[simp] theorem onDrive_prot_summitReset : (onDrive n fd b).prot.summitReset = b.prot.summitReset := rfl
@[simp] theorem onDrive_prot_heldFor : (onDrive n fd b).prot.heldFor = b.prot.heldFor := rfl
@[simp] theorem onDrive_prot_resetAt : (onDrive n fd b).prot.resetAt = b.prot.resetAt := rfl
@[simp] theorem onDrive_prot_patrolLost : (onDrive n fd b).prot.patrolLost = b.prot.patrolLost := rfl
@[simp] theorem onDrive_prot_restartAt : (onDrive n fd b).prot.restartAt = b.prot.restartAt := rfl
@[simp] theorem onDrive_prot_statusMissed : (onDrive n fd b).prot.statusMissed = b.prot.statusMissed := rfl
@[simp] theorem onDrive_prot_statusAt : (onDrive n fd b).prot.statusAt = b.prot.statusAt := rfl
@[simp] theorem onDrive_prot_status : (onDrive n fd b).prot.status = b.prot.status := rfl
@[simp] theorem onDrive_prot_lossLine : (onDrive n fd b).prot.lossLine = b.prot.lossLine := rfl
@[simp] theorem onDrive_prot_chops : (onDrive n fd b).prot.chops = b.prot.chops := rfl
@[simp] theorem onDrive_prot_goose : (onDrive n fd b).prot.goose = b.prot.goose := rfl
@[simp] theorem onDrive_prot_prpSeen : (onDrive n fd b).prot.prpSeen = b.prot.prpSeen := rfl
@[simp] theorem onDrive_prot_avs : (onDrive n fd b).prot.avs = b.prot.avs := rfl
@[simp] theorem onDrive_prot_avRoots : (onDrive n fd b).prot.avRoots = b.prot.avRoots := rfl
@[simp] theorem onDrive_prot_avId : (onDrive n fd b).prot.avId = b.prot.avId := rfl
@[simp] theorem onDrive_prot_avMaps : (onDrive n fd b).prot.avMaps = b.prot.avMaps := rfl
@[simp] theorem onDrive_prot_stops : (onDrive n fd b).prot.stops = b.prot.stops := rfl
@[simp] theorem onDrive_prot_testQueue : (onDrive n fd b).prot.testQueue = b.prot.testQueue := rfl
@[simp] theorem onDrive_prot_frozen : (onDrive n fd b).prot.frozen = b.prot.frozen := rfl
@[simp] theorem onDrive_md : (onDrive n fd b).md = b.md := rfl
@[simp] theorem onDrive_safe : (onDrive n fd b).safe = b.safe := rfl
@[simp] theorem onDrive_pair : (onDrive n fd b).pair = b.pair := rfl
@[simp] theorem onDrive_trust : (onDrive n fd b).trust = b.trust := rfl
@[simp] theorem onDrive_eng : (onDrive n fd b).eng = b.eng := rfl
@[simp] theorem onDrive_fab : (onDrive n fd b).fab = b.fab := rfl
@[simp] theorem onDrive_ports : (onDrive n fd b).ports = b.ports := rfl
@[simp] theorem onDrive_chains : (onDrive n fd b).chains = b.chains := rfl
@[simp] theorem onDrive_cells : (onDrive n fd b).cells = b.cells := rfl
@[simp] theorem onDrive_terms : (onDrive n fd b).terms = b.terms := rfl
@[simp] theorem onDrive_image : (onDrive n fd b).image = b.image := rfl
@[simp] theorem onDrive_slal : (onDrive n fd b).slal = b.slal := rfl
@[simp] theorem onDrive_led : (onDrive n fd b).led = b.led := rfl
@[simp] theorem onDrive_ring : (onDrive n fd b).ring = b.ring := rfl
@[simp] theorem onDrive_dbg : (onDrive n fd b).dbg = b.dbg := rfl
@[simp] theorem onDrive_free : (onDrive n fd b).free = b.free := rfl

/-! ### onChop -/
@[simp] theorem onChop_host : (onChop n fk b).host = b.host := rfl
@[simp] theorem onChop_ev : (onChop n fk b).ev = b.ev := rfl
@[simp] theorem onChop_cfg : (onChop n fk b).cfg = b.cfg := rfl
@[simp] theorem onChop_staged : (onChop n fk b).staged = b.staged := rfl
@[simp] theorem onChop_nextCfg : (onChop n fk b).nextCfg = b.nextCfg := rfl
@[simp] theorem onChop_time : (onChop n fk b).time = b.time := rfl
@[simp] theorem onChop_synth : (onChop n fk b).synth = b.synth := rfl
@[simp] theorem onChop_net : (onChop n fk b).net = b.net := rfl
@[simp] theorem onChop_sup : (onChop n fk b).sup = b.sup := rfl
@[simp] theorem onChop_sense : (onChop n fk b).sense = b.sense := rfl
@[simp] theorem onChop_pmu : (onChop n fk b).pmu = b.pmu := rfl
@[simp] theorem onChop_tw : (onChop n fk b).tw = b.tw := rfl
@[simp] theorem onChop_recd : (onChop n fk b).recd = b.recd := rfl
@[simp] theorem onChop_snaps : (onChop n fk b).snaps = b.snaps := rfl
@[simp] theorem onChop_prot_inputs : (onChop n fk b).prot.inputs = b.prot.inputs := rfl
@[simp] theorem onChop_prot_comps : (onChop n fk b).prot.comps = b.prot.comps := rfl
@[simp] theorem onChop_prot_captures : (onChop n fk b).prot.captures = b.prot.captures := rfl
@[simp] theorem onChop_prot_capLost : (onChop n fk b).prot.capLost = b.prot.capLost := rfl
@[simp] theorem onChop_prot_ownOsc : (onChop n fk b).prot.ownOsc = b.prot.ownOsc := rfl
@[simp] theorem onChop_prot_copyA : (onChop n fk b).prot.copyA = b.prot.copyA := rfl
@[simp] theorem onChop_prot_copyB : (onChop n fk b).prot.copyB = b.prot.copyB := rfl
@[simp] theorem onChop_prot_burst : (onChop n fk b).prot.burst = b.prot.burst := rfl
@[simp] theorem onChop_prot_differAt : (onChop n fk b).prot.differAt = b.prot.differAt := rfl
@[simp] theorem onChop_prot_clearLegs : (onChop n fk b).prot.clearLegs = b.prot.clearLegs := rfl
@[simp] theorem onChop_prot_seen : (onChop n fk b).prot.seen = b.prot.seen := rfl
@[simp] theorem onChop_prot_tripId : (onChop n fk b).prot.tripId = b.prot.tripId := rfl
@[simp] theorem onChop_prot_matrixFault : (onChop n fk b).prot.matrixFault = b.prot.matrixFault := rfl
@[simp] theorem onChop_prot_crcBad : (onChop n fk b).prot.crcBad = b.prot.crcBad := rfl
@[simp] theorem onChop_prot_pcfgBad : (onChop n fk b).prot.pcfgBad = b.prot.pcfgBad := rfl
@[simp] theorem onChop_prot_legs : (onChop n fk b).prot.legs = b.prot.legs := rfl
@[simp] theorem onChop_prot_legEdges : (onChop n fk b).prot.legEdges = b.prot.legEdges := rfl
@[simp] theorem onChop_prot_shadow : (onChop n fk b).prot.shadow = b.prot.shadow := rfl
@[simp] theorem onChop_prot_sent : (onChop n fk b).prot.sent = b.prot.sent := rfl
@[simp] theorem onChop_prot_got : (onChop n fk b).prot.got = b.prot.got := rfl
@[simp] theorem onChop_prot_missed : (onChop n fk b).prot.missed = b.prot.missed := rfl
@[simp] theorem onChop_prot_missAt : (onChop n fk b).prot.missAt = b.prot.missAt := rfl
@[simp] theorem onChop_prot_role : (onChop n fk b).prot.role = b.prot.role := rfl
@[simp] theorem onChop_prot_writes : (onChop n fk b).prot.writes = b.prot.writes := rfl
@[simp] theorem onChop_prot_want66 : (onChop n fk b).prot.want66 = b.prot.want66 := rfl
@[simp] theorem onChop_prot_therm66 : (onChop n fk b).prot.therm66 = b.prot.therm66 := rfl
@[simp] theorem onChop_prot_sysOut : (onChop n fk b).prot.sysOut = b.prot.sysOut := rfl
@[simp] theorem onChop_prot_summitLost : (onChop n fk b).prot.summitLost = b.prot.summitLost := rfl
@[simp] theorem onChop_prot_summitReset : (onChop n fk b).prot.summitReset = b.prot.summitReset := rfl
@[simp] theorem onChop_prot_heldFor : (onChop n fk b).prot.heldFor = b.prot.heldFor := rfl
@[simp] theorem onChop_prot_resetAt : (onChop n fk b).prot.resetAt = b.prot.resetAt := rfl
@[simp] theorem onChop_prot_patrolLost : (onChop n fk b).prot.patrolLost = b.prot.patrolLost := rfl
@[simp] theorem onChop_prot_restartAt : (onChop n fk b).prot.restartAt = b.prot.restartAt := rfl
@[simp] theorem onChop_prot_statusMissed : (onChop n fk b).prot.statusMissed = b.prot.statusMissed := rfl
@[simp] theorem onChop_prot_statusAt : (onChop n fk b).prot.statusAt = b.prot.statusAt := rfl
@[simp] theorem onChop_prot_status : (onChop n fk b).prot.status = b.prot.status := rfl
@[simp] theorem onChop_prot_lossLine : (onChop n fk b).prot.lossLine = b.prot.lossLine := rfl
@[simp] theorem onChop_prot_drives : (onChop n fk b).prot.drives = b.prot.drives := rfl
@[simp] theorem onChop_prot_goose : (onChop n fk b).prot.goose = b.prot.goose := rfl
@[simp] theorem onChop_prot_prpSeen : (onChop n fk b).prot.prpSeen = b.prot.prpSeen := rfl
@[simp] theorem onChop_prot_avs : (onChop n fk b).prot.avs = b.prot.avs := rfl
@[simp] theorem onChop_prot_avRoots : (onChop n fk b).prot.avRoots = b.prot.avRoots := rfl
@[simp] theorem onChop_prot_avId : (onChop n fk b).prot.avId = b.prot.avId := rfl
@[simp] theorem onChop_prot_avMaps : (onChop n fk b).prot.avMaps = b.prot.avMaps := rfl
@[simp] theorem onChop_prot_stops : (onChop n fk b).prot.stops = b.prot.stops := rfl
@[simp] theorem onChop_prot_testQueue : (onChop n fk b).prot.testQueue = b.prot.testQueue := rfl
@[simp] theorem onChop_prot_frozen : (onChop n fk b).prot.frozen = b.prot.frozen := rfl
@[simp] theorem onChop_md : (onChop n fk b).md = b.md := rfl
@[simp] theorem onChop_safe : (onChop n fk b).safe = b.safe := rfl
@[simp] theorem onChop_pair : (onChop n fk b).pair = b.pair := rfl
@[simp] theorem onChop_trust : (onChop n fk b).trust = b.trust := rfl
@[simp] theorem onChop_eng : (onChop n fk b).eng = b.eng := rfl
@[simp] theorem onChop_fab : (onChop n fk b).fab = b.fab := rfl
@[simp] theorem onChop_ports : (onChop n fk b).ports = b.ports := rfl
@[simp] theorem onChop_chains : (onChop n fk b).chains = b.chains := rfl
@[simp] theorem onChop_cells : (onChop n fk b).cells = b.cells := rfl
@[simp] theorem onChop_terms : (onChop n fk b).terms = b.terms := rfl
@[simp] theorem onChop_image : (onChop n fk b).image = b.image := rfl
@[simp] theorem onChop_slal : (onChop n fk b).slal = b.slal := rfl
@[simp] theorem onChop_led : (onChop n fk b).led = b.led := rfl
@[simp] theorem onChop_ring : (onChop n fk b).ring = b.ring := rfl
@[simp] theorem onChop_dbg : (onChop n fk b).dbg = b.dbg := rfl
@[simp] theorem onChop_free : (onChop n fk b).free = b.free := rfl

/-! ### onGoose -/
@[simp] theorem onGoose_host : (onGoose n fg b).host = b.host := rfl
@[simp] theorem onGoose_ev : (onGoose n fg b).ev = b.ev := rfl
@[simp] theorem onGoose_cfg : (onGoose n fg b).cfg = b.cfg := rfl
@[simp] theorem onGoose_staged : (onGoose n fg b).staged = b.staged := rfl
@[simp] theorem onGoose_nextCfg : (onGoose n fg b).nextCfg = b.nextCfg := rfl
@[simp] theorem onGoose_time : (onGoose n fg b).time = b.time := rfl
@[simp] theorem onGoose_synth : (onGoose n fg b).synth = b.synth := rfl
@[simp] theorem onGoose_net : (onGoose n fg b).net = b.net := rfl
@[simp] theorem onGoose_sup : (onGoose n fg b).sup = b.sup := rfl
@[simp] theorem onGoose_sense : (onGoose n fg b).sense = b.sense := rfl
@[simp] theorem onGoose_pmu : (onGoose n fg b).pmu = b.pmu := rfl
@[simp] theorem onGoose_tw : (onGoose n fg b).tw = b.tw := rfl
@[simp] theorem onGoose_recd : (onGoose n fg b).recd = b.recd := rfl
@[simp] theorem onGoose_snaps : (onGoose n fg b).snaps = b.snaps := rfl
@[simp] theorem onGoose_prot_inputs : (onGoose n fg b).prot.inputs = b.prot.inputs := rfl
@[simp] theorem onGoose_prot_comps : (onGoose n fg b).prot.comps = b.prot.comps := rfl
@[simp] theorem onGoose_prot_captures : (onGoose n fg b).prot.captures = b.prot.captures := rfl
@[simp] theorem onGoose_prot_capLost : (onGoose n fg b).prot.capLost = b.prot.capLost := rfl
@[simp] theorem onGoose_prot_ownOsc : (onGoose n fg b).prot.ownOsc = b.prot.ownOsc := rfl
@[simp] theorem onGoose_prot_copyA : (onGoose n fg b).prot.copyA = b.prot.copyA := rfl
@[simp] theorem onGoose_prot_copyB : (onGoose n fg b).prot.copyB = b.prot.copyB := rfl
@[simp] theorem onGoose_prot_burst : (onGoose n fg b).prot.burst = b.prot.burst := rfl
@[simp] theorem onGoose_prot_differAt : (onGoose n fg b).prot.differAt = b.prot.differAt := rfl
@[simp] theorem onGoose_prot_clearLegs : (onGoose n fg b).prot.clearLegs = b.prot.clearLegs := rfl
@[simp] theorem onGoose_prot_seen : (onGoose n fg b).prot.seen = b.prot.seen := rfl
@[simp] theorem onGoose_prot_tripId : (onGoose n fg b).prot.tripId = b.prot.tripId := rfl
@[simp] theorem onGoose_prot_matrixFault : (onGoose n fg b).prot.matrixFault = b.prot.matrixFault := rfl
@[simp] theorem onGoose_prot_crcBad : (onGoose n fg b).prot.crcBad = b.prot.crcBad := rfl
@[simp] theorem onGoose_prot_pcfgBad : (onGoose n fg b).prot.pcfgBad = b.prot.pcfgBad := rfl
@[simp] theorem onGoose_prot_legs : (onGoose n fg b).prot.legs = b.prot.legs := rfl
@[simp] theorem onGoose_prot_legEdges : (onGoose n fg b).prot.legEdges = b.prot.legEdges := rfl
@[simp] theorem onGoose_prot_shadow : (onGoose n fg b).prot.shadow = b.prot.shadow := rfl
@[simp] theorem onGoose_prot_sent : (onGoose n fg b).prot.sent = b.prot.sent := rfl
@[simp] theorem onGoose_prot_got : (onGoose n fg b).prot.got = b.prot.got := rfl
@[simp] theorem onGoose_prot_missed : (onGoose n fg b).prot.missed = b.prot.missed := rfl
@[simp] theorem onGoose_prot_missAt : (onGoose n fg b).prot.missAt = b.prot.missAt := rfl
@[simp] theorem onGoose_prot_role : (onGoose n fg b).prot.role = b.prot.role := rfl
@[simp] theorem onGoose_prot_writes : (onGoose n fg b).prot.writes = b.prot.writes := rfl
@[simp] theorem onGoose_prot_want66 : (onGoose n fg b).prot.want66 = b.prot.want66 := rfl
@[simp] theorem onGoose_prot_therm66 : (onGoose n fg b).prot.therm66 = b.prot.therm66 := rfl
@[simp] theorem onGoose_prot_sysOut : (onGoose n fg b).prot.sysOut = b.prot.sysOut := rfl
@[simp] theorem onGoose_prot_summitLost : (onGoose n fg b).prot.summitLost = b.prot.summitLost := rfl
@[simp] theorem onGoose_prot_summitReset : (onGoose n fg b).prot.summitReset = b.prot.summitReset := rfl
@[simp] theorem onGoose_prot_heldFor : (onGoose n fg b).prot.heldFor = b.prot.heldFor := rfl
@[simp] theorem onGoose_prot_resetAt : (onGoose n fg b).prot.resetAt = b.prot.resetAt := rfl
@[simp] theorem onGoose_prot_patrolLost : (onGoose n fg b).prot.patrolLost = b.prot.patrolLost := rfl
@[simp] theorem onGoose_prot_restartAt : (onGoose n fg b).prot.restartAt = b.prot.restartAt := rfl
@[simp] theorem onGoose_prot_statusMissed : (onGoose n fg b).prot.statusMissed = b.prot.statusMissed := rfl
@[simp] theorem onGoose_prot_statusAt : (onGoose n fg b).prot.statusAt = b.prot.statusAt := rfl
@[simp] theorem onGoose_prot_status : (onGoose n fg b).prot.status = b.prot.status := rfl
@[simp] theorem onGoose_prot_lossLine : (onGoose n fg b).prot.lossLine = b.prot.lossLine := rfl
@[simp] theorem onGoose_prot_drives : (onGoose n fg b).prot.drives = b.prot.drives := rfl
@[simp] theorem onGoose_prot_chops : (onGoose n fg b).prot.chops = b.prot.chops := rfl
@[simp] theorem onGoose_prot_prpSeen : (onGoose n fg b).prot.prpSeen = b.prot.prpSeen := rfl
@[simp] theorem onGoose_prot_avs : (onGoose n fg b).prot.avs = b.prot.avs := rfl
@[simp] theorem onGoose_prot_avRoots : (onGoose n fg b).prot.avRoots = b.prot.avRoots := rfl
@[simp] theorem onGoose_prot_avId : (onGoose n fg b).prot.avId = b.prot.avId := rfl
@[simp] theorem onGoose_prot_avMaps : (onGoose n fg b).prot.avMaps = b.prot.avMaps := rfl
@[simp] theorem onGoose_prot_stops : (onGoose n fg b).prot.stops = b.prot.stops := rfl
@[simp] theorem onGoose_prot_testQueue : (onGoose n fg b).prot.testQueue = b.prot.testQueue := rfl
@[simp] theorem onGoose_prot_frozen : (onGoose n fg b).prot.frozen = b.prot.frozen := rfl
@[simp] theorem onGoose_md : (onGoose n fg b).md = b.md := rfl
@[simp] theorem onGoose_safe : (onGoose n fg b).safe = b.safe := rfl
@[simp] theorem onGoose_pair : (onGoose n fg b).pair = b.pair := rfl
@[simp] theorem onGoose_trust : (onGoose n fg b).trust = b.trust := rfl
@[simp] theorem onGoose_eng : (onGoose n fg b).eng = b.eng := rfl
@[simp] theorem onGoose_fab : (onGoose n fg b).fab = b.fab := rfl
@[simp] theorem onGoose_ports : (onGoose n fg b).ports = b.ports := rfl
@[simp] theorem onGoose_chains : (onGoose n fg b).chains = b.chains := rfl
@[simp] theorem onGoose_cells : (onGoose n fg b).cells = b.cells := rfl
@[simp] theorem onGoose_terms : (onGoose n fg b).terms = b.terms := rfl
@[simp] theorem onGoose_image : (onGoose n fg b).image = b.image := rfl
@[simp] theorem onGoose_slal : (onGoose n fg b).slal = b.slal := rfl
@[simp] theorem onGoose_led : (onGoose n fg b).led = b.led := rfl
@[simp] theorem onGoose_ring : (onGoose n fg b).ring = b.ring := rfl
@[simp] theorem onGoose_dbg : (onGoose n fg b).dbg = b.dbg := rfl
@[simp] theorem onGoose_free : (onGoose n fg b).free = b.free := rfl

/-! ### onOut -/
@[simp] theorem onOut_host : (onOut n fu b).host = b.host := rfl
@[simp] theorem onOut_ev : (onOut n fu b).ev = b.ev := rfl
@[simp] theorem onOut_cfg : (onOut n fu b).cfg = b.cfg := rfl
@[simp] theorem onOut_staged : (onOut n fu b).staged = b.staged := rfl
@[simp] theorem onOut_nextCfg : (onOut n fu b).nextCfg = b.nextCfg := rfl
@[simp] theorem onOut_time : (onOut n fu b).time = b.time := rfl
@[simp] theorem onOut_synth : (onOut n fu b).synth = b.synth := rfl
@[simp] theorem onOut_net : (onOut n fu b).net = b.net := rfl
@[simp] theorem onOut_sup : (onOut n fu b).sup = b.sup := rfl
@[simp] theorem onOut_sense : (onOut n fu b).sense = b.sense := rfl
@[simp] theorem onOut_pmu : (onOut n fu b).pmu = b.pmu := rfl
@[simp] theorem onOut_tw : (onOut n fu b).tw = b.tw := rfl
@[simp] theorem onOut_recd : (onOut n fu b).recd = b.recd := rfl
@[simp] theorem onOut_snaps : (onOut n fu b).snaps = b.snaps := rfl
@[simp] theorem onOut_prot : (onOut n fu b).prot = b.prot := rfl
@[simp] theorem onOut_md : (onOut n fu b).md = b.md := rfl
@[simp] theorem onOut_safe_filtA : (onOut n fu b).safe.filtA = b.safe.filtA := rfl
@[simp] theorem onOut_safe_filtB : (onOut n fu b).safe.filtB = b.safe.filtB := rfl
@[simp] theorem onOut_safe_filtAAt : (onOut n fu b).safe.filtAAt = b.safe.filtAAt := rfl
@[simp] theorem onOut_safe_filtBAt : (onOut n fu b).safe.filtBAt = b.safe.filtBAt := rfl
@[simp] theorem onOut_safe_demand : (onOut n fu b).safe.demand = b.safe.demand := rfl
@[simp] theorem onOut_safe_coreDemand : (onOut n fu b).safe.coreDemand = b.safe.coreDemand := rfl
@[simp] theorem onOut_safe_failA : (onOut n fu b).safe.failA = b.safe.failA := rfl
@[simp] theorem onOut_safe_failB : (onOut n fu b).safe.failB = b.safe.failB := rfl
@[simp] theorem onOut_safe_passA : (onOut n fu b).safe.passA = b.safe.passA := rfl
@[simp] theorem onOut_safe_passB : (onOut n fu b).safe.passB = b.safe.passB := rfl
@[simp] theorem onOut_safe_sptA : (onOut n fu b).safe.sptA = b.safe.sptA := rfl
@[simp] theorem onOut_safe_sptB : (onOut n fu b).safe.sptB = b.safe.sptB := rfl
@[simp] theorem onOut_safe_nextTest : (onOut n fu b).safe.nextTest = b.safe.nextTest := rfl
@[simp] theorem onOut_safe_testAt : (onOut n fu b).safe.testAt = b.safe.testAt := rfl
@[simp] theorem onOut_safe_dueDay : (onOut n fu b).safe.dueDay = b.safe.dueDay := rfl
@[simp] theorem onOut_safe_degr : (onOut n fu b).safe.degr = b.safe.degr := rfl
@[simp] theorem onOut_safe_degrBefore : (onOut n fu b).safe.degrBefore = b.safe.degrBefore := rfl
@[simp] theorem onOut_safe_degrItem : (onOut n fu b).safe.degrItem = b.safe.degrItem := rfl
@[simp] theorem onOut_safe_degrItem4 : (onOut n fu b).safe.degrItem4 = b.safe.degrItem4 := rfl
@[simp] theorem onOut_safe_degrAt : (onOut n fu b).safe.degrAt = b.safe.degrAt := rfl
@[simp] theorem onOut_safe_degrSince : (onOut n fu b).safe.degrSince = b.safe.degrSince := rfl
@[simp] theorem onOut_safe_expired : (onOut n fu b).safe.expired = b.safe.expired := rfl
@[simp] theorem onOut_safe_backstop : (onOut n fu b).safe.backstop = b.safe.backstop := rfl
@[simp] theorem onOut_safe_pw : (onOut n fu b).safe.pw = b.safe.pw := rfl
@[simp] theorem onOut_safe_session : (onOut n fu b).safe.session = b.safe.session := rfl
@[simp] theorem onOut_safe_commitDue : (onOut n fu b).safe.commitDue = b.safe.commitDue := rfl
@[simp] theorem onOut_safe_fails : (onOut n fu b).safe.fails = b.safe.fails := rfl
@[simp] theorem onOut_safe_lockUntil : (onOut n fu b).safe.lockUntil = b.safe.lockUntil := rfl
@[simp] theorem onOut_safe_log : (onOut n fu b).safe.log = b.safe.log := rfl
@[simp] theorem onOut_safe_logSeq : (onOut n fu b).safe.logSeq = b.safe.logSeq := rfl
@[simp] theorem onOut_pair : (onOut n fu b).pair = b.pair := rfl
@[simp] theorem onOut_trust : (onOut n fu b).trust = b.trust := rfl
@[simp] theorem onOut_eng : (onOut n fu b).eng = b.eng := rfl
@[simp] theorem onOut_fab : (onOut n fu b).fab = b.fab := rfl
@[simp] theorem onOut_ports : (onOut n fu b).ports = b.ports := rfl
@[simp] theorem onOut_chains : (onOut n fu b).chains = b.chains := rfl
@[simp] theorem onOut_cells : (onOut n fu b).cells = b.cells := rfl
@[simp] theorem onOut_terms : (onOut n fu b).terms = b.terms := rfl
@[simp] theorem onOut_image : (onOut n fu b).image = b.image := rfl
@[simp] theorem onOut_slal : (onOut n fu b).slal = b.slal := rfl
@[simp] theorem onOut_led : (onOut n fu b).led = b.led := rfl
@[simp] theorem onOut_ring : (onOut n fu b).ring = b.ring := rfl
@[simp] theorem onOut_dbg : (onOut n fu b).dbg = b.dbg := rfl
@[simp] theorem onOut_free : (onOut n fu b).free = b.free := rfl

/-! ### onRail -/
@[simp] theorem onRail_host : (onRail n fr b).host = b.host := rfl
@[simp] theorem onRail_ev : (onRail n fr b).ev = b.ev := rfl
@[simp] theorem onRail_cfg : (onRail n fr b).cfg = b.cfg := rfl
@[simp] theorem onRail_staged : (onRail n fr b).staged = b.staged := rfl
@[simp] theorem onRail_nextCfg : (onRail n fr b).nextCfg = b.nextCfg := rfl
@[simp] theorem onRail_time : (onRail n fr b).time = b.time := rfl
@[simp] theorem onRail_synth : (onRail n fr b).synth = b.synth := rfl
@[simp] theorem onRail_net : (onRail n fr b).net = b.net := rfl
@[simp] theorem onRail_sup_good : (onRail n fr b).sup.good = b.sup.good := rfl
@[simp] theorem onRail_sup_stage : (onRail n fr b).sup.stage = b.sup.stage := rfl
@[simp] theorem onRail_sup_patrolBank : (onRail n fr b).sup.patrolBank = b.sup.patrolBank := rfl
@[simp] theorem onRail_sup_coachBank : (onRail n fr b).sup.coachBank = b.sup.coachBank := rfl
@[simp] theorem onRail_sup_pcfgOk : (onRail n fr b).sup.pcfgOk = b.sup.pcfgOk := rfl
@[simp] theorem onRail_sup_coachOk : (onRail n fr b).sup.coachOk = b.sup.coachOk := rfl
@[simp] theorem onRail_sup_fail : (onRail n fr b).sup.fail = b.sup.fail := rfl
@[simp] theorem onRail_sup_liftMs : (onRail n fr b).sup.liftMs = b.sup.liftMs := rfl
@[simp] theorem onRail_sup_stageAt : (onRail n fr b).sup.stageAt = b.sup.stageAt := rfl
@[simp] theorem onRail_sup_dips : (onRail n fr b).sup.dips = b.sup.dips := rfl
@[simp] theorem onRail_sup_dipsDue : (onRail n fr b).sup.dipsDue = b.sup.dipsDue := rfl
@[simp] theorem onRail_sup_granted : (onRail n fr b).sup.granted = b.sup.granted := rfl
@[simp] theorem onRail_sup_readings : (onRail n fr b).sup.readings = b.sup.readings := rfl
@[simp] theorem onRail_sup_temp : (onRail n fr b).sup.temp = b.sup.temp := rfl
@[simp] theorem onRail_sup_badRun : (onRail n fr b).sup.badRun = b.sup.badRun := rfl
@[simp] theorem onRail_sup_okRun : (onRail n fr b).sup.okRun = b.sup.okRun := rfl
@[simp] theorem onRail_sup_diodeFault : (onRail n fr b).sup.diodeFault = b.sup.diodeFault := rfl
@[simp] theorem onRail_sup_warn : (onRail n fr b).sup.warn = b.sup.warn := rfl
@[simp] theorem onRail_sup_throttle : (onRail n fr b).sup.throttle = b.sup.throttle := rfl
@[simp] theorem onRail_sup_shutdown : (onRail n fr b).sup.shutdown = b.sup.shutdown := rfl
@[simp] theorem onRail_sup_hard : (onRail n fr b).sup.hard = b.sup.hard := rfl
@[simp] theorem onRail_sup_afterShut : (onRail n fr b).sup.afterShut = b.sup.afterShut := rfl
@[simp] theorem onRail_sup_n : (onRail n fr b).sup.n = b.sup.n := rfl
@[simp] theorem onRail_sup_shed : (onRail n fr b).sup.shed = b.sup.shed := rfl
@[simp] theorem onRail_sup_ringEvery : (onRail n fr b).sup.ringEvery = b.sup.ringEvery := rfl
@[simp] theorem onRail_sup_capFactor : (onRail n fr b).sup.capFactor = b.sup.capFactor := rfl
@[simp] theorem onRail_sup_capDue : (onRail n fr b).sup.capDue = b.sup.capDue := rfl
@[simp] theorem onRail_sup_stopBy : (onRail n fr b).sup.stopBy = b.sup.stopBy := rfl
@[simp] theorem onRail_sup_senseReset : (onRail n fr b).sup.senseReset = b.sup.senseReset := rfl
@[simp] theorem onRail_sup_senseResetAt : (onRail n fr b).sup.senseResetAt = b.sup.senseResetAt := rfl
@[simp] theorem onRail_sup_thermAt : (onRail n fr b).sup.thermAt = b.sup.thermAt := rfl
@[simp] theorem onRail_sup_evalAt : (onRail n fr b).sup.evalAt = b.sup.evalAt := rfl
@[simp] theorem onRail_sense : (onRail n fr b).sense = b.sense := rfl
@[simp] theorem onRail_pmu : (onRail n fr b).pmu = b.pmu := rfl
@[simp] theorem onRail_tw : (onRail n fr b).tw = b.tw := rfl
@[simp] theorem onRail_recd : (onRail n fr b).recd = b.recd := rfl
@[simp] theorem onRail_snaps : (onRail n fr b).snaps = b.snaps := rfl
@[simp] theorem onRail_prot : (onRail n fr b).prot = b.prot := rfl
@[simp] theorem onRail_md : (onRail n fr b).md = b.md := rfl
@[simp] theorem onRail_safe : (onRail n fr b).safe = b.safe := rfl
@[simp] theorem onRail_pair : (onRail n fr b).pair = b.pair := rfl
@[simp] theorem onRail_trust : (onRail n fr b).trust = b.trust := rfl
@[simp] theorem onRail_eng : (onRail n fr b).eng = b.eng := rfl
@[simp] theorem onRail_fab : (onRail n fr b).fab = b.fab := rfl
@[simp] theorem onRail_ports : (onRail n fr b).ports = b.ports := rfl
@[simp] theorem onRail_chains : (onRail n fr b).chains = b.chains := rfl
@[simp] theorem onRail_cells : (onRail n fr b).cells = b.cells := rfl
@[simp] theorem onRail_terms : (onRail n fr b).terms = b.terms := rfl
@[simp] theorem onRail_image : (onRail n fr b).image = b.image := rfl
@[simp] theorem onRail_slal : (onRail n fr b).slal = b.slal := rfl
@[simp] theorem onRail_led : (onRail n fr b).led = b.led := rfl
@[simp] theorem onRail_ring : (onRail n fr b).ring = b.ring := rfl
@[simp] theorem onRail_dbg : (onRail n fr b).dbg = b.dbg := rfl
@[simp] theorem onRail_free : (onRail n fr b).free = b.free := rfl

/-! ### onSrc -/
@[simp] theorem onSrc_host : (onSrc n fi b).host = b.host := rfl
@[simp] theorem onSrc_ev : (onSrc n fi b).ev = b.ev := rfl
@[simp] theorem onSrc_cfg : (onSrc n fi b).cfg = b.cfg := rfl
@[simp] theorem onSrc_staged : (onSrc n fi b).staged = b.staged := rfl
@[simp] theorem onSrc_nextCfg : (onSrc n fi b).nextCfg = b.nextCfg := rfl
@[simp] theorem onSrc_synth : (onSrc n fi b).synth = b.synth := rfl
@[simp] theorem onSrc_net : (onSrc n fi b).net = b.net := rfl
@[simp] theorem onSrc_sup : (onSrc n fi b).sup = b.sup := rfl
@[simp] theorem onSrc_sense : (onSrc n fi b).sense = b.sense := rfl
@[simp] theorem onSrc_pmu : (onSrc n fi b).pmu = b.pmu := rfl
@[simp] theorem onSrc_tw : (onSrc n fi b).tw = b.tw := rfl
@[simp] theorem onSrc_recd : (onSrc n fi b).recd = b.recd := rfl
@[simp] theorem onSrc_snaps : (onSrc n fi b).snaps = b.snaps := rfl
@[simp] theorem onSrc_prot : (onSrc n fi b).prot = b.prot := rfl
@[simp] theorem onSrc_md : (onSrc n fi b).md = b.md := rfl
@[simp] theorem onSrc_safe : (onSrc n fi b).safe = b.safe := rfl
@[simp] theorem onSrc_pair : (onSrc n fi b).pair = b.pair := rfl
@[simp] theorem onSrc_trust : (onSrc n fi b).trust = b.trust := rfl
@[simp] theorem onSrc_eng : (onSrc n fi b).eng = b.eng := rfl
@[simp] theorem onSrc_fab : (onSrc n fi b).fab = b.fab := rfl
@[simp] theorem onSrc_ports : (onSrc n fi b).ports = b.ports := rfl
@[simp] theorem onSrc_chains : (onSrc n fi b).chains = b.chains := rfl
@[simp] theorem onSrc_cells : (onSrc n fi b).cells = b.cells := rfl
@[simp] theorem onSrc_terms : (onSrc n fi b).terms = b.terms := rfl
@[simp] theorem onSrc_image : (onSrc n fi b).image = b.image := rfl
@[simp] theorem onSrc_slal : (onSrc n fi b).slal = b.slal := rfl
@[simp] theorem onSrc_led : (onSrc n fi b).led = b.led := rfl
@[simp] theorem onSrc_ring : (onSrc n fi b).ring = b.ring := rfl
@[simp] theorem onSrc_dbg : (onSrc n fi b).dbg = b.dbg := rfl
@[simp] theorem onSrc_free : (onSrc n fi b).free = b.free := rfl

/-! ### onSynth -/
@[simp] theorem onSynth_host : (onSynth n fy b).host = b.host := rfl
@[simp] theorem onSynth_ev : (onSynth n fy b).ev = b.ev := rfl
@[simp] theorem onSynth_cfg : (onSynth n fy b).cfg = b.cfg := rfl
@[simp] theorem onSynth_staged : (onSynth n fy b).staged = b.staged := rfl
@[simp] theorem onSynth_nextCfg : (onSynth n fy b).nextCfg = b.nextCfg := rfl
@[simp] theorem onSynth_time : (onSynth n fy b).time = b.time := rfl
@[simp] theorem onSynth_net : (onSynth n fy b).net = b.net := rfl
@[simp] theorem onSynth_sup : (onSynth n fy b).sup = b.sup := rfl
@[simp] theorem onSynth_sense : (onSynth n fy b).sense = b.sense := rfl
@[simp] theorem onSynth_pmu : (onSynth n fy b).pmu = b.pmu := rfl
@[simp] theorem onSynth_tw : (onSynth n fy b).tw = b.tw := rfl
@[simp] theorem onSynth_recd : (onSynth n fy b).recd = b.recd := rfl
@[simp] theorem onSynth_snaps : (onSynth n fy b).snaps = b.snaps := rfl
@[simp] theorem onSynth_prot : (onSynth n fy b).prot = b.prot := rfl
@[simp] theorem onSynth_md : (onSynth n fy b).md = b.md := rfl
@[simp] theorem onSynth_safe : (onSynth n fy b).safe = b.safe := rfl
@[simp] theorem onSynth_pair : (onSynth n fy b).pair = b.pair := rfl
@[simp] theorem onSynth_trust : (onSynth n fy b).trust = b.trust := rfl
@[simp] theorem onSynth_eng : (onSynth n fy b).eng = b.eng := rfl
@[simp] theorem onSynth_fab : (onSynth n fy b).fab = b.fab := rfl
@[simp] theorem onSynth_ports : (onSynth n fy b).ports = b.ports := rfl
@[simp] theorem onSynth_chains : (onSynth n fy b).chains = b.chains := rfl
@[simp] theorem onSynth_cells : (onSynth n fy b).cells = b.cells := rfl
@[simp] theorem onSynth_terms : (onSynth n fy b).terms = b.terms := rfl
@[simp] theorem onSynth_image : (onSynth n fy b).image = b.image := rfl
@[simp] theorem onSynth_slal : (onSynth n fy b).slal = b.slal := rfl
@[simp] theorem onSynth_led : (onSynth n fy b).led = b.led := rfl
@[simp] theorem onSynth_ring : (onSynth n fy b).ring = b.ring := rfl
@[simp] theorem onSynth_dbg : (onSynth n fy b).dbg = b.dbg := rfl
@[simp] theorem onSynth_free : (onSynth n fy b).free = b.free := rfl

/-! ### setCfg -/
@[simp] theorem setCfg_host : (setCfg n m l b).host = b.host := rfl
@[simp] theorem setCfg_ev : (setCfg n m l b).ev = b.ev := rfl
@[simp] theorem setCfg_staged : (setCfg n m l b).staged = b.staged := rfl
@[simp] theorem setCfg_nextCfg : (setCfg n m l b).nextCfg = b.nextCfg := rfl
@[simp] theorem setCfg_time : (setCfg n m l b).time = b.time := rfl
@[simp] theorem setCfg_synth : (setCfg n m l b).synth = b.synth := rfl
@[simp] theorem setCfg_net : (setCfg n m l b).net = b.net := rfl
@[simp] theorem setCfg_sup : (setCfg n m l b).sup = b.sup := rfl
@[simp] theorem setCfg_sense : (setCfg n m l b).sense = b.sense := rfl
@[simp] theorem setCfg_pmu : (setCfg n m l b).pmu = b.pmu := rfl
@[simp] theorem setCfg_tw : (setCfg n m l b).tw = b.tw := rfl
@[simp] theorem setCfg_recd : (setCfg n m l b).recd = b.recd := rfl
@[simp] theorem setCfg_snaps : (setCfg n m l b).snaps = b.snaps := rfl
@[simp] theorem setCfg_prot : (setCfg n m l b).prot = b.prot := rfl
@[simp] theorem setCfg_md : (setCfg n m l b).md = b.md := rfl
@[simp] theorem setCfg_safe : (setCfg n m l b).safe = b.safe := rfl
@[simp] theorem setCfg_pair : (setCfg n m l b).pair = b.pair := rfl
@[simp] theorem setCfg_trust : (setCfg n m l b).trust = b.trust := rfl
@[simp] theorem setCfg_eng : (setCfg n m l b).eng = b.eng := rfl
@[simp] theorem setCfg_fab : (setCfg n m l b).fab = b.fab := rfl
@[simp] theorem setCfg_ports : (setCfg n m l b).ports = b.ports := rfl
@[simp] theorem setCfg_chains : (setCfg n m l b).chains = b.chains := rfl
@[simp] theorem setCfg_cells : (setCfg n m l b).cells = b.cells := rfl
@[simp] theorem setCfg_terms : (setCfg n m l b).terms = b.terms := rfl
@[simp] theorem setCfg_image : (setCfg n m l b).image = b.image := rfl
@[simp] theorem setCfg_slal : (setCfg n m l b).slal = b.slal := rfl
@[simp] theorem setCfg_led : (setCfg n m l b).led = b.led := rfl
@[simp] theorem setCfg_ring : (setCfg n m l b).ring = b.ring := rfl
@[simp] theorem setCfg_dbg : (setCfg n m l b).dbg = b.dbg := rfl
@[simp] theorem setCfg_free : (setCfg n m l b).free = b.free := rfl

/-! ### lset -/
@[simp] theorem lset_host : (lset n m v b).host = b.host := rfl
@[simp] theorem lset_ev : (lset n m v b).ev = b.ev := rfl
@[simp] theorem lset_cfg : (lset n m v b).cfg = b.cfg := rfl
@[simp] theorem lset_staged : (lset n m v b).staged = b.staged := rfl
@[simp] theorem lset_nextCfg : (lset n m v b).nextCfg = b.nextCfg := rfl
@[simp] theorem lset_time : (lset n m v b).time = b.time := rfl
@[simp] theorem lset_synth : (lset n m v b).synth = b.synth := rfl
@[simp] theorem lset_net : (lset n m v b).net = b.net := rfl
@[simp] theorem lset_sup : (lset n m v b).sup = b.sup := rfl
@[simp] theorem lset_sense : (lset n m v b).sense = b.sense := rfl
@[simp] theorem lset_pmu : (lset n m v b).pmu = b.pmu := rfl
@[simp] theorem lset_tw : (lset n m v b).tw = b.tw := rfl
@[simp] theorem lset_recd : (lset n m v b).recd = b.recd := rfl
@[simp] theorem lset_snaps : (lset n m v b).snaps = b.snaps := rfl
@[simp] theorem lset_prot : (lset n m v b).prot = b.prot := rfl
@[simp] theorem lset_md : (lset n m v b).md = b.md := rfl
@[simp] theorem lset_safe : (lset n m v b).safe = b.safe := rfl
@[simp] theorem lset_pair : (lset n m v b).pair = b.pair := rfl
@[simp] theorem lset_trust : (lset n m v b).trust = b.trust := rfl
@[simp] theorem lset_eng : (lset n m v b).eng = b.eng := rfl
@[simp] theorem lset_fab : (lset n m v b).fab = b.fab := rfl
@[simp] theorem lset_ports : (lset n m v b).ports = b.ports := rfl
@[simp] theorem lset_chains : (lset n m v b).chains = b.chains := rfl
@[simp] theorem lset_cells : (lset n m v b).cells = b.cells := rfl
@[simp] theorem lset_terms : (lset n m v b).terms = b.terms := rfl
@[simp] theorem lset_image : (lset n m v b).image = b.image := rfl
@[simp] theorem lset_slal : (lset n m v b).slal = b.slal := rfl
@[simp] theorem lset_led_cells : (lset n m v b).led.cells = b.led.cells := rfl
@[simp] theorem lset_led_limb : (lset n m v b).led.limb = b.led.limb := rfl
@[simp] theorem lset_led_loops : (lset n m v b).led.loops = b.led.loops := rfl
@[simp] theorem lset_led_history : (lset n m v b).led.history = b.led.history := rfl
@[simp] theorem lset_led_histSets : (lset n m v b).led.histSets = b.led.histSets := rfl
@[simp] theorem lset_led_histAt : (lset n m v b).led.histAt = b.led.histAt := rfl
@[simp] theorem lset_led_ckpts : (lset n m v b).led.ckpts = b.led.ckpts := rfl
@[simp] theorem lset_led_nextDev : (lset n m v b).led.nextDev = b.led.nextDev := rfl
@[simp] theorem lset_led_writing : (lset n m v b).led.writing = b.led.writing := rfl
@[simp] theorem lset_led_heldCkpt : (lset n m v b).led.heldCkpt = b.led.heldCkpt := rfl
@[simp] theorem lset_led_periodicAt : (lset n m v b).led.periodicAt = b.led.periodicAt := rfl
@[simp] theorem lset_led_restored : (lset n m v b).led.restored = b.led.restored := rfl
@[simp] theorem lset_ring : (lset n m v b).ring = b.ring := rfl
@[simp] theorem lset_dbg : (lset n m v b).dbg = b.dbg := rfl
@[simp] theorem lset_free : (lset n m v b).free = b.free := rfl

/-! ### lsets -/
@[simp] theorem lsets_host : (lsets n m l b).host = b.host := rfl
@[simp] theorem lsets_ev : (lsets n m l b).ev = b.ev := rfl
@[simp] theorem lsets_cfg : (lsets n m l b).cfg = b.cfg := rfl
@[simp] theorem lsets_staged : (lsets n m l b).staged = b.staged := rfl
@[simp] theorem lsets_nextCfg : (lsets n m l b).nextCfg = b.nextCfg := rfl
@[simp] theorem lsets_time : (lsets n m l b).time = b.time := rfl
@[simp] theorem lsets_synth : (lsets n m l b).synth = b.synth := rfl
@[simp] theorem lsets_net : (lsets n m l b).net = b.net := rfl
@[simp] theorem lsets_sup : (lsets n m l b).sup = b.sup := rfl
@[simp] theorem lsets_sense : (lsets n m l b).sense = b.sense := rfl
@[simp] theorem lsets_pmu : (lsets n m l b).pmu = b.pmu := rfl
@[simp] theorem lsets_tw : (lsets n m l b).tw = b.tw := rfl
@[simp] theorem lsets_recd : (lsets n m l b).recd = b.recd := rfl
@[simp] theorem lsets_snaps : (lsets n m l b).snaps = b.snaps := rfl
@[simp] theorem lsets_prot : (lsets n m l b).prot = b.prot := rfl
@[simp] theorem lsets_md : (lsets n m l b).md = b.md := rfl
@[simp] theorem lsets_safe : (lsets n m l b).safe = b.safe := rfl
@[simp] theorem lsets_pair : (lsets n m l b).pair = b.pair := rfl
@[simp] theorem lsets_trust : (lsets n m l b).trust = b.trust := rfl
@[simp] theorem lsets_eng : (lsets n m l b).eng = b.eng := rfl
@[simp] theorem lsets_fab : (lsets n m l b).fab = b.fab := rfl
@[simp] theorem lsets_ports : (lsets n m l b).ports = b.ports := rfl
@[simp] theorem lsets_chains : (lsets n m l b).chains = b.chains := rfl
@[simp] theorem lsets_cells : (lsets n m l b).cells = b.cells := rfl
@[simp] theorem lsets_terms : (lsets n m l b).terms = b.terms := rfl
@[simp] theorem lsets_image : (lsets n m l b).image = b.image := rfl
@[simp] theorem lsets_slal : (lsets n m l b).slal = b.slal := rfl
@[simp] theorem lsets_led_cells : (lsets n m l b).led.cells = b.led.cells := rfl
@[simp] theorem lsets_led_limb : (lsets n m l b).led.limb = b.led.limb := rfl
@[simp] theorem lsets_led_loops : (lsets n m l b).led.loops = b.led.loops := rfl
@[simp] theorem lsets_led_history : (lsets n m l b).led.history = b.led.history := rfl
@[simp] theorem lsets_led_histSets : (lsets n m l b).led.histSets = b.led.histSets := rfl
@[simp] theorem lsets_led_histAt : (lsets n m l b).led.histAt = b.led.histAt := rfl
@[simp] theorem lsets_led_ckpts : (lsets n m l b).led.ckpts = b.led.ckpts := rfl
@[simp] theorem lsets_led_nextDev : (lsets n m l b).led.nextDev = b.led.nextDev := rfl
@[simp] theorem lsets_led_writing : (lsets n m l b).led.writing = b.led.writing := rfl
@[simp] theorem lsets_led_heldCkpt : (lsets n m l b).led.heldCkpt = b.led.heldCkpt := rfl
@[simp] theorem lsets_led_periodicAt : (lsets n m l b).led.periodicAt = b.led.periodicAt := rfl
@[simp] theorem lsets_led_restored : (lsets n m l b).led.restored = b.led.restored := rfl
@[simp] theorem lsets_ring : (lsets n m l b).ring = b.ring := rfl
@[simp] theorem lsets_dbg : (lsets n m l b).dbg = b.dbg := rfl
@[simp] theorem lsets_free : (lsets n m l b).free = b.free := rfl

/-! ### onLedCell -/
@[simp] theorem onLedCell_host : (onLedCell n fb b).host = b.host := rfl
@[simp] theorem onLedCell_ev : (onLedCell n fb b).ev = b.ev := rfl
@[simp] theorem onLedCell_cfg : (onLedCell n fb b).cfg = b.cfg := rfl
@[simp] theorem onLedCell_staged : (onLedCell n fb b).staged = b.staged := rfl
@[simp] theorem onLedCell_nextCfg : (onLedCell n fb b).nextCfg = b.nextCfg := rfl
@[simp] theorem onLedCell_time : (onLedCell n fb b).time = b.time := rfl
@[simp] theorem onLedCell_synth : (onLedCell n fb b).synth = b.synth := rfl
@[simp] theorem onLedCell_net : (onLedCell n fb b).net = b.net := rfl
@[simp] theorem onLedCell_sup : (onLedCell n fb b).sup = b.sup := rfl
@[simp] theorem onLedCell_sense : (onLedCell n fb b).sense = b.sense := rfl
@[simp] theorem onLedCell_pmu : (onLedCell n fb b).pmu = b.pmu := rfl
@[simp] theorem onLedCell_tw : (onLedCell n fb b).tw = b.tw := rfl
@[simp] theorem onLedCell_recd : (onLedCell n fb b).recd = b.recd := rfl
@[simp] theorem onLedCell_snaps : (onLedCell n fb b).snaps = b.snaps := rfl
@[simp] theorem onLedCell_prot : (onLedCell n fb b).prot = b.prot := rfl
@[simp] theorem onLedCell_md : (onLedCell n fb b).md = b.md := rfl
@[simp] theorem onLedCell_safe : (onLedCell n fb b).safe = b.safe := rfl
@[simp] theorem onLedCell_pair : (onLedCell n fb b).pair = b.pair := rfl
@[simp] theorem onLedCell_trust : (onLedCell n fb b).trust = b.trust := rfl
@[simp] theorem onLedCell_eng : (onLedCell n fb b).eng = b.eng := rfl
@[simp] theorem onLedCell_fab : (onLedCell n fb b).fab = b.fab := rfl
@[simp] theorem onLedCell_ports : (onLedCell n fb b).ports = b.ports := rfl
@[simp] theorem onLedCell_chains : (onLedCell n fb b).chains = b.chains := rfl
@[simp] theorem onLedCell_cells : (onLedCell n fb b).cells = b.cells := rfl
@[simp] theorem onLedCell_terms : (onLedCell n fb b).terms = b.terms := rfl
@[simp] theorem onLedCell_image : (onLedCell n fb b).image = b.image := rfl
@[simp] theorem onLedCell_slal : (onLedCell n fb b).slal = b.slal := rfl
@[simp] theorem onLedCell_led_words : (onLedCell n fb b).led.words = b.led.words := rfl
@[simp] theorem onLedCell_led_limb : (onLedCell n fb b).led.limb = b.led.limb := rfl
@[simp] theorem onLedCell_led_loops : (onLedCell n fb b).led.loops = b.led.loops := rfl
@[simp] theorem onLedCell_led_history : (onLedCell n fb b).led.history = b.led.history := rfl
@[simp] theorem onLedCell_led_histSets : (onLedCell n fb b).led.histSets = b.led.histSets := rfl
@[simp] theorem onLedCell_led_histAt : (onLedCell n fb b).led.histAt = b.led.histAt := rfl
@[simp] theorem onLedCell_led_ckpts : (onLedCell n fb b).led.ckpts = b.led.ckpts := rfl
@[simp] theorem onLedCell_led_nextDev : (onLedCell n fb b).led.nextDev = b.led.nextDev := rfl
@[simp] theorem onLedCell_led_writing : (onLedCell n fb b).led.writing = b.led.writing := rfl
@[simp] theorem onLedCell_led_heldCkpt : (onLedCell n fb b).led.heldCkpt = b.led.heldCkpt := rfl
@[simp] theorem onLedCell_led_periodicAt : (onLedCell n fb b).led.periodicAt = b.led.periodicAt := rfl
@[simp] theorem onLedCell_led_restored : (onLedCell n fb b).led.restored = b.led.restored := rfl
@[simp] theorem onLedCell_ring : (onLedCell n fb b).ring = b.ring := rfl
@[simp] theorem onLedCell_dbg : (onLedCell n fb b).dbg = b.dbg := rfl
@[simp] theorem onLedCell_free : (onLedCell n fb b).free = b.free := rfl

/-! ### onSlCell -/
@[simp] theorem onSlCell_host : (onSlCell n fv b).host = b.host := rfl
@[simp] theorem onSlCell_ev : (onSlCell n fv b).ev = b.ev := rfl
@[simp] theorem onSlCell_cfg : (onSlCell n fv b).cfg = b.cfg := rfl
@[simp] theorem onSlCell_staged : (onSlCell n fv b).staged = b.staged := rfl
@[simp] theorem onSlCell_nextCfg : (onSlCell n fv b).nextCfg = b.nextCfg := rfl
@[simp] theorem onSlCell_time : (onSlCell n fv b).time = b.time := rfl
@[simp] theorem onSlCell_synth : (onSlCell n fv b).synth = b.synth := rfl
@[simp] theorem onSlCell_net : (onSlCell n fv b).net = b.net := rfl
@[simp] theorem onSlCell_sup : (onSlCell n fv b).sup = b.sup := rfl
@[simp] theorem onSlCell_sense : (onSlCell n fv b).sense = b.sense := rfl
@[simp] theorem onSlCell_pmu : (onSlCell n fv b).pmu = b.pmu := rfl
@[simp] theorem onSlCell_tw : (onSlCell n fv b).tw = b.tw := rfl
@[simp] theorem onSlCell_recd : (onSlCell n fv b).recd = b.recd := rfl
@[simp] theorem onSlCell_snaps : (onSlCell n fv b).snaps = b.snaps := rfl
@[simp] theorem onSlCell_prot : (onSlCell n fv b).prot = b.prot := rfl
@[simp] theorem onSlCell_md : (onSlCell n fv b).md = b.md := rfl
@[simp] theorem onSlCell_safe : (onSlCell n fv b).safe = b.safe := rfl
@[simp] theorem onSlCell_pair : (onSlCell n fv b).pair = b.pair := rfl
@[simp] theorem onSlCell_trust : (onSlCell n fv b).trust = b.trust := rfl
@[simp] theorem onSlCell_eng : (onSlCell n fv b).eng = b.eng := rfl
@[simp] theorem onSlCell_fab : (onSlCell n fv b).fab = b.fab := rfl
@[simp] theorem onSlCell_ports : (onSlCell n fv b).ports = b.ports := rfl
@[simp] theorem onSlCell_chains : (onSlCell n fv b).chains = b.chains := rfl
@[simp] theorem onSlCell_cells : (onSlCell n fv b).cells = b.cells := rfl
@[simp] theorem onSlCell_terms : (onSlCell n fv b).terms = b.terms := rfl
@[simp] theorem onSlCell_image : (onSlCell n fv b).image = b.image := rfl
@[simp] theorem onSlCell_slal_cmd : (onSlCell n fv b).slal.cmd = b.slal.cmd := rfl
@[simp] theorem onSlCell_slal_ref : (onSlCell n fv b).slal.ref = b.slal.ref := rfl
@[simp] theorem onSlCell_slal_limb : (onSlCell n fv b).slal.limb = b.slal.limb := rfl
@[simp] theorem onSlCell_slal_cmdErr : (onSlCell n fv b).slal.cmdErr = b.slal.cmdErr := rfl
@[simp] theorem onSlCell_led : (onSlCell n fv b).led = b.led := rfl
@[simp] theorem onSlCell_ring : (onSlCell n fv b).ring = b.ring := rfl
@[simp] theorem onSlCell_dbg : (onSlCell n fv b).dbg = b.dbg := rfl
@[simp] theorem onSlCell_free : (onSlCell n fv b).free = b.free := rfl

/-! ### queueSet -/
@[simp] theorem queueSet_host : (queueSet n m v b).host = b.host := rfl
@[simp] theorem queueSet_ev : (queueSet n m v b).ev = b.ev := rfl
@[simp] theorem queueSet_cfg : (queueSet n m v b).cfg = b.cfg := rfl
@[simp] theorem queueSet_staged : (queueSet n m v b).staged = b.staged := rfl
@[simp] theorem queueSet_nextCfg : (queueSet n m v b).nextCfg = b.nextCfg := rfl
@[simp] theorem queueSet_time : (queueSet n m v b).time = b.time := rfl
@[simp] theorem queueSet_synth : (queueSet n m v b).synth = b.synth := rfl
@[simp] theorem queueSet_net : (queueSet n m v b).net = b.net := rfl
@[simp] theorem queueSet_sup : (queueSet n m v b).sup = b.sup := rfl
@[simp] theorem queueSet_sense : (queueSet n m v b).sense = b.sense := rfl
@[simp] theorem queueSet_pmu : (queueSet n m v b).pmu = b.pmu := rfl
@[simp] theorem queueSet_tw : (queueSet n m v b).tw = b.tw := rfl
@[simp] theorem queueSet_recd : (queueSet n m v b).recd = b.recd := rfl
@[simp] theorem queueSet_snaps : (queueSet n m v b).snaps = b.snaps := rfl
@[simp] theorem queueSet_prot : (queueSet n m v b).prot = b.prot := rfl
@[simp] theorem queueSet_md : (queueSet n m v b).md = b.md := rfl
@[simp] theorem queueSet_safe : (queueSet n m v b).safe = b.safe := rfl
@[simp] theorem queueSet_pair : (queueSet n m v b).pair = b.pair := rfl
@[simp] theorem queueSet_trust : (queueSet n m v b).trust = b.trust := rfl
@[simp] theorem queueSet_eng : (queueSet n m v b).eng = b.eng := rfl
@[simp] theorem queueSet_fab : (queueSet n m v b).fab = b.fab := rfl
@[simp] theorem queueSet_ports : (queueSet n m v b).ports = b.ports := rfl
@[simp] theorem queueSet_cells : (queueSet n m v b).cells = b.cells := rfl
@[simp] theorem queueSet_terms : (queueSet n m v b).terms = b.terms := rfl
@[simp] theorem queueSet_image : (queueSet n m v b).image = b.image := rfl
@[simp] theorem queueSet_slal : (queueSet n m v b).slal = b.slal := rfl
@[simp] theorem queueSet_led : (queueSet n m v b).led = b.led := rfl
@[simp] theorem queueSet_ring : (queueSet n m v b).ring = b.ring := rfl
@[simp] theorem queueSet_dbg : (queueSet n m v b).dbg = b.dbg := rfl
@[simp] theorem queueSet_free : (queueSet n m v b).free = b.free := rfl

end Sys2Proof.Machine
end

