-- ==== Sys2Proof/Laws/Tbl.lean ====
section
/-! SUPPORT. What the operations of a table do: a read after a write, and that every write keeps the canonical form. -/

namespace Sys2Proof.Machine

variable {α : Type}

@[simp] theorem Tbl.get_nil (d : α) (k : Nat) : Tbl.get d [] k = d := rfl

/-- The keys of a canonical table rise. -/
theorem Tbl.get_above (d : α) (t : Tbl α) (k : Nat) (h : Tbl.above k t = true) : Tbl.get d t k = d := by
  cases t with
  | nil => rfl
  | cons x t =>
    obtain ⟨j, v⟩ := x
    have h : k < j := by simpa [Tbl.above] using h
    have : k ≠ j := by omega
    simp [Tbl.get, h, this]

theorem Tbl.above_of_lt {i k : Nat} (t : Tbl α) (hik : i < k) (h : Tbl.above k t = true) : Tbl.above i t = true := by
  cases t with
  | nil => rfl
  | cons x t => simp [Tbl.above] at *; omega

variable [DecidableEq α]

/-- A value that is no default reads back, in any table. -/
theorem Tbl.get_set_self (d : α) (t : Tbl α) (k : Nat) (v : α) (hv : v ≠ d) : Tbl.get d (Tbl.set d t k v) k = v := by
  induction t with
  | nil => simp [Tbl.set, hv, Tbl.get]
  | cons x t ih =>
    obtain ⟨j, w⟩ := x
    simp only [Tbl.set, hv, if_false]
    split
    · simp [Tbl.get]
    · split
      · simp [Tbl.get]
      · next h1 h2 => simp [Tbl.get, h1, h2, ih]

/-- A write of a value that is no default leaves every other key alone, in any table. -/
theorem Tbl.get_set_other (d : α) (t : Tbl α) (k k' : Nat) (v : α) (hv : v ≠ d) (hk : k' ≠ k) :
    Tbl.get d (Tbl.set d t k v) k' = Tbl.get d t k' := by
  induction t with
  | nil => simp [Tbl.set, hv, Tbl.get, hk]
  | cons x t ih =>
    obtain ⟨j, w⟩ := x
    simp only [Tbl.set, hv, if_false]
    split
    · next h =>
      simp only [Tbl.get, hk, if_false]
      by_cases hlt : k' < k
      · have h1 : k' ≠ j := by omega
        have h2 : k' < j := by omega
        simp [hlt, h1, h2]
      · simp [hlt]
    · split
      · next h => subst h; simp [Tbl.get, hk]
      · simp [Tbl.get, ih]

theorem Tbl.above_set (d : α) (t : Tbl α) (i k : Nat) (v : α) (hik : i < k) (h : Tbl.above i t = true)
    (hw : Tbl.wf d t = true) : Tbl.above i (Tbl.set d t k v) = true := by
  cases t with
  | nil => simp only [Tbl.set]; split <;> simp [Tbl.above, hik]
  | cons x t =>
    obtain ⟨j, w⟩ := x
    simp only [Tbl.wf, Bool.and_eq_true] at hw
    have hj : i < j := by simpa [Tbl.above] using h
    simp only [Tbl.set]
    split
    · split <;> simp [Tbl.above, hj, hik]
    · split
      · split
        · exact Tbl.above_of_lt t hj hw.1.2
        · simp [Tbl.above, hik]
      · simp [Tbl.above, hj]

/-- A write keeps the canonical form. -/
theorem Tbl.wf_set (d : α) (t : Tbl α) (k : Nat) (v : α) (h : Tbl.wf d t = true) : Tbl.wf d (Tbl.set d t k v) = true := by
  induction t with
  | nil => simp only [Tbl.set]; split <;> simp_all [Tbl.wf, Tbl.above]
  | cons x t ih =>
    obtain ⟨j, w⟩ := x
    have h0 := h
    simp only [Tbl.wf, Bool.and_eq_true] at h
    obtain ⟨⟨hw, ha⟩, ht⟩ := h
    simp only [Tbl.set]
    split
    · next hk =>
      split
      · exact h0
      · next hv => simp [Tbl.wf, Tbl.above, hv, hk] ; exact ⟨⟨by simpa using hw, ha⟩, ht⟩
    · split
      · split
        · exact ht
        · next hkj hv => subst hkj; simp [Tbl.wf, hv, ha, ht]
      · next h1 h2 =>
        have hjk : j < k := by omega
        simp only [Tbl.wf, Bool.and_eq_true]
        exact ⟨⟨hw, Tbl.above_set d t j k v hjk ha ht⟩, ih ht⟩

/-- In a canonical table every write reads back. -/
theorem Tbl.get_set (d : α) (t : Tbl α) (k : Nat) (v : α) (h : Tbl.wf d t = true) : Tbl.get d (Tbl.set d t k v) k = v := by
  by_cases hv : v = d
  · subst hv
    induction t with
    | nil => simp [Tbl.set]
    | cons x t ih =>
      obtain ⟨j, w⟩ := x
      simp only [Tbl.wf, Bool.and_eq_true] at h
      simp only [Tbl.set, if_true]
      split
      · next hk => have : k ≠ j := by omega
                   simp [Tbl.get, hk, this]
      · split
        · next hk => subst hk; exact Tbl.get_above _ _ _ h.1.2
        · next h1 h2 => simp [Tbl.get, h1, h2, ih h.2]
  · exact Tbl.get_set_self d t k v hv

/-- In a canonical table a write leaves every other key alone. -/
theorem Tbl.get_set_ne (d : α) (t : Tbl α) (k k' : Nat) (v : α) (h : Tbl.wf d t = true) (hk : k' ≠ k) :
    Tbl.get d (Tbl.set d t k v) k' = Tbl.get d t k' := by
  by_cases hv : v = d
  · subst hv
    induction t with
    | nil => simp [Tbl.set]
    | cons x t ih =>
      obtain ⟨j, w⟩ := x
      simp only [Tbl.wf, Bool.and_eq_true] at h
      simp only [Tbl.set, if_true]
      split
      · rfl
      · split
        · next hkj =>
          subst hkj
          simp only [Tbl.get, hk, if_false]
          split
          · next hlt => exact Tbl.get_above _ _ _ (Tbl.above_of_lt t hlt h.1.2)
          · rfl
        · simp [Tbl.get, ih h.2]
  · exact Tbl.get_set_other d t k k' v hv hk

/-- A change of one key keeps the canonical form. -/
theorem Tbl.wf_upd (d : α) (t : Tbl α) (k : Nat) (f : α → α) (h : Tbl.wf d t = true) : Tbl.wf d (Tbl.upd d t k f) = true :=
  Tbl.wf_set d t k _ h

/-- A range of writes keeps the canonical form. -/
theorem Tbl.wf_setRange (d : α) (vs : List α) : ∀ (t : Tbl α) (k : Nat), Tbl.wf d t = true →
    Tbl.wf d (Tbl.setRange d t k vs) = true := by
  induction vs with
  | nil => intro t k h; exact h
  | cons v vs ih => intro t k h; exact ih _ _ (Tbl.wf_set d t k v h)

end Sys2Proof.Machine
end

