-- ==== Sys2Proof/Laws/Ops.lean ====
section
/-! SUPPORT. What the shared operations of host commands do: completion, the gate, waiting, raising an event. -/

namespace Sys2Proof.Machine

/-- A message of a vector counts one for it. -/
theorem msix_get (v u : Nat) (b : Block) :
    Tbl.get 0 (msix v b).host.msix u = Tbl.get 0 b.host.msix u + if u = v then 1 else 0 := by
  unfold msix Tbl.upd
  by_cases h : u = v
  · subst h; simp [Tbl.get_set_self 0 b.host.msix u _ (Nat.succ_ne_zero _)]
  · simp [Tbl.get_set_other 0 b.host.msix v u _ (Nat.succ_ne_zero _) h, h]

/-- A message changes nothing but the count of its vector. -/
theorem msix_frame (v : Nat) (b : Block) : msix v b = { b with host.msix := (msix v b).host.msix } := rfl

/-- Completion answers the request and changes nothing else. -/
theorem complete_answers (h : Hdr) (st : Status) (d : Nat) (args : List W32) (b : Block) :
    Answers h st d args b (complete h st d args b) := by
  refine ⟨⟨?_, ?_, ?_⟩, ?_, ?_, ?_, rfl⟩
  · exact Tbl.get_set_self [] _ _ _ (by simp)
  · obtain ⟨⟨m, hm⟩, tag⟩ := h
    simp [complete, msix, hm]
  · obtain ⟨⟨m, hm⟩, tag⟩ := h
    simp [complete, msix, hm]
  · unfold complete; rw [msix_get]; simp
  · intro v hv; unfold complete; rw [msix_get]; simp [hv]
  · intro k hk
    have hk' : k.val ≠ h.mbx.val := fun e => hk (Fin.ext e)
    refine ⟨Tbl.get_set_other [] _ _ _ _ (by simp) hk', ?_, ?_⟩ <;>
      (simp [complete, msix]; omega)

/-- A command that is admitted runs its rule. -/
theorem runCmd_admitted (h : Hdr) (op : Nat) (objs : List Obj) (f : Block → CmdOut) (b : Block) (ha : Admitted b op objs) :
    runCmd h op objs f b = finish h op b (f b) := by
  obtain ⟨h0, h1, h2, h3⟩ := ha
  simp [runCmd, gate, h0, h1, h2, h3]

/-- While FAIL = 4 the boot ROM answers ST_NOT_READY. -/
theorem runCmd_recovery (h : Hdr) (op : Nat) (objs : List Obj) (f : Block → CmdOut) (b : Block) (hf : b.sup.fail = 4) :
    runCmd h op objs f b = complete h .notReady noDetail [] b := by
  simp [runCmd, gate, hf]

/-- A command outside an accepted session ends with ST_SESSION. -/
theorem runCmd_no_session (h : Hdr) (op : Nat) (objs : List Obj) (f : Block → CmdOut) (b : Block)
    (h0 : b.sup.fail ≠ 4) (hs : b.host.sessionAccepted = false) :
    runCmd h op objs f b = complete h .session noDetail [] b := by
  simp [runCmd, gate, h0, hs]

/-- A command whose feature was not negotiated ends with ST_FEATURE. -/
theorem runCmd_no_feature (h : Hdr) (op : Nat) (objs : List Obj) (f : Block → CmdOut) (b : Block)
    (h0 : b.sup.fail ≠ 4) (hs : b.host.sessionAccepted = true) (hf : feature b (groupFeature op) = false) :
    runCmd h op objs f b = complete h .feature noDetail [] b := by
  simp [runCmd, gate, h0, hs, hf]

/-- A command that names an object held by a waiting command ends with ST_BUSY. -/
theorem runCmd_held (h : Hdr) (op : Nat) (objs : List Obj) (f : Block → CmdOut) (b : Block)
    (h0 : b.sup.fail ≠ 4) (hs : b.host.sessionAccepted = true) (hf : feature b (groupFeature op) = true)
    (ho : objs.any (held b) = true) : runCmd h op objs f b = complete h .busy noDetail [] b := by
  simp [runCmd, gate, h0, hs, hf, ho]

/-- Every meaning of the form `State.act` completes. -/
theorem completes_act {i : Instr} {s : State} {f : Block → Block} {P : Block → Prop} (h : exec i s = s.act f)
    (hp : P (f s.blk)) : Completes i s P := ⟨_, h, rfl, hp⟩

/-! ### What a command comes to -/

/-- A command that is done answers ST_OK with its arguments. -/
theorem finish_ok (h : Hdr) (op : Nat) (b b' : Block) (args : List W32) :
    Answers h .ok noDetail args b' (finish h op b (.ok b' args)) := complete_answers h .ok noDetail args b'

/-- A command that is refused answers its status and leaves the rest of the block as it was. -/
theorem finish_fail (h : Hdr) (op : Nat) (b : Block) (st : Status) (d : Nat) :
    Answers h st d [] b (finish h op b (.fail st d)) := complete_answers h st d [] b

/-- A bulk transfer on a channel that is free. -/
theorem startBulk_free (x : Bulk) (b : Block) (c : Nat)
    (h : (List.range 4).find? (fun k => (Tbl.get none b.host.channels k).isNone) = some c) :
    startBulk x b = { b with host := { b.host with channels := Tbl.set none b.host.channels c (some x) } } := by
  unfold startBulk; rw [h]

/-- A bulk transfer when all four channels are taken. -/
theorem startBulk_waits (x : Bulk) (b : Block)
    (h : (List.range 4).find? (fun k => (Tbl.get none b.host.channels k).isNone) = none) :
    startBulk x b = { b with host := { b.host with bulkWait := b.host.bulkWait ++ [x] } } := by
  unfold startBulk; rw [h]

/-! ### Events, actions, mirrored commands -/

/-- The newest event after an event is that event, its payload cut to the twelve words of a record. -/
theorem raise_last (e : Ev) (p : List W32) (b : Block) (h : p.length ≤ 12) : LastEvent (raise e p b) e p := by
  simp [LastEvent, raise, raiseCode, List.take_of_length_le h]

/-- An event takes the next number. -/
theorem raise_seq (e : Ev) (p : List W32) (b : Block) : (raise e p b).ev.seq = b.ev.seq + 1 := rfl

/-- Cancelling touches the pending actions and the events alone. -/
theorem cancelActions_frame (p : Action → Bool) (st : Status) (b : Block) :
    cancelActions p st b = { b with
      host.actions := b.host.actions.filter (fun a => !p a), ev := (cancelActions p st b).ev } := by
  have key : ∀ (l : List Action) (x : Block),
      l.foldl (fun b a => actionEvent a st b) x = { x with ev := (l.foldl (fun b a => actionEvent a st b) x).ev } := by
    intro l; induction l with
    | nil => intro x; rfl
    | cons a l ih => intro x; rw [List.foldl_cons, ih]; rfl
  unfold cancelActions; rw [key]

/-- With no pending action that satisfies `p` nothing is cancelled. -/
theorem cancelActions_none (p : Action → Bool) (st : Status) (b : Block) (h : ∀ a ∈ b.host.actions, p a = false) :
    cancelActions p st b = b := by
  have h1 : b.host.actions.filter p = [] := by simpa [List.filter_eq_nil_iff] using h
  have h2 : b.host.actions.filter (fun a => !p a) = b.host.actions := List.filter_eq_self.mpr (by simpa using h)
  simp [cancelActions, h1, h2]

/-- Only the lead notes a command for the other unit, and nothing else. -/
theorem mirror_frame (B op : Nat) (l : List W32) (b : Block) :
    mirror B op l b = { b with pair.cmdSent := (mirror B op l b).pair.cmdSent } := by
  unfold mirror; split <;> rfl

/-- A unit that is no lead mirrors nothing. -/
theorem mirror_not_lead (B op : Nat) (l : List W32) (b : Block) (h : isLead b = false) : mirror B op l b = b := by
  simp [mirror, h]

/-! ### Exchange variables -/

/-- The value written is the latest value. -/
theorem xread_xwrite (id : Nat) (v : W32) (b : Block) : xread (xwrite id v b) id = v := by
  have h : Tbl.get {} (xwrite id v b).fab.xvars id = _ := Tbl.get_set_self _ _ _ _ (by intro h; simpa using congrArg (fun x => x.cur.at?) h)
  exact congrArg (fun x => x.cur.val) h

/-- A write leaves every other variable alone. -/
theorem xread_xwrite_ne (id j : Nat) (v : W32) (b : Block) (hj : j ≠ id) : xread (xwrite id v b) j = xread b j := by
  have h : Tbl.get {} (xwrite id v b).fab.xvars j = _ :=
    Tbl.get_set_other _ _ _ _ _ (by intro h; simpa using congrArg (fun x => x.cur.at?) h) hj
  exact congrArg (fun x => x.cur.val) h

/-- Writing a range changes the exchange variables alone. -/
theorem xwrites_frame (id : Nat) (l : List W32) (b : Block) :
    xwrites id l b = { b with fab.xvars := (xwrites id l b).fab.xvars } := by
  induction l generalizing id b with
  | nil => rfl
  | cons v l ih => rw [xwrites, ih]; rfl

/-! ### Accessors of the tables -/

/-- A change of a cell position, in the canonical table. -/
theorem hub_onHub (n : Nat) (f : HubCell → HubCell) (b : Block) (h : Tbl.wf {} b.cells = true) :
    hub (onHub n f b) n = f (hub b n) := Tbl.get_set _ _ _ _ h
theorem hub_onHub_ne (n k : Nat) (f : HubCell → HubCell) (b : Block) (h : Tbl.wf {} b.cells = true) (hk : k ≠ n) :
    hub (onHub n f b) k = hub b k := Tbl.get_set_ne _ _ _ _ _ h hk
theorem term_onTerm (n : Nat) (f : CellTerm → CellTerm) (b : Block) (h : Tbl.wf {} b.terms = true) :
    term (onTerm n f b) n = f (term b n) := Tbl.get_set _ _ _ _ h
theorem term_onTerm_ne (n k : Nat) (f : CellTerm → CellTerm) (b : Block) (h : Tbl.wf {} b.terms = true) (hk : k ≠ n) :
    term (onTerm n f b) k = term b k := Tbl.get_set_ne _ _ _ _ _ h hk

/-- A change to anything but what an unlisted entry holds reads back in any table. -/
theorem engine_onEngine (e : Nat) (f : Engine → Engine) (b : Block) (h : f (engine b e) ≠ {}) :
    engine (onEngine e f b) e = f (engine b e) := Tbl.get_set_self _ _ _ _ h
theorem engine_onEngine_ne (e k : Nat) (f : Engine → Engine) (b : Block) (h : f (engine b e) ≠ {}) (hk : k ≠ e) :
    engine (onEngine e f b) k = engine b k := Tbl.get_set_other _ _ _ _ _ h hk
theorem chain_onChain (p : Nat) (f : Chain → Chain) (b : Block) (h : f (chain b p) ≠ {}) :
    chain (onChain p f b) p = f (chain b p) := Tbl.get_set_self _ _ _ _ h
theorem port_onPort (k : Nat) (f : Port → Port) (b : Block) (h : f (port b k) ≠ {}) :
    port (onPort k f b) k = f (port b k) := Tbl.get_set_self _ _ _ _ h

/-! ### Stops -/

/-- Sending BLOCK touches the ports alone. -/
theorem sendBlock_frame (slots : Nat) (b : Block) :
    sendBlock slots b = { b with ports := (sendBlock slots b).ports } := by
  unfold sendBlock
  generalize List.range 32 = l
  induction l generalizing b with
  | nil => rfl
  | cons k l ih =>
    rw [List.foldl_cons]
    by_cases h : laneActive b k = true
    · simp only [h, if_true]; rw [ih]; rfl
    · simp only [h]; exact ih b

/-- In SAFE, while a stop stands, and in a partner there is nothing to stop (R295, R404). -/
theorem immediateStop_none (cause : Nat) (b : Block) (h : b.md.mode = .safe ∨ b.md.imm.isSome ∨ isPartner b) :
    immediateStop cause b = b := by
  simp [immediateStop, h]

end Sys2Proof.Machine
end

