-- ==== Sys2Proof/WellFormed.lean ====
section
/-! DEFINITION. What the spec's formats say of a command's operands before any rule of the command is applied: sizes of
frames and argument lists, ranges of fixed-width numbers (log 5). -/

namespace Sys2Proof

/-- A number of 32 bits. -/
def wf32 (n : Nat) : Bool := decide (n < 2 ^ 32)

/-- A stride number, a count of picoseconds: 64 bits. -/
def wf64 (n : Nat) : Bool := decide (n < 2 ^ 64)

/-- Argument words of one request: at most the 262,144 words of indirect arguments (R536). -/
def wfArgs (l : List W32) : Bool := decide (l.length ≤ 262144)

/-- A password of 12 to 64 bytes (R445). -/
def wfPassword (l : List (BitVec 8)) : Bool := decide (12 ≤ l.length) && decide (l.length ≤ 64)

/-- `n` channels of at least one stride: no list longer than `m` samples. -/
def wfBlock {w : Nat} (n m : Nat) (l : List (List (BitVec w))) : Bool :=
  decide (l.length = n) && l.all fun c => decide (c.length = m)

/-- The operands have the sizes of the spec's formats. -/
def Instr.wf : Instr → Bool
  | .mbxDoorbell _ requests => decide (requests.length = 8) && requests.all fun r => decide (r.length ≤ 1024)
  | .indirectArgsFetched _ args => wfArgs args
  | .sessionOpen _ args => wfArgs args
  | .sessionAccept _ args => wfArgs args
  | .cfgWrite _ args => wfArgs args
  | .cfgRead _ args => wfArgs args
  | .hostVarWrite _ vars => decide (2 * vars.length ≤ 262144)
  | .pmuNames _ _ names => wfArgs names
  | .modeRequest _ args => wfArgs args
  | .safetyArmStep current => decide (current < 2 ^ 32)
  | .telemRead _ args => wfArgs args
  | .endpointRead _ addresses => wfArgs addresses
  | .ringRead _ first count cell cells => wf64 first && wf32 count && wf32 cell && wf32 cells
  | .logRead _ _ count => wf32 count
  | .snapshotRequest _ args => wfArgs args
  | .snapshotRead _ _ offset length => wf32 offset && wf32 length
  | .twRemote _ args => wfArgs args
  | .timeStep _ boundary _ => wf64 boundary
  | .pairJoin _ boundary _ peerMeas => wf64 boundary && decide (peerMeas.length = 48)
  | .pairHandover _ boundary => wf64 boundary
  | .carveLoad _ _ engines => decide engines.Nodup
  | .carveSwap _ boundary engines _ => wf64 boundary && decide engines.Nodup
  | .imageWrite _ _ _ image => wfArgs image
  | .imageActivate _ _ _ _ boundary => wf64 boundary
  | .attestReport _ nonce => wfArgs nonce
  | .debugAuthorize _ image => wfArgs image
  | .safeCfgSetpw _ password => wfPassword password
  | .safeCfgOpen _ password label => wfPassword password && decide (label.length = 4)
  | .safeCfgWrite _ args => wfArgs args
  | .safeCfgPw _ password => wfPassword password
  | .safeLogRead _ _ count => wf32 count
  | .compSelftest _ channels => decide (channels.map (·.1)).Nodup
  | .ledgerRestore _ _ _ life => decide (life.length = 4)
  | .localLegFrameSend edges setpoints resolvers => decide (edges.length ≤ 64) && decide (setpoints.length = 4) && decide (resolvers.length = 2)
  | .senseSamples prec high => wfBlock 16 10 prec && wfBlock 12 200 high
  | .engineScrub _ corrected _ => wf32 corrected
  | .uplinkRecord _ _ _ record cycle => decide (record.length = 12) && decide (cycle < 6400)
  | .measureSend _ t1 => wf64 t1
  | .echoReceived _ _ t4 => wf64 t4
  | .enumSegment _ _ _ words => decide (words.length = 16)
  | .snapshotSegment _ _ _ values => decide (values.length = 16)
  | .cellDownlinkFrame _ _ _ words _ => decide (words.length ≤ 2046)
  | .stepFrame words _ => decide (words.length = 8)
  | .inputFrame _ stride data _ => wf64 stride && decide (data.length = 778)
  | .measFrame stride data _ => wf64 stride && decide (data.length = 128)
  | .cmdFrame stride opcode data _ => wf64 stride && decide (opcode < 65536) && wfArgs data
  | .syncFrame stride d _ => wf64 stride && (match d with | .slot _ words => decide (words.length = 64) | .limb .. => true)
  | .nakFrame _ stride _ => wf64 stride
  | .soTestCheck _ current => wf32 current
  | .twArrival _ _ _ _ _ codes => decide (codes.length = 128)
  | .twTag _ words => decide (words.length = 8)
  | .recoveryImageWrite _ image => wfArgs image
  | .hostBlockSet .. | .hostBlockClear .. | .hostWdogWrite .. | .hostKick | .hostWdogExpiry | .pcieLinkDown
  | .mbxDoneClear .. | .evringEnable | .evringTailWrite .. | .registerWrite .. | .eventRingWrite | .eventCoalesceTimeout
  | .bulkTransferDone .. | .sessionClose .. | .endpointWrite .. | .ledgerCoolant .. | .powerCap .. | .syncheckStart ..
  | .chainEnumerate .. | .portRetrain .. | .cellIntegrate .. | .cellBypass .. | .cellUnbypass .. | .protClearComp ..
  | .protClearLeg .. | .protClearMatrix .. | .protClearCell .. | .protClearCellResult .. | .spbReset .. | .safetyArm ..
  | .safetyDisarm .. | .safetyDegrClear .. | .driveReset .. | .protAvRead .. | .snapshotCancel .. | .snapshotList ..
  | .recTrigger .. | .recList .. | .recRead .. | .twEventRead .. | .pairFeed .. | .pairTakeLead .. | .pairLeave ..
  | .pairEpochReset .. | .imageConfirm .. | .svnCommit .. | .imageStatus .. | .certRead .. | .debugChallenge ..
  | .debugRevoke .. | .debugExpiry | .safeCfgCommit .. | .safeCfgAbort .. | .safeCfgSessionTimeout | .safeCfgLockoutEnd
  | .compSelftestChannelDone .. | .driveKeCheck .. | .resolverOffset .. | .ledgerCheckpoint .. | .supplyLogRead ..
  | .unknownOpcode .. | .cvNop .. | .cvFadd .. | .cvFsub .. | .cvFmul .. | .cvFma .. | .cvFmin .. | .cvFmax .. | .cvFabs ..
  | .cvFneg .. | .cvFrcp .. | .cvFsqrt .. | .cvFcmp .. | .cvIadd .. | .cvIsub .. | .cvIaddw .. | .cvIsubw .. | .cvImulq ..
  | .cvIshl .. | .cvIshr .. | .cvAnd .. | .cvOr .. | .cvXor .. | .cvIcmp .. | .cvUcmp .. | .cvFtoi .. | .cvItof ..
  | .cvSincos .. | .cvAtan2 .. | .cvSel .. | .cvPand .. | .cvPor .. | .cvPnot .. | .cvLsum .. | .cvLmax .. | .cvLmin ..
  | .cvLget .. | .cvLd .. | .cvSt .. | .cvLdc .. | .cvXld .. | .cvXok .. | .cvXldl .. | .cvIntg .. | .cvLim .. | .cvBump ..
  | .cvBumpo .. | .cvPost .. | .cvPublish .. | .cvCommit .. | .strideBoundary | .mirrorFreeze .. | .summitWindowStart
  | .squadWindowStart | .sectionStart .. | .closingRoundPost .. | .referenceSlots .. | .fabricBackgroundCycle ..
  | .commitTake | .deadlineMiss .. | .slalomBuild | .slalomOverrun .. | .ledgerStep | .ePredUpdate | .ledgerHistoryPeriod
  | .lifeCheckpointDue | .coolantTimeout .. | .localLegFrame | .localLegFrameMissing | .summitLost | .summitResetRelease
  | .patrolBoundary | .patrolStatusFrame .. | .patrolLost | .senseLost | .coachLockstepMismatch | .coachRestartDone ..
  | .ddrUncorrectable .. | .engineEccUncorrectable .. | .blockLineAssert .. | .blockLineRelease | .recordMissing ..
  | .cellSilent .. | .uplinkLate .. | .bypassTimeout .. | .unbypassTimeout .. | .downlinkSend .. | .layoutSend ..
  | .setpointSend .. | .snapshotAtSend .. | .echoTimeout .. | .enumTimeout .. | .enumRetry .. | .snapshotUploadClose ..
  | .snapshotLatch | .snapshotAssembled .. | .calibrationSwitch | .carveBankSwap | .modeChange | .configAtBoundary
  | .cellPowerUp .. | .cellBoundary .. | .cellBlock .. | .cellStrideBlock .. | .cellMeasure .. | .cellEnum ..
  | .cellSetpointWrite .. | .cellLayout .. | .cellSnapshotAt .. | .cellSnapshotLatch .. | .cellSegmentSend ..
  | .cellRecordSend .. | .cellShortCircuit .. | .cellBlockForward .. | .portRestart .. | .blockLockGained ..
  | .blockLockLost .. | .helloReceived .. | .kickReceived .. | .eidleReceived .. | .idleExitTimeout .. | .signalDetected ..
  | .trainTimeout .. | .darkRetry .. | .helloKeepalive .. | .controlBlockDiscard .. | .compAssert .. | .compRelease ..
  | .tripMatrixTrip .. | .blockBurstEnd .. | .matrixDisagree .. | .matrixCrcCheck .. | .legEnRise .. | .blankingEnd ..
  | .legHardTh .. | .legScTh .. | .chopPeriod .. | .chopEnergyUpdate .. | .gooseFrame .. | .gooseStale .. | .avalancheClose
  | .evAvalanche | .legChange .. | .legOnDeferred .. | .legForceRelease .. | .bootRefresh .. | .bootPrecharge ..
  | .bootStarve .. | .catchWindowEnd .. | .brakeIntervalEnd .. | .brakeMaxExpiry .. | .alignEnd .. | .recoverEnd ..
  | .bemfZeroCrossing .. | .sectorCommutate .. | .speedLoop .. | .observerLoss .. | .driveForced .. | .debugFreeze
  | .debugFreezeEnd .. | .pairLinkUp .. | .pairDelayMeasure .. | .timeBlock .. | .pairStepSend | .feedFrame ..
  | .partnerWork | .digestCompare | .strike .. | .promotion | .relinquish | .feedDecision .. | .pairColdStart ..
  | .joinAtBoundary | .epochRecordWrite | .spbFilterChange .. | .coreDisagree .. | .sptTestPulse .. | .spbDiscrepancy
  | .soTestStart | .soCoilLow .. | .ploughExpired | .ploughBackstop | .testDueCheck | .modeStrideEval | .orderlyStopEnd
  | .chargeTimeout | .dischargeTimeout | .coastMaxExpiry | .returnClassify | .jumpCorrection | .jumpBlock | .jumpBlockEnd
  | .clExpiry | .gridMeasure | .phaseAZeroCrossing .. | .syncheckEval | .syncheckTimeout | .timeMeasurement | .liftStep
  | .timeStepAct | .pairStepAct | .incrUpdate | .ptpMessage .. | .ppsInEdge .. | .irigFrame .. | .timeSourceLost ..
  | .holdoverExpiry | .leapSecond | .refclkOutOfBand | .synciEdge .. | .synciLost | .syncoPulse | .ppsOutPulse
  | .pllUnlock .. | .pllLock .. | .pllHop | .pmuCommand .. | .phasorReport .. | .twWindowClose .. | .twTagWaitEnd .. | .twHoldoffEnd ..
  | .recTriggerEval | .recordClose | .recCopyDone | .suppliesGood | .baseReached .. | .midStationReached .. | .liftFail ..
  | .resetNLow .. | .dipBegin .. | .dipEnd .. | .dip2ms .. | .railReset .. | .dieRelease .. | .flashWaitTimeout
  | .thermalReading .. | .throttleEval | .trialTimeout .. | .patrolRestartDone .. | .cellPowerLoss .. | .flashWriteDone ..
  | .carveLoadDone .. | .forcedCommutation .. | .refclkReturn | .stationPortLinkChange .. | .pairMeasSend
  | .pairInputSend .. | .pairInputDeadline => true

end Sys2Proof
end

