-- ==== Sys2Proof/Tests/Slice0.lean ====
section
/-! SUPPORT. Tests: ill-formed operands that WellFormed refuses, single steps on small states with results from the spec, and
for every statement with hypotheses states and operands that meet them, each clause's at a boundary value of its range. -/

namespace Sys2Proof.Tests

open Sys2Proof Machine

-- One theorem at a time: each evaluates a state, and many at once would take a thread's stack each.
set_option Elab.async false

/-- The state with this block and no command waiting. -/
def st (b : Block) : State := { blk := b }

/-- A block with an accepted session and every feature. -/
def adm : Block := { host := { sessionAccepted := true, features := 0x3FF } }

/-- Every opcode is admitted where nothing waits in an accepted session with every feature. -/
theorem admits (b : Block) (op : Nat) (objs : List Obj) (h1 : b.host.sessionAccepted = true) (h2 : b.host.features = 0x3FF)
    (h3 : b.host.waiting = []) (h4 : b.sup.fail ≠ 4 := by decide) : Admitted b op objs := by
  refine ⟨h4, h1, ?_, ?_⟩
  · unfold feature groupFeature; rw [h2]; split <;> decide
  · simp [held, h3]

/-- The outcome of a command as a block; the reset block where it stops. -/
def run (c : Instr) (b : Block) : Block :=
  match exec c (st b) with
  | .next s => s.blk
  | _ => {}

def h0 : Hdr := ⟨0, 7⟩

/-- A table of `n` keys from `lo` on reads what it was made of. -/
theorem get_range' {β : Type} (d : β) (f : Nat → β) : ∀ n lo x, lo ≤ x → x < lo + n → Tbl.get d ((List.range' lo n).map fun k => (k, f k)) x = f x
  | 0, _, _, _, _ => by omega
  | n + 1, lo, x, h1, h2 => by
    simp only [List.range'_succ, List.map_cons, Tbl.get]
    by_cases h : x = lo
    · simp [h]
    · have : ¬ x < lo := by omega
      simp only [h, this, if_false]
      exact get_range' d f n (lo + 1) x (by omega) (by omega)


theorem test_witness_StepRunsFront : State.reset.pending = [] := rfl

theorem test_witness_HostBlockWrite : (0xB10C : BitVec 16) = 0xB10C ∧ (0xB10D : BitVec 16) ≠ 0xB10C := by decide

theorem test_witness_HostWatchdog :
    (st {}).blk.host.wdogPeriod = 0
      ∧ (∀ s ∈ [st { time.ns := 980000, host.wdogPeriod := 1 }], now s.blk < s.blk.host.kickAt + 99 * s.blk.host.wdogPeriod)
      ∧ (∀ s ∈ [st { time.ns := 990000, host.wdogPeriod := 1 }], s.blk.host.wdogPeriod ≠ 0
          ∧ s.blk.host.kickAt + 99 * s.blk.host.wdogPeriod ≤ now s.blk)
      ∧ (st {}).blk.host.channels = [] ∧ (st {}).blk.host.bulkWait = [] := by decide

/-- A request of 1024 words in mailbox 7, the limit. -/
def reqs : List (List W32) := List.replicate 7 [] ++ [[0, w32 (1022 * 65536)] ++ List.replicate 1022 0]

/-- Two requests without arguments in mailboxes 0 and 7; one INDIRECT request, of the greatest length, in mailbox 7. -/
def twoReqs : List (List W32) := [[0x00010001, 0]] ++ List.replicate 6 [] ++ [[0x00010002, 0]]
def farReqs : List (List W32) := List.replicate 7 [] ++ [[0, 0x00030002, 0xFFFFFFF8, 0xFFFFFFFF, 262144]]

theorem test_witness_Doorbells :
    (∀ s ∈ [st { host := { coachUp := true } }], s.blk.host.coachUp = true
        ∧ (∀ r ∈ [((0x80 : BitVec 8), reqs), (0x81, twoReqs)], r.1 &&& (s.blk.host.busy ||| s.blk.host.done) = 0
          ∧ ∀ k : Fin 8, r.1.getLsbD k.val = true →
            (r.2.getD k.val []).length = bits (word (r.2.getD k.val []) 1) 31 16 + 2 ∧ bits (word (r.2.getD k.val []) 1) 31 16 ≤ 1022
              ∧ bits (word (r.2.getD k.val []) 1) 15 0 = 0))
    ∧ (∀ s ∈ [st { host := { coachUp := true, features := 256 } }], s.blk.host.busy.getLsbD 7 = false ∧ s.blk.host.done.getLsbD 7 = false
        ∧ feature s.blk 8 = true ∧ (∀ r ∈ [farReqs.getD 7 []], r.length = 5 ∧ bits (word r 1) 31 16 = 3 ∧ bits (word r 1) 15 0 = 2
          ∧ bits (word r 2) 2 0 = 0 ∧ 1 ≤ (word r 4).toNat ∧ (word r 4).toNat ≤ 262144)
        ∧ (∀ r ∈ [[0, 4], [0, 1], [0, 0x00010000], [0, 0x03FF0000], ([0, 0, 0] : List W32)], bits (word r 1) 15 2 ≠ 0 ∨ bit (word r 1) 0 = true
          ∨ r.length ≠ bits (word r 1) 31 16 + 2 ∨ bits (word r 1) 31 16 > 1022))
    ∧ (∀ s ∈ [st { host := { coachUp := true, busy := 0x80, dbErr := 254 } }], s.blk.host.coachUp = true ∧ s.blk.host.busy.getLsbD 7 = true)
    ∧ (∀ s ∈ [st { host := { coachUp := true, done := 0x80 } }], s.blk.host.busy.getLsbD 7 = false ∧ s.blk.host.done.getLsbD 7 = true)
    ∧ (∀ s ∈ [st { host := { busy := 0x80 } }, st {}], s.blk.host.coachUp = false ∧ s.blk.sup.fail ≠ 4)
    ∧ (∀ s ∈ [st { host := { busy := 1, requests := [(0, [0, 2, 0, 0, 1])] } }], s.blk.host.busy.getLsbD 0 = true
        ∧ bit (word (Tbl.get [] s.blk.host.requests 0) 1) 1 = true
        ∧ (word (Tbl.get [] s.blk.host.requests 0) 4).toNat = [(9 : W32)].length) := by decide +kernel

/-- One event of class 5 waits. -/
def oneEvent (head tail : Nat) : Block :=
  { ev := { queues := [(5, { q := [{ code := 0xA016, seq := 0, stride := 0, payload := [] }] })] }, host := { evEn := true, head := head, tail := tail, unsignalled := 1 } }

theorem test_witness_EventRing :
    (st {}).blk.host.evEn = false
    ∧ (∀ s ∈ [st (oneEvent 1023 1), st (oneEvent 1023 0)], 5 < 6 ∧ s.blk.host.evEn = true
        ∧ (∀ j, j < 5 → (Tbl.get {} s.blk.ev.queues j).q = []) ∧ (Tbl.get {} s.blk.ev.queues 5).q = [{ code := 0xA016, seq := 0, stride := 0, payload := [] }]
        ∧ (Tbl.get {} s.blk.ev.queues 5).lost = 0 ∧ withheld s.blk 0xA016 = false)
    ∧ (1023 + 1) % 2 ^ 10 = (oneEvent 1023 0).host.tail % 2 ^ 10 ∧ (1023 + 1) % 2 ^ 10 ≠ (oneEvent 1023 1).host.tail % 2 ^ 10
    ∧ (∀ s ∈ [st { oneEvent 0 0 with time.ns := 100000 }], s.blk.host.unsignalled ≠ 0 ∧ s.blk.host.unsigAt + s.blk.host.coalT ≤ now s.blk)
    ∧ (∀ s ∈ [st { oneEvent 0 0 with time.ns := 99999 }], now s.blk < s.blk.host.unsigAt + s.blk.host.coalT)
    ∧ (st {}).blk.host.unsignalled = 0 := by decide

theorem test_witness_DirectRegisters : (st {}).blk.host.evEn = false ∧ (st (oneEvent 0 0)).blk.host.evEn = true := by decide

theorem test_witness_BulkTransfers :
    (∀ s ∈ [st {}], Tbl.get none s.blk.host.channels 3 = none)
    ∧ ∀ s ∈ [st { host := { channels := [(3, some { h := h0, data := [1] })], bulkWait := [{ h := h0, data := [2] }] } }],
        ∃ x, Tbl.get none s.blk.host.channels 3 = some x ∧ x.window = none ∧ s.blk.host.bulkWait = [{ h := h0, data := [2] }] := by
  refine ⟨by decide, ?_⟩
  intro s hs
  simp only [List.mem_singleton] at hs
  subst hs
  exact ⟨{ h := h0, data := [1] }, rfl, rfl, rfl⟩

theorem test_witness_Sessions :
    bits (0x80000001 : W32) 30 16 = 0 ∧ bits (1 : W32) 30 16 = 0 ∧ bit (0x80000001 : W32) 31 = true ∧ bit (1 : W32) 31 = false
    ∧ (st {}).blk.sup.fail ≠ 4 ∧ (st {}).blk.host.sessionOpen = false
    ∧ (∀ s ∈ [st { host := { sessionOpen := true } }], s.blk.host.sessionOpen = true ∧ s.blk.host.sessionAccepted = false
        ∧ s.blk.host.channels = [] ∧ s.blk.host.bulkWait = [] ∧ s.blk.host.waiting = []
        ∧ (1 &&& offered s.blk = 1 ∧ Nat.testBit 1 0 = true) ∧ (2 ^ 127 + 1 &&& offered s.blk ≠ 2 ^ 127 + 1)
        ∧ Nat.testBit 0 0 = false) := by decide

/-- A CFG_WRITE of each kind of entry, at SAFE with nothing configured: (STRUCT, INDEX, boundary, words). -/
def writes : List (Nat × Nat × Nat × List W32) :=
  [(0x04, 31, 0, [0]), (0x03, 31, 0, [0x00041000]), (0x03, 0, 0, [0x0040F000]), (0x23, 3, 0, [0x4000]), (0x16, 15, 0, [0x10C8, 0x30000000]), (0x0A, 0, 0, [0x01000400]),
   (0x1D, 27, 100, [1, 2]), (0x07, 0, 8640000000, [0x00440000, 0, 0, 0, 0, 0, 0, 0]), (0x1D, 0, 0, [0, 0])]

theorem test_witness_CfgWriteTakesEffect :
    (∀ e ∈ writes, Admitted adm 0x0101 [.cfg e.1 e.2.1])
    ∧ ∀ e ∈ writes, let w := w32 (e.1 * 2 ^ 24 + e.2.1 * 2 ^ 8)
      let B := join64 (w32 e.2.2.1) (w32 (e.2.2.1 / 2 ^ 32))
      bits w 31 24 = e.1 ∧ bits w 23 8 = e.2.1 ∧ bits w 7 0 = 0 ∧ 0 < cfgWords e.1 ∧ e.1 < 0x80
      ∧ e.2.1 < cfgCount e.1 ∧ e.2.2.2.length = cfgWords e.1 ∧ adm.pair.role ≠ 3
      ∧ cfgRefused (soonCfg adm) e.1 e.2.1 e.2.2.2 = none
      ∧ costRefused (soonCfg adm) (setCfg e.1 e.2.1 e.2.2.2 (soonCfg adm)) = false
      ∧ lockCal adm = false ∧ (B ≠ 0 → cfgTimed e.1 = true ∧ checkBoundary adm B = none)
      ∧ adm.host.actions.any (isCfgAction e.1 e.2.1) = false := by
  refine ⟨fun _ _ => admits _ _ _ rfl rfl rfl, by decide +kernel⟩

/-- A state that holds calibration data on its way, one entry on its way, and one in force. -/
def pendingCfg : Block := { adm with
  staged := [(cfgKey 0x1D 0, [1, 2])], nextCfg := [(0x0A, 0, [0x01000400])], cfg := [(cfgKey 0x23 0, [0x4000])] }

theorem test_witness_CfgWriteRefused :
    Admitted adm 0x0101 [.cfg 0x23 3] ∧ Admitted pendingCfg 0x0102 [] ∧ Admitted { adm with pair.role := 3 } 0x0101 [.cfg 0x03 0]
    ∧ (0 < cfgWords 0x23 ∧ 3 < cfgCount 0x23 ∧ bits (0x23000300 : W32) 31 24 = 0x23 ∧ bits (0x23000300 : W32) 23 8 = 3
        ∧ bits (0x23000300 : W32) 7 0 = 0 ∧ join64 1 0 ≠ 0 ∧ cfgTimed 0x23 = false ∧ cfgCalib 0x23 = false
        ∧ cfgRefused (soonCfg adm) 0x23 3 [0] = some (.badArg, 0))
    ∧ (cfgWords 0x03 = 1 ∧ mirrored 0x03 = true ∧ cfgWords 0x02 ≤ 1022
        ∧ bit (0x0A000080 : W32) 7 = true ∧ bit (0x0A000000 : W32) 7 = false ∧ bits (0x0A000080 : W32) 6 0 = 0
        ∧ pendingEntry pendingCfg 0x0A 0 = some [0x01000400] ∧ pendingEntry pendingCfg 0x1D 0 = some [1, 2]
        ∧ pendingEntry pendingCfg 0x1D 1 = none) := by
  refine ⟨admits _ _ _ rfl rfl rfl, admits _ _ _ rfl rfl rfl, admits _ _ _ rfl rfl rfl, by decide +kernel⟩

/-- An action at the boundary of stride `B`, seen in stride 100. -/
def actionAt (B : Nat) (k : ActKind) : Block :=
  { time := { ns := 1000000 }, host := { actions := [{ boundary := B, kind := k, op := 0x0101, h := h0 }] } }

theorem test_witness_EntriesAtTheirBoundary :
    now (actionAt 101 (.calibration 0x1D 0)) < 101 ∧ 100 ≤ now (actionAt 100 (.calibration 0x1D 27))
      ∧ 100 ≤ now (actionAt 100 (.config 0x07 47 [])) ∧ 100 ≤ now (actionAt 100 (.config 0x0F 0 [])) := by decide

/-- Cell 2047 is of a kind that maps endpoints 16, 17 and 96 to 127. -/
def oneKind : Block := { adm with cells := [(2047, { info := some { desc := List.replicate 8 0 ++ [0x30000, 0, 0, 0xFFFFFFFF] } })] }

/-- A record whose status word is `w`, of capacitor voltage 0.0. -/
def recOf (w : W32) : List W32 := w :: List.replicate 11 0
/-- A state in FORM in stride 100, with chain 31 and cell 2047, the last of each, as given. -/
def onCell (c : Chain) (q : HubCell) : Block := { adm with
  time := { ns := 1000000 }, md := { mode := .form }, chains := [(31, c)], cells := [(2047, q)] }
/-- A cell with a bypass that maps endpoints 16, 17 and 96 to 127 (word 1 bit 18, words 8 and 11), rated 512 V. -/
def known : HubCell := { info := some { desc := [0, 0x40000, 0, 0, 0, 0, 0, 0, 0x30000, 0, 0, 0xFFFFFFFF, 0, 0x44000000] } }
/-- At rest in LADDER 3 with fresh records of the two latest strides. -/
def rested : HubCell := { known with stale := false, recAt := some 100, prevAt := some 99, record := recOf 0x03000000, prev := recOf 0x03000000 }
def wait7 (op : Nat) : Waiting := { h := h0, op := op, objs := [.cell 2047], data := w64 92 }

/-- Limb 47 holds cell 2047, alone, on the LV side, which is live. -/
def bLv : Block := { onCell {} known with
  cfg := [(cfgKey 0x10 47, [0xBD008000, 0, 0]), (cfgKey 0x25 47, [0xBE000000, 0] ++ List.replicate 63 0 ++ [0x80000000, 0, 0, 0, 0])]
  md := { mode := .form, sides := [(1, { live := true })] } }
def bReady : Block := onCell { st := .ready, admitted := true, rttPs := 3000000, measured := true } rested
def bFar : Block := onCell { measured := true, rttPs := 3000001 } {}
def bNear : Block := onCell { rttPs := 3000000 } {}
def bActive : Block := onCell {} { known with slot := .active }
def bBypassed : Block := onCell {} { rested with slot := .bypassed }
def bBypassing : Block := onCell {} { slot := .bypassing, slotAt := 0 }
def bUnbypassing : Block := { onCell {} { slot := .unbypassing, slotAt := 0 } with host := { adm.host with waiting := [wait7 0x0207] } }

theorem test_witness_CellCommands :
    (∀ b ∈ [adm, bLv, bReady, bFar, bNear, bActive, bBypassed], ∀ op, Admitted b op [.cell 2047])
    ∧ (adm.pair.role ≠ 3 ∧ sends adm = true ∧ integrateBarred adm = true)
    ∧ (integrateBarred bLv = false ∧ lvShut bLv 2047 = true)
    ∧ (integrateBarred bReady = false ∧ lvShut bReady 2047 = false ∧ canIntegrate bReady 2047 = true)
    ∧ (integrateBarred bFar = false ∧ lvShut bFar 2047 = false ∧ (chain bFar 31).measured = true ∧ 3000000 < (chain bFar 31).rttPs)
    ∧ (integrateBarred bNear = false ∧ lvShut bNear 2047 = false ∧ (chain bNear 31).rttPs ≤ 3000000 ∧ canIntegrate bNear 2047 = false)
    ∧ ((hub bActive 2047).info.isSome = true ∧ dHasBypass (cellDesc bActive 2047) = true ∧ (hub bActive 2047).slot = .active)
    ∧ dHasBypass (cellDesc bNear 2047) = false
    ∧ ((hub bBypassed 2047).slot = .bypassed ∧ recLadder bBypassed 2047 = 3 ∧ recFault bBypassed 2047 = false
        ∧ fle (recVcap bBypassed 2047) (match intWindow bBypassed 2047 with
          | some x => x.2
          | none => fmul (ofRat 110 100) (dVRated (cellDesc bBypassed 2047))) = true)
    ∧ (hub bNear 2047).slot = .blocked
    ∧ ((hub bActive 2047).slot ≠ .blocked ∧ (hub bActive 2047).slot ≠ .bypassed)
    ∧ ((hub bBypassing 2047).slot = .bypassing ∧ (hub bBypassing 2047).slotAt + 100 = now bBypassing)
    ∧ ((hub bUnbypassing 2047).slot = .unbypassing ∧ (hub bUnbypassing 2047).slotAt + 100 = now bUnbypassing
        ∧ (bUnbypassing.host.waiting.find? fun w => w.op == 0x0207 && w.objs.contains (.cell 2047)) = some (wait7 0x0207)) := by
  refine ⟨fun b hb op => ?_, by decide +kernel⟩
  simp only [List.mem_cons, List.not_mem_nil, or_false] at hb
  rcases hb with rfl | rfl | rfl | rfl | rfl | rfl | rfl <;> exact admits _ _ _ rfl rfl rfl

/-- FAULT_CLEAR was written in stride `t`; the record is of stride 100. -/
def clearing (t : Nat) (r : List W32) : Block := { onCell {} { rested with record := r } with
  host := { adm.host with waiting := [{ wait7 0x0208 with data := w64 t }] } }

def cGone : Block := clearing 92 (recOf 0x03000000)
def cCause : Block := clearing 98 [0x03000000, 0, 0, 0, 0, 0, 0, 0, 0x700, 0, 0, 0]
def cStays : Block := clearing 92 (recOf 0x03001000)
def cNone : Block := clearing 91 (recOf 0)
def isClear (w : Waiting) : Bool := w.op == 0x0208 && w.objs.contains (.cell 2047)

theorem test_witness_CellFaultClearResult :
    bReady.host.waiting = []
    ∧ (∀ b ∈ [cGone, cCause, cStays, cNone], (b.host.waiting.find? isClear).isSome = true ∧ (hub b 2047).recAt = some (now b)
        ∧ ((chain b 31).setQueue.any fun q => q.pos == 63 && q.index == 96) = false)
    ∧ join64 (word (w64 92) 0) (word (w64 92) 1) = 92
    ∧ (now cGone = 92 + 8 ∧ recFault cGone 2047 = false) ∧ (98 + 2 = now cCause ∧ bits (recW cCause 2047 8) 10 8 = 7)
    ∧ (bits (recW cStays 2047 8) 10 8 ≠ 7 ∧ recFault cStays 2047 = true) ∧ 91 + 8 < now cNone := by
  decide +kernel

/-- Port 31 is UP and hears its partner. -/
def upCell (c : Chain) (q : HubCell) : Block := { onCell c q with
  ports := [(31, { st := .up, txIdle := false })], synth := [(0, { locked := true }), (1, { locked := true }), (2, { locked := true })] }
/-- The payload of UPREC for a record of cell 2047 (Table 4-4). -/
def uprec (r : List W32) : BitVec 56 := BitVec.ofNat 56 (63 * 2 ^ 50 + (crc32 (bytesOf r)).toNat)
def uActive : Block := upCell { st := .ready } { slot := .active }
def uIntegrating : Block := upCell { st := .ready } { slot := .integrating, flagAt := some 98 }
def uBypassing : Block := upCell { st := .ready } { slot := .bypassing, slotAt := 0 }
def uUnbypassing : Block := upCell { st := .ready } { slot := .unbypassing, slotAt := 0 }
def uOld : Block := onCell {} { known with record := recOf 5 }
def uSilent : Block := { onCell { silenceL := 4 } { silence := 4, slot := .active } with cfg := [(cfgKey 0x17 0, [0x80000000])] }
def uLate : Block := onCell { st := .ready, lateNow := true, lateRun := 3 } {}

theorem test_witness_HubRecords :
    (∀ b ∈ [uActive, uIntegrating, uBypassing, uUnbypassing], hears (port b 31) = true ∧ lagging b = false
        ∧ bits (word (recOf 0) 10) 31 8 ≤ bib b ∧ (chain b 31).st = .ready ∧ (chain b 31).broken = false
        ∧ work b ≤ (hub b 2047).slotAt + 100 ∧ (∀ f, (hub b 2047).flagAt = some f → f + 2 ≤ work b))
    ∧ uprecOk 2047 (uprec (recOf 0)) (recOf 0) = true ∧ uprecOk 2047 (uprec (recOf 0x40)) (recOf 0x40) = true
    ∧ uprecOk 2047 (uprec (recOf 0x03000000)) (recOf 0x03000000) = true
    ∧ hears (port uOld 31) = false ∧ (recOf 0).length = 12 ∧ uprecOk 2047 0 (recOf 0) = false
    ∧ (rxFrame 31 0x33 (uprec (recOf 0)) 1 (recOf 0) uActive).2 = none
    ∧ (lagging uOld = false ∧ (hub uOld 2047).info.isSome = true ∧ (hub uOld 2047).recAt ≠ some (work uOld)
        ∧ (hub uOld 2047).slot ≠ .integrating ∧ ringWrites uOld (work uOld) = true ∧ (hub uOld 2047).record = 5 :: List.replicate 11 0)
    ∧ ((hub uSilent 2047).silent = false ∧ (chain uSilent 31).silenceL ≤ (hub uSilent 2047).silence ∧ cfgBit uSilent 0x17 0 0 31 = true)
    ∧ ((chain uLate 31).st = .ready ∧ uLate.pair.dualUntil = none ∧ (chain uLate 31).lateNow = true
        ∧ (chain uLate 31).lateRun + 1 = cfgN uLate 0x03 31 0 15 12 ∧ (chain uLate 31).lateRun < 63) := by
  decide +kernel

/-- The payload of the segment `k` with these words at position `n`. -/
def segPl (n k : Nat) (w : List W32) : BitVec 56 := BitVec.ofNat 56 (n * 2 ^ 50 + k * 2 ^ 44 + (crc32 (bytesOf w)).toNat)
/-- A descriptor of kind 1 that is in order: one leg on switches 0 and 1, endpoints 16, 17 and 96 (Table 3-4, R91). -/
def desc31 : List W32 := [0x00010001, 0x10080000, 3, 1, 0, 0, 0x00010000, 0, 0x30000, 0, 0, 1] ++ List.replicate 19 0
def desc1 : List W32 := desc31 ++ [crc32 (bytesOf desc31)]
def seg2 (ok : Bool) : List W32 := if ok then desc1.drop 16 else List.replicate 16 0
def uChecking : Block := upCell { st := .checking } {}
def uHeld : Block := upCell { st := .held } {}
/-- Chain 0 of one cell of kind 1 enumerates since stride 0; position 0 waits for its segment 2 and reports TAIL. -/
def uEnum : Block := { time := { ns := 2000000 }, chains := [(0, { st := .enumerating })], ports := [(0, { st := .up })]
                       cfg := [(cfgKey 0x01 0, [0x01010000]), (cfgKey 0x02 0, 0x00010000 :: List.replicate 63 0), (cfgKey 0x05 0, [0x00010001, 0, 0])
                               , (cfgKey 0x06 0, [0x00010000, 0x00010000, 0x00020000]), (cfgKey 0x0D 0, 0x00010000 :: List.replicate 15 0)]
                       cells := [(0, { recAt := some 0, record := [0x80], segs := [(0, List.replicate 16 0), (1, desc1.take 16)] })] }
/-- With that segment taken: the block of the statement's text. -/
def uEnum1 (ok : Bool) : Block := onHub 0 (fun (q : HubCell) => { q with segs := Tbl.set [] q.segs (pf (segPl 0 2 (seg2 ok)) 47 44) (seg2 ok) })
  (rxFrame 0 0xCC (segPl 0 2 (seg2 ok)) 0 (seg2 ok) uEnum).1
def uRetry : Block := { onCell { st := .enumerating, retryAt := some 100 } {} with cfg := [(cfgKey 0x01 31, [0x01010000])] }

theorem test_witness_EnumerationRules :
    (∀ op, Admitted uHeld op [.chain 31])
    ∧ (∀ b ∈ [uChecking, uHeld], hears (port b 31) = true ∧ ((chain b 31).st = .checking ∨ (chain b 31).st = .held))
    ∧ segOk 2047 0 2 (segPl 63 2 (seg2 false)) (seg2 false) = true
    ∧ (hears (port uEnum 0) = true ∧ (chain uEnum 0).st = .enumerating
        ∧ now uEnum = (chain uEnum 0).linkUpAt + 200 ∧ (chain uEnum 0).retryAt = none)
    ∧ (∀ ok ∈ [true, false], segOk 0 0 2 (segPl 0 2 (seg2 ok)) (seg2 ok) = true
        ∧ enumTail (uEnum1 ok) 0 = some 0 ∧ (List.range 64).find? (posFails (uEnum1 ok) 0 0) = if ok then none else some 0)
    ∧ ((chain uRetry 31).st = .enumerating ∧ (chain uRetry 31).retryAt = some 100 ∧ 100 ≤ now uRetry ∧ chainEnd uRetry 31 = 1)
    ∧ (sends uHeld = true ∧ (chain uHeld 31).st = .held)
    ∧ (sends uLate = true ∧ (chain uLate 31).st ≠ .held) :=
  ⟨fun _ => admits _ _ _ rfl rfl rfl, by decide +kernel⟩

def uIdle : Block := upCell {} {}
def uLayout : Block := upCell { st := .ready, layoutDue := true } {}
def uSet : Block := upCell { setQueue := [⟨63, 127, 1⟩] } {}
def uSets : Block := upCell { setQueue := [⟨63, 127, 1⟩], lastSet := some ⟨0, 96, 0⟩ } {}
def uSnap (B : Nat) : Block := upCell { st := .ready, snapAt := [B], sentBib := some 0 } {}
def uSnapped : Block := upCell { st := .ready, snapAt := [104], sentBib := some 0, sentSnap := some 0 } {}

theorem test_witness_LinkEngineSends :
    drives uOld 31 = false ∧ (∀ b ∈ [uIdle, uActive, uLayout, uSet, uSets, uSnap 104, uSnap 167], drives b 31 = true)
    ∧ ((chain uLayout 31).st = .ready ∧ (chain uLayout 31).layoutDue = true) ∧ (chain uIdle 31).st ≠ .ready
    ∧ ((chain uSet 31).setQueue = [⟨63, 127, 1⟩] ∧ (chain uSet 31).lastSet = none)
    ∧ ((chain uSets 31).setQueue = [⟨63, 127, 1⟩] ∧ (chain uSets 31).lastSet = some ⟨0, 96, 0⟩)
    ∧ (∀ B ∈ [104, 167], (chain (uSnap B) 31).st = .ready ∧ (chain (uSnap B) 31).snapAt = [B] ∧ B ≤ now (uSnap B) + 67
        ∧ now (uSnap B) + 4 ≤ B ∧ (chain (uSnap B) 31).sentBib.isSome = true ∧ (chain (uSnap B) 31).sentSnap = none)
    ∧ (drives uSnapped 31 = true ∧ (chain uSnapped 31).sentSnap.isSome = true) ∧ (chain uIdle 31).sentBib = none := by decide +kernel

/-- An ECHO of position 0, sequence 255, its OFF flag and dwell 0. -/
def echo (o : Nat) : BitVec 56 := withCrc8 0x96 (255 * 2 ^ 42 + o * 2 ^ 41)
/-- Chain 31 has two cells and its HEAD here. -/
def measB (c : Chain) : Block := { upCell c {} with cfg := [(cfgKey 0x01 31, [0x01020000])] }
def mSweep (k : Nat) : Block := measB { sweep := some k }
def mStart : Block := { measB {} with time.ns := 10000000 }
def mSent : Block := measB { sentMeasure := some 0 }
def mOpen : Block := measB { open? := some ⟨255, 0, 5⟩ }

theorem test_witness_DelayMeasurement :
    (∀ k ∈ [0, 2], (chain (mSweep k) 31).sweep = some k ∧ (port (mSweep k) 31).st = .up ∧ linkRuns (mSweep k) 31 = true
        ∧ (chain (mSweep k) 31).sentMeasure = none ∧ chainEnd (mSweep k) 31 = 1 ∧ now (mSweep k) % 1000 ≠ 0)
    ∧ ((port mStart 31).st = .up ∧ linkRuns mStart 31 = true ∧ (chain mStart 31).sentMeasure = none ∧ chainEnd mStart 31 = 1
        ∧ now mStart % 1000 = 0 ∧ 2 = nCells mStart 31)
    ∧ (chain mSent 31).sentMeasure.isSome = true
    ∧ (hears (port mOpen 31) = true ∧ (chain mOpen 31).open? = some ⟨255, 0, 5⟩ ∧ chainEnd mOpen 31 = 1 ∧ 0 + 1 ≠ nCells mOpen 31)
    ∧ (∀ o ∈ [0, 1], crc8Ok 0x96 (echo o) = true ∧ pf (echo o) 55 50 = 0 ∧ pf (echo o) 49 42 = 255 ∧ pf (echo o) 41 41 = o)
    ∧ (crc8Ok 0x96 (withCrc8 0x96 0) = true ∧ pf (withCrc8 0x96 0) 49 42 ≠ 255) := by decide +kernel


/-- COMP_CFG of channel 47: HIGH at 1000, LOW at 10, hysteresis 8, both windows, the trip, latch and event routes; 2 of 3. -/
def compCfg : Tbl (List W32) := [(cfgKey 0x14 47, [0xFA00A200, 0x32FE0000])]
def pQuiet : Block := { adm with cfg := compCfg, prot := { comps := [(47, { histHi := 1 })] } }
def pHigh : Block := { adm with cfg := compCfg, prot := { comps := [(47, { fHi := true, rawHi := true, histHi := 4 })] } }
def pTest : Block := { adm with md := { mode := .service }, prot := { testQueue := [(47, some (1023, 0))] } }

theorem test_witness_Comparators :
    (∀ op objs, Admitted pQuiet op objs ∧ Admitted { adm with md := { mode := .service } } op objs)
    ∧ (∀ b ∈ [pQuiet, pHigh], (comp b 47).testing = false ∧ (∀ j ∈ [0, 1], chopMode b j = 0) ∧ cfgN b 0x14 47 1 31 28 = 3
        ∧ cfgN b 0x14 47 1 27 24 = 2)
    ∧ ((comp pQuiet 47).fHi = false ∧ (comp pQuiet 47).fLo = false ∧ rawHi pQuiet 47 16383 (comp pQuiet 47).rawHi = true
        ∧ 2 ≤ filtCount 3 ((2 * (comp pQuiet 47).histHi + 1) % 32768) ∧ (∀ m < 16, legHeld pQuiet m = false)
        ∧ compRoute pQuiet 47 17 = true ∧ compRoute pQuiet 47 19 = true ∧ compRoute pQuiet 47 20 = true)
    ∧ ((comp pHigh 47).fHi = true ∧ (comp pHigh 47).fLo = false ∧ rawHi pHigh 47 8192 (comp pHigh 47).rawHi = false
        ∧ rawLo pHigh 47 8192 (comp pHigh 47).rawLo = false
        ∧ filtCount 3 ((2 * (comp pHigh 47).histHi) % 32768) < 2 ∧ 2 ≤ 3 - filtCount 3 ((2 * (comp pHigh 47).histHi) % 32768)
        ∧ filtCount 3 0 < 2)
    ∧ (adm.md.mode ≠ .service ∧ adm.prot.testQueue = [] ∧ pTest.prot.testQueue = (47, some (1023, 0)) :: [])
    ∧ ((0 : Fin 48), (none : Option (Fin 1024 × Fin 1024))) :: [] ≠ [] := by
  refine ⟨fun _ _ => ⟨admits _ _ _ rfl rfl rfl, admits _ _ _ rfl rfl rfl⟩, by decide +kernel⟩

/-- CHOP_CFG 1: leg 15, channel 47, MODE 1, half duty; limits of 2.0 J and 1.0 J. -/
def chopCfg : Tbl (List W32) := [(cfgKey 0x18 1, [0xFBD7D001, 0x3F800000, 0, 0x40000000, 0x3F800000])]
def kIdle : Block := { cfg := chopCfg }
def kOn : Block := { cfg := chopCfg, prot := { chops := [(1, { requested := true })] } }
def kDone : Block := { cfg := chopCfg, prot := { chops := [(1, { updAt := some 0 })] } }
def kHot : Block := { cfg := chopCfg, prot := { chops := [(1, { eAcc := 0x40000000 })] } }

theorem test_witness_Choppers :
    ((chop kIdle 1).requested = false ∧ chopMode ({} : Block) 1 = 0)
    ∧ ((chop kOn 1).requested = true ∧ chopMode kOn 1 ≠ 0 ∧ kOn.prot.frozen = false
        ∧ (chop kOn 1).on ≠ chopOnAt kOn 1 (sampleAt kOn 0) ∧ (chop kOn 1).on = chopOnAt kOn 1 (sampleAt kOn (chopPeriod kOn 1 / 2)))
    ∧ (cfgWritten ({} : Block) 0x18 1 = false ∧ (chop kDone 1).updAt = some (now kDone))
    ∧ fle (cfgW kHot 0x18 1 3) (chopEnergy (chop kHot 1).eAcc (cfgW kHot 0x18 1 1) (cfgW kHot 0x18 1 2)
        (highTime kHot (chopLeg kHot 1) (now kHot * 8000))) = true ∧ (chop kHot 1).limited = false
    ∧ cfgWritten kHot 0x18 1 = true ∧ (chop kHot 1).updAt ≠ some (now kHot)
    ∧ fle (cfgW kIdle 0x18 1 3) (chopEnergy (chop kIdle 1).eAcc (cfgW kIdle 0x18 1 1) (cfgW kIdle 0x18 1 2)
        (highTime kIdle (chopLeg kIdle 1) (now kIdle * 8000))) = false ∧ cfgWritten kIdle 0x18 1 = true
    ∧ (chop kIdle 1).updAt ≠ some (now kIdle) := by
  decide +kernel

/-- GOOSE_SUB 15: APPID 0x3FFF, member 1, enabled, on port 3, destination 01:0C:CD:01:00:01, an empty reference (CRC-32 0). -/
def gooseCfg : Tbl (List W32) := [(cfgKey 0x19 15, [0x3FFF01B0, 0x010CCD01, 0x00010000, 5, 0, 0])]
def frameG (sq : W32) (m : Option Bool) : GooseMsg :=
  { dest := 0x010CCD010001, appid := 0x3FFF, gocbRef := [], confRev := 5, ndsCom := false, sim := false, stNum := 1, sqNum := sq
    members := [none, m], prp := none, ttl := 10 }
def gNew : Block := { cfg := gooseCfg }
def gSeen : Block := { cfg := gooseCfg, prot := { goose := [(15, { seen := true, stNum := 1, sqNum := 7 })] } }
def gLate : Block := { gSeen with time := { ns := 9990000 }, prot := { goose := [(15, { seen := true, stNum := 1, sqNum := 7, expires := 1000 })] } }
def gStale : Block := { gLate with time := { ns := 10000000 } }
def gPrp : Block := { time := { ns := 1000000 }, cfg := [(cfgKey 0x21 0, [0x00800000, 0, 0, 0, 0])], prot := { prpSeen := [(1, 2, 0)] } }

theorem test_witness_GooseSubscriptions :
    (frameG 7 none).prp = none ∧ gooseMatches gNew 15 3 (frameG 7 none) = true
    ∧ (∀ j < 16, j ≠ 15 → gooseMatches gNew j 3 (frameG 7 none) = false)
    ∧ (frameG 7 none).members[cfgN gNew 0x19 15 0 15 8]? = some none
    ∧ (frameG 7 (some true)).members[cfgN gNew 0x19 15 0 15 8]? = some (some true)
    ∧ (gooseMatches gNew 15 3 { frameG 7 none with members := [none] } = true
        ∧ ({ frameG 7 none with members := [none] } : GooseMsg).members[cfgN gNew 0x19 15 0 15 8]? = none)
    ∧ gooseMatches gSeen 15 3 (frameG 8 (some true)) = true ∧ (∀ j < 16, j ≠ 15 → gooseMatches gSeen j 3 (frameG 8 (some true)) = false)
    ∧ ((goose gNew 15).seen = false ∧ (goose gSeen 15).sqNum.toNat < (8 : W32).toNat
        ∧ (goose gSeen 15).seen = true ∧ (goose gSeen 15).stNum = 1 ∧ (7 : W32).toNat ≤ (goose gSeen 15).sqNum.toNat)
    ∧ (prpPort gPrp 1 = true ∧ ((1 : BitVec 48).toNat, (2 : BitVec 16).toNat, 0) ∈ gPrp.prot.prpSeen ∧ now gPrp ≤ 0 + 40000)
    ∧ (cfgBit gStale 0x19 15 0 7 = true ∧ (goose gStale 15).seen = true ∧ (goose gStale 15).stale = false
        ∧ (goose gStale 15).expires ≤ now gStale ∧ now gLate < (goose gLate 15).expires) := by
  decide +kernel

def aNone : Block := {}
/-- An avalanche of one lost receiver opened in stride `t`, seen in stride 100 with a window of 4 strides. -/
def aOpen (t : Nat) : Block := { adm with time := { ns := 1000000 }, prot := { avs := [{ s0 := t, reports := [.rxLost 31] }]
                                                                               avRoots := [[1]], avMaps := [(5, [1, 2])] } }
theorem test_witness_AvalancheFilter :
    (∀ op, Admitted (aOpen 97) op []) ∧ aNone.prot.avs = [] ∧ (aOpen 97).prot.avs = [{ s0 := 97, reports := [.rxLost 31] }]
    ∧ now (aOpen 97) < 97 + avWindow (aOpen 97) ∧ 96 + avWindow (aOpen 96) = now (aOpen 96)
    ∧ ((aOpen 97).prot.avRoots = [] ++ [[1]] ∧ [(1 : W32)].length ≤ 12)
    ∧ (bits (5 : W32) 31 16 = 0 ∧ (aOpen 97).prot.avMaps.find? (fun x => x.1 == (5 : W32).toNat) = some ((5 : W32).toNat, [1, 2])
        ∧ (aOpen 97).prot.avMaps.find? (fun x => x.1 == (6 : W32).toNat) = none) :=
  ⟨fun _ => admits _ _ _ rfl rfl rfl, by decide +kernel⟩

/-- Input 71 is mapped and active, leg 15 has its hard threshold on, channel 47 its filter. -/
def lActive : Block := { adm with
  cfg := [(cfgKey 0x15 71, [0x80000000])]
  prot := { inputs := 1#72 <<< 71, comps := [(47, { fHi := true })], legs := [(15, { hardOn := true }), (14, {})] } }
def lForm : Block := { adm with md := { mode := .form } }

theorem test_witness_LatchClears :
    (∀ b ∈ [lActive, lForm, adm], Admitted b 0x0208 [])
    ∧ ((comp adm 47).filt = false ∧ (comp lActive 47).filt = true)
    ∧ (bits (0xFFFF : W32) 31 16 = 0 ∧ (1 : BitVec 29) ≠ 0)
    ∧ ((leg adm 15).hardOn = false ∧ (leg adm 15).scOn = false ∧ (leg lActive 15).hardOn = true)
    ∧ (atRest lForm = false ∧ atRest adm = true ∧ clearRefused adm = [] ∧ atRest lActive = true ∧ clearRefused lActive = [71]) := by
  refine ⟨fun b hb => ?_, by decide +kernel⟩
  simp only [List.mem_cons, List.not_mem_nil, or_false] at hb
  rcases hb with rfl | rfl | rfl <;> exact admits _ _ _ rfl rfl rfl

/-- Input 71 is active and mapped to BLOCK, the safety outputs and leg 15 alone. -/
def tActive : Block := { cfg := [(cfgKey 0x15 71, [0xC0008000])], prot := { inputs := 1#72 <<< 71 }
                         safe := { out := [(0, { st := 2, armed := true }), (1, { st := 2, armed := true })] } }
def tForm : Block := { tActive with md := { mode := .form } }
def tOne : Block := { prot := { copyA := { tripped := true, cause := 1 }, differAt := some 0 } }
def tBurst : Block := { prot := { burst := some 100, copyA := { line := true }, copyB := { line := true } } }

theorem test_witness_TripMatrix :
    (∀ b ∈ [tActive, tForm], mappedActive b &&& ~~~b.prot.copyA.cause ≠ 0 ∧ mappedActive b &&& ~~~b.prot.copyB.cause ≠ 0
        ∧ (∀ k ∈ [0, 1], (safeOut b k).st = 2 ∧ (safeOut b k).armed = true))
    ∧ legHeld { tActive with prot := { copyA := { tripped := true, cause := 1#72 <<< 71 }, copyB := { tripped := true, cause := 1#72 <<< 71 } } } 15 = true
    ∧ (tBurst.prot.burst = some 100 ∧ 100 + 268 = sampleAt tBurst 368 ∧ sampleAt tBurst 367 < 100 + 268 ∧ tActive.prot.burst = none)
    ∧ (sampleAt tOne 16 ≤ tOne.prot.differAt.getD 0 + 16 ∧ tOne.prot.differAt.getD 0 + 16 < sampleAt tOne 17)
    ∧ copyActs tActive { tripped := true, cause := mappedActive tActive } 30 = true
    ∧ (tActive.md.mode = .safe ∧ tForm.md.mode ≠ .safe ∧ tForm.md.imm = none ∧ isPartner tForm = false)
    ∧ (mappedActive tActive).getLsbD 71 = true ∧ (∀ j < 71, (mappedActive tActive).getLsbD j = false)
    ∧ mappedActive ({} : Block) = 0 ∧ tActive.prot.copyA.tripped = tActive.prot.copyB.tripped
    ∧ tOne.prot.copyA.tripped ≠ tOne.prot.copyB.tripped ∧ (true || false) = true ∧ tActive.prot.pcfgBad = false
    ∧ tActive.prot.crcBad = false := by
  decide +kernel

def fSent (t : Nat) (e : List W32) : Block := { prot := { sent := some { stride := t, edges := e, trip66 := true } } }
def fGood : Block := fSent 0 []
def fOld : Block := fSent 1 []
/-- An edge of leg 15, which no function uses. -/
def fBad : Block := fSent 0 [15 * 32768]
def fReset : Block := { prot := { summitReset := true, resetAt := none } }
def fOut : Block := { prot := { sysOut := true } }
def fMissed : Block := { prot := { missed := 1, missAt := some 0 } }
def fGot : Block := { prot := { got := true, resetAt := some 0 } }

theorem test_witness_LocalLegFrames :
    fReset.prot.summitReset = true ∧ fOut.prot.sysOut = true ∧ (fGood.prot.summitReset = false ∧ fGood.prot.sysOut = false) ∧ fGot.prot.sent = none
    ∧ (fMissed.prot.missAt = some (now fMissed) ∧ fReset.prot.missAt ≠ some (now fReset))
    ∧ (fOld.prot.sent = some { stride := 1, edges := [], trip66 := true } ∧ 1 ≠ now fOld)
    ∧ (fGood.prot.sent = some { stride := 0, edges := [], trip66 := true } ∧ 0 = now fGood ∧ (∀ n < 16, legEdgesOk fGood [] n = true))
    ∧ legEdgesOk fBad [15 * 32768] 15 = false
    ∧ (fGot.prot.got = true ∧ fGot.prot.resetAt = some 0 ∧ 0 ≤ now fGot ∧ fReset.prot.got = false ∧ fReset.safe.commitDue = []
        ∧ fReset.prot.resetAt = none ∧ { fGot with prot.got := false }.prot.resetAt = some 0) := by
  decide +kernel

/-- Only leg 15 has function 1; the others have 3. -/
def dLegs : Tbl (List W32) := (List.range 15).map (fun k => (cfgKey 0x1A k, [0xC0000000, 0])) ++ [(cfgKey 0x1A 15, [0x40000000, 0])]
def dMissed : Block := { cfg := dLegs, prot := { missed := 2, legs := [(15, { len := true, target := 2 })] } }
def dRole : Block := { prot := { missed := 0, sysOut := true, role := 3 } }
def dRestart (t : Nat) : Block := { time := { ns := 10000000 }, md := { mode := .form }, prot := { restartAt := some t } }
def dForm : Block := { time := { ns := 20000 }, md := { mode := .form } }
def dSafe : Block := { time := { ns := 20000 } }
def dSoon : Block := { time := { ns := 10000 } }

theorem test_witness_LossOfADie :
    (dForm.prot.missed < 2 ∧ dForm.prot.sysOut = false)
    ∧ (∀ b ∈ [dMissed, dRole], b.prot.summitLost = false ∧ b.prot.frozen = false ∧ (2 ≤ b.prot.missed ∨ b.prot.sysOut = true))
    ∧ treatedLead dMissed.prot.role = true ∧ treatedLead dRole.prot.role = false
    ∧ ((∀ m < 16, m ≠ 15 → legFunc dMissed m = 3) ∧ legFunc dMissed 15 = 1 ∧ (leg dMissed 15).len = true ∧ (leg dMissed 15).target ≠ 0
        ∧ legHeld dMissed 15 = false)
    ∧ now (dRestart 1) < 1 + 1000 ∧ (dForm.prot.restartAt = none ∧ dForm.prot.patrolLost = false ∧ dForm.prot.statusAt + 2 = now dForm ∧ dForm.md.mode ≠ .safe ∧ dForm.md.imm = none ∧ isPartner dForm = false)
    ∧ (∀ t, (dRestart 0).prot.restartAt = some t → t + 1000 ≤ now (dRestart 0)) ∧ now dSoon < dSoon.prot.statusAt + 2
    ∧ (dSafe.prot.restartAt = none ∧ dSafe.prot.patrolLost = false ∧ dSafe.prot.statusAt + 2 = now dSafe ∧ dSafe.md.mode = .safe) := by
  decide +kernel

def sHigh : Block := { adm with safe := { filtA := true, filtB := true } }
def sA : Block := { adm with safe := { filtA := true } }
def sB : Block := { adm with time := { ns := 49000000 }, safe := { filtB := true, failB := 1, sptA := some 0 } }
def sDemand : Block := { adm with md := { mode := .form }, safe := { demand := true } }
def sOff : Block := { cfg := [(cfgKey 0x80 0, [0x00800000, 0, 0, 0])] }
/-- The inputs have differed for DISCREPANCY of Table 12-2, 1 ms at its least. -/
def sLong : Block := { time := { ns := 1000000 }, cfg := [(cfgKey 0x80 0, [0x00002000, 0, 0, 0])], safe := { filtB := true, filtAAt := 0 } }

theorem test_witness_SafeBlockDemands :
    (∀ b ∈ [sHigh, sB, sDemand], Admitted b 0x0209 [])
    ∧ (sHigh.safe.filtA = true ∧ (false, 10).1 ≠ sHigh.safe.filtA ∧ cfgN sHigh 0x80 0 0 31 24 ≤ (false, 10).2 ∧ sHigh.safe.demand = false)
    ∧ (sDemand.safe.demand = true ∧ sDemand.safe.filtA = false ∧ (true, 10).1 ≠ sDemand.safe.filtA ∧ ¬ cfgN sDemand 0x80 0 0 31 24 ≤ (true, 9).2)
    ∧ cfgBit sOff 0x80 0 0 23 = true ∧ (cfgBit sA 0x80 0 0 23 = false ∧ pulseDue sA 0 = true ∧ pulseDue sA 1 = false ∧ sA.safe.filtA = true ∧ sA.safe.filtB = false)
    ∧ (cfgBit sB 0x80 0 0 23 = false ∧ pulseDue sB 1 = true ∧ sB.safe.filtB = true ∧ sB.safe.filtA = false ∧ 1 ≤ sB.safe.failB)
    ∧ (sLong.safe.filtA = false ∧ sLong.safe.filtB = true ∧ sLong.safe.filtAAt + cfgN sLong 0x80 0 0 22 13 * 100 = now sLong
        ∧ sLong.safe.filtBAt + cfgN sLong 0x80 0 0 22 13 * 100 = now sLong ∧ now sA < sA.safe.filtAAt + cfgN sA 0x80 0 0 22 13 * 100)
    ∧ sHigh.safe.filtA = sHigh.safe.filtB
    ∧ (atRest sDemand = false ∧ atRest sB = true ∧ sB.safe.filtA = false ∧ sB.safe.degr.getLsbD 0 = false)
    ∧ atRest sHigh = true := by
  refine ⟨fun b hb => ?_, by decide +kernel⟩
  simp only [List.mem_cons, List.not_mem_nil, or_false] at hb
  rcases hb with rfl | rfl | rfl <;> exact admits _ _ _ rfl rfl rfl

/-- SAFETY_CFG as after reset but for the outputs in use: both, or the second alone. -/
def outsB : Tbl (List W32) := [(cfgKey 0x80 0, [0x0A0C94C0, 0x1E5B4140, 0x3F000000, 0])]
def outs1 : Tbl (List W32) := [(cfgKey 0x80 0, [0x0A0C9480, 0x1E5B4140, 0x3F000000, 0])]
def armWait : HostIf := { adm.host with waiting := [{ h := h0, op := 0x020A, objs := [.safetyOut 0, .safetyOut 1] }] }
/-- Stride 1000. -/
def oTime : TimeS := { ns := 10000000 }
def oArm (k : Nat) : Block := { adm with time := oTime, host := armWait, cfg := outs1, safe := { out := [(1, { st := 1, armStep := k, stepAt := if k = 3 then 0 else 900 })] } }
def oSoon (k : Nat) : Block := { oArm k with safe := { out := [(1, { st := 1, armStep := k, stepAt := 901 })] } }
def oBad : Block := { oArm 1 with safe := { demand := true, out := [(1, { st := 1, armStep := 1 })] } }
def oFree : Block := { adm with cfg := outsB }
def oArmed : Block := { adm with cfg := outsB, safe := { nextTest := 3, out := [(0, { st := 2, armed := true, high := true, low := true }),
                                                                             (1, { st := 2, armed := true, high := true, low := true })] } }
def oTested : Block := { oArmed with time.sec := 2, time.ns := 390000000, safe.testAt := some 0 }
/-- A test of switch `sw` of output 1 begun `d` strides ago; SO_PULSE of 20 strides. -/
def oTest (sw d : Nat) : Block := { cfg := outs1, time := oTime, safe := { out := [(1, { st := 3, armed := true, test := some sw, testLow := true, stepAt := 1000 - d })] } }
def oPair : Block := { oArmed with cfg := outsB ++ [(cfgKey 0x81 0, [0x80800000, 0])] }
def oForm : Block := { oArmed with md := { mode := .form } }

theorem test_witness_SafetyOutputs :
    (∀ b ∈ [oForm, oFree, oArmed], ∀ op ∈ [0x020A, 0x020B], Admitted b op [.safetyOut 0, .safetyOut 1])
    ∧ (atRest oForm = false ∧ atRest oFree = true ∧ oFree.safe.demand = false ∧ oFree.prot.copyA.tripped = false
        ∧ oFree.prot.copyB.tripped = false ∧ oFree.prot.pcfgBad = false ∧ oFree.safe.backstop = false)
    ∧ ({ oFree with safe := { backstop := true, degr := 1 } } : Block).safe.degr ≠ 0
    ∧ (∀ j ∈ [0, 1], (safeOut oArmed j).armed = true) ∧ (soInUse oFree 0 = true ∧ (safeOut oFree 0).armed = false)
    ∧ (∀ k ∈ [1, 2, 3], (safeOut (oArm k) 1).st = 1 ∧ (∀ j < 1, (safeOut (oArm k) j).st ≠ 1) ∧ (safeOut (oArm k) 1).armStep = k
        ∧ (oArm k).safe.demand = false ∧ (soInUse (oArm k) 0 = false ∧ (safeOut (oArm k) 0).st = 0) ∧ coilMin (oArm k) = 20)
    ∧ (∀ k ∈ [1, 2], (safeOut (oArm k) 1).stepAt + 100 = now (oArm k) ∧ now (oSoon k) < (safeOut (oSoon k) 1).stepAt + 100)
    ∧ ((safeOut (oArm 3) 1).stepAt + 1000 = now (oArm 3) ∧ now (oSoon 3) < (safeOut (oSoon 3) 1).stepAt + 1000)
    ∧ ((oArm 1).host.waiting = [{ h := h0, op := 0x020A, objs := [.safetyOut 0, .safetyOut 1] }])
    ∧ (oBad.safe.demand = true ∧ (safeOut oBad 1).st = 1)
    ∧ (oArmed.prot.restartAt = none ∧ oArmed.safe.nextTest / 2 = 1 ∧ (safeOut oArmed 1).st = 2 ∧ (safeOut (oArm 1) 1).st ≠ 2)
    ∧ (oTested.safe.testAt = some 0 ∧ now oTested < 0 + 240000 ∧ oArmed.safe.testAt = none)
    ∧ (∀ sw ∈ [0, 1], ∀ d ∈ [4, 5, 19, 20, 119, 120], (safeOut (oTest sw d) 1).st = 3 ∧ (∀ j < 1, (safeOut (oTest sw d) j).st ≠ 3)
        ∧ (safeOut (oTest sw d) 1).test = some sw ∧ coilMin (oTest sw d) = 20 ∧ cfgN (oTest sw d) 0x80 0 0 12 8 = 20
        ∧ now (oTest sw d) = (safeOut (oTest sw d) 1).stepAt + d)
    ∧ (pairEn oPair = true ∧ pairEn oForm = false ∧ oForm.md.mode ≠ .safe ∧ oForm.md.imm = none ∧ isPartner oForm = false
        ∧ (safeOut oPair 1).st = 2) := by
  refine ⟨fun b hb op _ => ?_, by decide +kernel⟩
  simp only [List.mem_cons, List.not_mem_nil, or_false] at hb
  rcases hb with rfl | rfl | rfl <;> exact admits _ _ _ rfl rfl rfl

/-- Degradation 0 has stood since stride 0; PLOUGH_MAX of one minute. -/
def gMin (t : Nat) : Block := { adm with time := { sec := t }, cfg := [(cfgKey 0x80 0, [0x0A0C94C0, 0x00800000, 0, 0])]
                                         safe := { degr := 1, degrSince := some 0, passA := 10 } }
def gStays : Block := { adm with safe := { degr := 0x80 } }
/-- Channel 47 trips and has failed its test. -/
def gDue : Block := { cfg := compCfg, prot := { comps := [(47, { failed := true })] } }

theorem test_witness_DegradationTimers :
    (∀ b ∈ [gMin 0, gStays, adm], Admitted b 0x020C []) ∧ adm.safe.degrSince = none
    ∧ ((gMin 60).safe.degrSince = some 0 ∧ 0 + ploughStrides (gMin 60) = now (gMin 60) ∧ (gMin 60).safe.expired = false
        ∧ now (gMin 59) < 0 + ploughStrides (gMin 59))
    ∧ (0 + ploughStrides (gMin 120) + 6000000 = now (gMin 120) ∧ (gMin 120).safe.backstop = false
        ∧ now (gMin 119) < 0 + ploughStrides (gMin 119) + 6000000)
    ∧ gDue.safe.dueDay = none ∧ { gDue with safe := { dueDay := some 0 } }.safe.dueDay = some (gDue.time.sec / 86400) ∧ compOverdue gDue 47 = true ∧ (∀ c < 48, compOverdue adm c = false)
    ∧ bits (0x100 : W32) 31 8 ≠ 0 ∧ adm.safe.degr.getLsbD 7 = false
    ∧ (gStays.safe.degr.getLsbD 7 = true ∧ degrGone gStays 7 = false) ∧ ((gMin 0).safe.degr.getLsbD 0 = true ∧ degrGone (gMin 0) 0 = true) := by
  refine ⟨fun b hb => ?_, by decide +kernel⟩
  simp only [List.mem_cons, List.not_mem_nil, or_false] at hb
  rcases hb with rfl | rfl | rfl <;> exact admits _ _ _ rfl rfl rfl

def pw12 : List (BitVec 8) := List.replicate 12 0x41
def wService : Block := { adm with md := { mode := .service } }
def wSet : Block := { wService with safe := { pw := some ([], []) } }
def wLocked : Block := { adm with safe := { lockUntil := some 0 } }
def wRight (n : Nat) : Block := { adm with safe := { pw := some ([1], pwHash [1] (pw12.map BitVec.toNat)), fails := n } }
def wWrong (n : Nat) : Block := { adm with safe := { pw := some ([1], 0 :: pwHash [1] (pw12.map BitVec.toNat)), fails := n } }
def wSess : CfgSession := { label := [], lastAt := 0 }
def wOpen : Block := { adm with safe := { session := some wSess } }
def wLate : Block := { wOpen with time := { sec := 600 } }
def wLog : Block := { adm with safe := { logSeq := 20, log := List.replicate 14 (List.replicate 8 0) } }

theorem ne_cons (l : List Nat) : l ≠ 0 :: l := by intro h; simpa using congrArg List.length h

theorem test_witness_SafetyPasswords :
    (∀ b ∈ [wService, wSet, wLocked, wRight 0, wWrong 3, wWrong 4, wOpen, wLog, lForm, adm], ∀ op objs, Admitted b op objs)
    ∧ (∀ n, (wRight n).safe.pw = some ([1], pwHash [1] (pw12.map BitVec.toNat)))
    ∧ pwHash [1] (pw12.map BitVec.toNat) ≠ 0 :: pwHash [1] (pw12.map BitVec.toNat)
    ∧ (adm.md.mode ≠ .service ∧ wSet.md.mode = .service ∧ wSet.safe.pw.isSome = true ∧ wService.md.mode = .service ∧ wService.safe.pw = none
        ∧ pw12.length = 12 ∧ (pw12.drop 1).length < 12)
    ∧ (atRest lForm = false ∧ atRest wLocked = true ∧ wLocked.safe.lockUntil.isSome = true ∧ atRest wOpen = true ∧ wOpen.safe.lockUntil = none
        ∧ wOpen.safe.session.isSome = true ∧ [(0 : W32), 0, 0, 0].length = 4 ∧ 3 < 4)
    ∧ (adm.safe.session = none ∧ wOpen.safe.session = some wSess)
    ∧ (safeStruct 0x16 = true ∧ 15 < cfgCount 0x16 ∧ cfgWords 0x16 = 2 ∧ bits (0x16000F00 : W32) 31 24 = 0x16
        ∧ bits (0x16000F00 : W32) 23 8 = 15 ∧ bits (0x16000F00 : W32) 7 0 = 0
        ∧ cfgRefused (withStaged wSess wOpen) 0x16 15 [0x10C8, 0x30000000] = none
        ∧ cfgRefused (withStaged wSess wOpen) 0x16 15 [0, 0] = some (.badArg, 0))
    ∧ (wSess.lastAt + 60000000 = now wLate ∧ now wOpen < wSess.lastAt + 60000000)
    ∧ (wLocked.safe.lockUntil = some 0 ∧ 0 ≤ now wLocked ∧ now wLocked < 1)
    ∧ (0 < 1 ∧ (0 : W64).toNat + wLog.safe.log.length < wLog.safe.logSeq ∧ wLog.safe.logSeq = (6 : W64).toNat + wLog.safe.log.length) := by
  refine ⟨fun b hb op objs => ?_, fun n => ?_, ?_, by decide +kernel⟩
  · simp only [List.mem_cons, List.not_mem_nil, or_false] at hb
    rcases hb with rfl | rfl | rfl | rfl | rfl | rfl | rfl | rfl | rfl | rfl <;> exact admits _ _ _ rfl rfl rfl
  · unfold wRight; rfl
  · exact ne_cons _


/-- Leg 15 as given, its source the edges with one to each state at offset 8191; dead time 100 samples, bootstrap refresh
after 10 µs on, pulse 1, idle 1 ms. -/
def legCfg : Tbl (List W32) := [(cfgKey 0x16 15, [0, 0x30000000]), (cfgKey 0x1A 15, [0x419200A0, 0x00100100])]
def legB (l : Leg) : Block := { time := { ns := 1000000 }, cfg := legCfg
                                prot := { legs := [(15, l)], legEdges := [0xFFFF8000 ||| 0x4000, 0xFFFF8000, 0xFFFF8000 ||| 0x2000] } }
def eOff : Block := legB {}
def eOn : Block := legB { len := true, lp := true, target := 2, cmd := 2 }
def eHeld : Block := legB { sc := true }
def eUp (f : Option Nat) : Block := legB { target := 2, onAt := some 808191, fellAt := f }
def eUpNow : Block := eUp (some 808091)
def eUpSoon : Block := eUp (some 808092)
def eWait : Block := legB { target := 2, onAt := some 808192 }
def eDeferSoon : Block := legB { deferred := true, fellAt := some 808092 }
def eDefer : Block := legB { deferred := true, fellAt := some 808091 }
def eCmd : Block := legB { cmd := 2 }
/-- Leg 15 belongs to drive 3, HALTED with a setpoint. -/
def eHalt : Block := { cfg := [(cfgKey 0x1A 15, [0xC0000000, 0]), (cfgKey 0x1B 3, [0xBFFC0000, 0, 0, 0, 0, 0, 0, 0, 0, 0, 0, 0])]
                       prot := { drives := [(3, { st := .halted, setpoint := 0x3F800000 })] } }
def eFreeze : Block := { prot := { frozen := true, drives := [(3, { st := .run }), (4, {})] }, safe := { degr := 0x80 } }

theorem test_witness_LegChanges :
    (sourceSays ({} : Block) 15 0 0 = false)
    ∧ (∀ b ∈ [eOff, eOn, eHeld], ∀ dst < 3, sourceSays b 15 dst 8191 = true)
    ∧ legHeld eHeld 15 = true ∧ (∀ b ∈ [eOff, eOn, eUpNow, eUpSoon, eDefer, eCmd], legHeld b 15 = false ∧ b.prot.frozen = false)
    ∧ ((leg eOn 15).len = true ∧ (leg eOn 15).target ≠ 0 ∧ (leg eOn 15).ins = none ∧ (leg eOn 15).target ≠ 1)
    ∧ ((leg eOff 15).len = false ∧ (leg eOff 15).onAt = none ∧ (leg eOff 15).ins = none ∧ (leg eOff 15).cmd ≠ 2)
    ∧ ((leg eUpNow 15).onAt = some (sampleAt eUpNow 8191) ∧ (leg eUpNow 15).ins = none
        ∧ ((leg eUpNow 15).fellAt.map (· + legDead eUpNow 15)).getD 0 = sampleAt eUpNow 8191)
    ∧ ((leg eUpSoon 15).onAt = some (sampleAt eUpSoon 8191)
        ∧ sampleAt eUpSoon 8191 < ((leg eUpSoon 15).fellAt.map (· + legDead eUpSoon 15)).getD 0)
    ∧ (∀ b ∈ [eUpNow, eUpSoon], prechargeDue b 15 (sampleAt b 8191) = false) ∧ sampleAt eWait 8191 < ((leg eWait 15).onAt).getD 0
    ∧ sampleAt eDeferSoon 8191 < ((leg eDeferSoon 15).fellAt.map (· + legDead eDeferSoon 15)).getD 0
    ∧ ((leg eDefer 15).deferred = true ∧ (leg eDefer 15).len = false
        ∧ ((leg eDefer 15).fellAt.map (· + legDead eDefer 15)).getD 0 ≤ sampleAt eDefer 8191 ∧ (leg eOff 15).deferred = false)
    ∧ ((leg eCmd 15).len = false ∧ legFunc eCmd 15 ≠ 3 ∧ (leg eCmd 15).cmd ≠ 0)
    ∧ (legHeld eHalt 15 = false ∧ eHalt.prot.frozen = false ∧ (leg eHalt 15).len = false ∧ legFunc eHalt 15 = 3
        ∧ driveOf eHalt 15 = some 3 ∧ (drive eHalt 3).st = .halted ∧ driveForced eHalt 3 = false ∧ fIsZero (drive eHalt 3).setpoint = false)
    ∧ (eFreeze.safe.degr.getLsbD 7 = true ∧ eOff.safe.degr.getLsbD 7 = false ∧ eFreeze.prot.frozen = true ∧ eOff.prot.frozen = false
        ∧ (drive eFreeze 3).st ≠ .off ∧ (drive eFreeze 3).st ≠ .fault ∧ (drive eFreeze 0).st = .off) := by
  decide +kernel

def bHard (n : Nat) : Block := legB { hardRun := n, scRun := n }
/-- SC_BLANK of 10 units of 10 ns, 80 samples. -/
def bBlanking (r : Nat) (l : Leg) : Block := { legB { l with blank := true, riseAt := some r } with cfg := (cfgKey 0x16 15, [0x28, 0x30000000]) :: legCfg.drop 1 }
def bBlank (on : Bool) : Block := legB { blank := true, scOn := on, scRun := 2 }
def bSeen (t : Option Nat) : Block := legB { blank := true, scSeen := true, blankEvAt := t }
def bSeenAgain : Block := bSeen (some 0)
def bLong (r : Nat) : Block := legB { len := true, lp := true, riseAt := some r }
def bPre : Block := legB { cmd := 2, onAt := some 0, offSince := some 0 }
def bStarve (n : Nat) : Block := legB { starveRun := n }

theorem test_witness_LegGuards :
    (legScK (bHard 2) 15 = 3 ∧ (leg (bHard 2) 15).hardOn = false ∧ legScK (bHard 2) 15 ≤ (leg (bHard 2) 15).hardRun + 1
        ∧ (leg (bHard 2) 15).sc = false ∧ (leg (bHard 1) 15).hardRun + 1 < legScK (bHard 1) 15
        ∧ (leg (bHard 2) 15).scOn = false ∧ legScK (bHard 2) 15 ≤ (leg (bHard 2) 15).scRun + 1 ∧ (leg (bHard 2) 15).blank = false)
    ∧ ((leg (bBlank false) 15).scOn = false ∧ legScK (bBlank false) 15 ≤ (leg (bBlank false) 15).scRun + 1
        ∧ (leg (bBlank false) 15).blank = true ∧ (leg (bBlank true) 15).scOn = true ∧ (leg (bBlank true) 15).sc = false
        ∧ (leg (bBlank false) 15).scSeen = false)
    ∧ (∀ l ∈ [({} : Leg), { scOn := true }, { scSeen := true }], (leg (bBlanking 808111 l) 15).riseAt.getD 0 + 8 * cfgN (bBlanking 808111 l) 0x16 15 0 11 2 = sampleAt (bBlanking 808111 l) 8191
        ∧ sampleAt (bBlanking 808112 l) 8191 < (leg (bBlanking 808112 l) 15).riseAt.getD 0 + 8 * cfgN (bBlanking 808112 l) 0x16 15 0 11 2)
    ∧ ((leg (bSeen none) 15).blank = true ∧ (leg (bSeen none) 15).scOn = false ∧ (leg (bSeen none) 15).scSeen = true
        ∧ (leg (bSeen none) 15).blankEvAt = none ∧ (leg bSeenAgain 15).blankEvAt = some 0 ∧ now bSeenAgain < 0 + 1000)
    ∧ ((leg (bLong 800191) 15).len = true ∧ (leg (bLong 800191) 15).lp = true ∧ (leg (bLong 800191) 15).ins = none
        ∧ (leg (bLong 800191) 15).blank = false ∧ bootEn (bLong 800191) 15 = true ∧ (bLong 800191).prot.frozen = false
        ∧ legHeld (bLong 800191) 15 = false
        ∧ (leg (bLong 800191) 15).riseAt.getD 0 + bootMax (bLong 800191) 15 * 800 = sampleAt (bLong 800191) 8191
        ∧ sampleAt (bLong 800192) 8191 < (leg (bLong 800192) 15).riseAt.getD 0 + bootMax (bLong 800192) 15 * 800)
    ∧ ((leg bPre 15).cmd = 2 ∧ (leg bPre 15).len = false ∧ (leg bPre 15).onAt = some 0 ∧ (leg bPre 15).ins = none
        ∧ bootEn bPre 15 = true ∧ (leg bPre 15).offSince = some 0 ∧ 0 + bootIdle bPre 15 * 800000 ≤ sampleAt bPre 8191
        ∧ bPre.prot.frozen = false ∧ legHeld bPre 15 = false ∧ (leg eOff 15).cmd ≠ 2)
    ∧ (100000 ≤ (leg (bStarve 100000) 15).starveRun ∧ (leg (bStarve 100000) 15).starveTold = false
        ∧ (leg (bStarve 99999) 15).starveRun < 100000) := by
  decide +kernel

/-- DRIVE_CFG 3 on legs 15, 14, 13: a fan with one pole pair, PWM 80 in 100 Hz, ramps of 100, current limit 10.0, CATCH_MIN 100.0,
BRAKE_MAX 10, 3 retries. -/
def drvCfg (pump : Bool) : Tbl (List W32) :=
  [(cfgKey 0x1A 13, [0xC0000000, 0]), (cfgKey 0x1A 14, [0xC0000000, 0]), (cfgKey 0x1A 15, [0xC0000000, 0]),
   (cfgKey 0x1B 3, [if pump then 0xFFB41280 else 0xBFB41280, 0x459C4000, 0x42C80000, 0x42C80000, 0x3F800000, 0x3F800000, 0x41200000, 0,
                    0x3F800000, 0x3E19999A, 0x42C80000, 0x0A000A30])]
def drvB (pump : Bool) (v : Drive) : Block := { adm with time := { ns := 100000000 }, cfg := drvCfg pump, prot := { drives := [(3, v)] } }
def vCatch : Block := drvB false { st := .catch, window := true, setpoint := 0x447A0000 }
def vPump : Block := drvB true { st := .catch, window := true, setpoint := 0x447A0000 }
def vBack : Block := drvB false { st := .catch, window := true, setpoint := 0xC47A0000 }
def vBrake (t : Nat) : Block := drvB false { st := .brake, window := true, setpoint := 0xC47A0000, since := t, lastCross := 3 }
def vBrakeLong : Block := { drvB false { st := .brake, window := true, setpoint := 0xC47A0000, since := 0, lastCross := 3 } with time := { sec := 1 } }
def vBraking (t : Nat) : Block := drvB false { st := .brake, phaseAt := t }
/-- The same fan and pump with KE_ACTION = 1. -/
def vKe (pump : Bool) : Block := { drvB pump { st := .catch, window := true, setpoint := 0x447A0000, resSpeed := 0x447A0000 } with
  cfg := (drvCfg pump).take 3 ++ ((drvCfg pump).drop 3).map fun e => (e.1, [word e.2 0 ||| 4] ++ e.2.drop 1) }
def vAlign : Block := drvB false { st := .align }
def vRecover : Block := drvB false { st := .recover }
def vRun : Block := drvB false { st := .run, setpoint := 0x447A0000, ref := 0x447A0000, sectorMs := 0x41200000, missRun := 2 }
def vOff : Block := drvB false { st := .off }
def vFault : Block := drvB false { st := .fault }
/-- Leg 15 of the running drive is latched. -/
def vForced : Block := { vRun with prot := { drives := [(3, { st := .run })], legs := [(15, { sc := true })] } }

theorem test_witness_DriveStates :
    (∀ b ∈ [vRun, vOff, vFault, vPump, vCatch], ∀ op, Admitted b op [.drive 3])
    ∧ (∀ b ∈ [vCatch, vPump, vBack, vBrake 100, vBrakeLong], (drive b 3).window = true ∧ b.prot.frozen = false ∧ cfgBit b 0x1B 3 0 2 = false)
    ∧ (∀ b ∈ [vCatch, vPump, vBack, vBrake 100, vBrakeLong], (drive b 3).phaseAt + cfgN b 0x1B 3 11 31 22 * 100 ≤ now b)
    ∧ (∀ pump ∈ [true, false], cfgBit (vKe pump) 0x1B 3 0 2 = true ∧ fle (catchMin (vKe pump) 3) (fabs (windowSpeed (vKe pump) 3 3 0x41200000 true)) = true
        ∧ drvPump (vKe pump) 3 = pump ∧ (drive (vKe pump) 3).sensorless = false
        ∧ keInBand (vKe pump) 3 (fdiv (fmul 0x7F000000 (ofNatF 1000)) (fabs (windowSpeed (vKe pump) 3 3 0x41200000 true))) = false)
    ∧ ((drive (vBraking 8000) 3).st = .brake ∧ (drive (vBraking 8000) 3).window = false ∧ (drive (vBraking 8000) 3).phaseAt + 2000 = now (vBraking 8000)
        ∧ now (vBraking 8001) < (drive (vBraking 8001) 3).phaseAt + 2000 ∧ (drive (vBraking 0) 3).lastCross < 3)
    ∧ ((drive vRun 3).window = false ∧ drvPump vPump 3 = true ∧ (drive vPump 3).sensorless = false ∧ drvPump vCatch 3 = false)
    ∧ (fNeg? (withSign (!true) (sectorRate vCatch 3 0x41200000)) = fNeg? (drive vCatch 3).setpoint ∧ (drive vCatch 3).st = .catch)
    ∧ (¬ fNeg? (withSign (!true) (sectorRate vBack 3 0x41200000)) = fNeg? (drive vBack 3).setpoint ∧ (drive vBack 3).st = .catch)
    ∧ (¬ fNeg? (withSign (!true) (sectorRate vBrakeLong 3 0x41200000)) = fNeg? (drive vBrakeLong 3).setpoint
        ∧ (drive (vBrake 100) 3).st = .brake ∧ now (vBrake 100) < (drive (vBrake 100) 3).since + brakeMax (vBrake 100) 3 * 1000
        ∧ (drive vBrakeLong 3).st = .brake ∧ (drive vBrakeLong 3).since + brakeMax vBrakeLong 3 * 1000 ≤ now vBrakeLong
        ∧ 3 ≤ (drive vBrakeLong 3).lastCross)
    ∧ ((drive vAlign 3).st = .align ∧ (drive vAlign 3).since + 10000 = now vAlign ∧ (drive vRecover 3).st = .recover
        ∧ (drive vRecover 3).since + cfgN vRecover 0x1B 3 11 31 22 * 100 ≤ now vRecover ∧ (drive vOff 3).st = .off ∧ (drive vFault 3).st = .fault)
    ∧ ((drive vRun 3).st = .run ∧ sixStep vRun 3 = true ∧ 2 ≤ (drive vRun 3).missRun ∧ (∀ kv ∈ vRun.prot.legs, kv.2.blank = false)
        ∧ (recentRecoveries vRun 3).length < retries vRun 3)
    ∧ (driveForced vForced 3 = true ∧ (drive vForced 3).st ∉ [DriveSt.off, .fault, .halted] ∧ driveForced vRun 3 = false) := by
  refine ⟨fun b hb op => ?_, by decide +kernel⟩
  simp only [List.mem_cons, List.not_mem_nil, or_false] at hb
  rcases hb with rfl | rfl | rfl | rfl | rfl <;> exact admits _ _ _ rfl rfl rfl

def vLoop (n t : Nat) : Block := drvB false { st := .openLoop, setpoint := 0x447A0000, sectorMs := 0x41200000, crossRun := n, since := t }
def vLoopLong : Block := { drvB false { st := .openLoop, since := 0 } with time := { sec := 2 } }
def vPumpRun : Block := drvB true { st := .run, setpoint := 0x447A0000, ref := 0x447A0000 }
/-- Half a sector, 5 ms, after a crossing; and an evaluation of the loop in the present period. -/
def vCross : Block := drvB false { st := .run, setpoint := 0x447A0000, ref := 0x447A0000, sectorMs := 0x41200000, commDue := true, crossAt := 76000000 }
def vJust : Block := drvB false { st := .run, setpoint := 0x447A0000, ref := 0x447A0000, sectorMs := 0x41200000, commAt := 76000000 }
def vLooped : Block := drvB false { st := .run, setpoint := 0x447A0000, ref := 0x447A0000, loopAt := some 80000000 }
def vRegen : Block := drvB true { st := .run, setpoint := 0x447A0000, ref := 0x447A0000, u := 0xBF000000, resSpeed := 0x447A0000 }
def vStop : Block := drvB false { st := .run, setpoint := 0, ref := 0x42C80000 }

theorem test_witness_DriveCommutation :
    ((drive vOff 3).st ∉ [DriveSt.run, .openLoop] ∧ (drive vOff 3).st ≠ .openLoop ∧ (drive vOff 3).st ≠ .run)
    ∧ (∀ b ∈ [vRun, vLoop 5 100], sixStep b 3 = true ∧ b.prot.frozen = false
        ∧ (fle (fmul 0x3F000000 (drive b 3).sectorMs) 0x41200000 && fle 0x41200000 (fmul 0x3FC00000 (drive b 3).sectorMs)) = true)
    ∧ ((drive vRun 3).st = .run ∧ (drive (vLoop 5 100) 3).st = .openLoop ∧ 5 ≤ (drive (vLoop 5 100) 3).crossRun
        ∧ fle (catchMin (vLoop 5 100) 3) (fabs (withSign (fNeg? (drive (vLoop 5 100) 3).setpoint) (sectorRate (vLoop 5 100) 3 0x41200000))) = true)
    ∧ (commutes (drive vCross 3) (sampleAt vCross 0) = true ∧ (drive vCross 3).st = .run ∧ sixStep vCross 3 = true
        ∧ commutes (drive vJust 3) (sampleAt vJust 0) = false)
    ∧ (periodPassed vRun 3 (sampleAt vRun 0) = true ∧ periodPassed vLooped 3 (sampleAt vLooped 0) = false)
    ∧ (drvPump vRegen 3 = true ∧ (drive vRegen 3).st = .run ∧ fIsZero (drive vRegen 3).u = false ∧ fNeg? (drive vRegen 3).u ≠ fNeg? (drive vRegen 3).resSpeed
        ∧ flt (drvF vRegen 3 6) (fabs 0x3F800000) = false ∧ flt (drvF vRegen 3 7) (fabs 0x3F800000) = true)
    ∧ (sixStep vPumpRun 3 = false ∧ vPumpRun.prot.frozen = false)
    ∧ (fle (fmul 0x3FC00000 (catchMin (vLoop 5 100) 3))
          (fmul (drvF (vLoop 5 100) 3 2) (ofRat (now (vLoop 5 100) - (drive (vLoop 5 100) 3).since) 100000)) = false
        ∧ (drive vLoopLong 3).st = .openLoop ∧ vLoopLong.prot.frozen = false
        ∧ fle (fmul 0x3FC00000 (catchMin vLoopLong 3)) (fmul (drvF vLoopLong 3 2) (ofRat (now vLoopLong - (drive vLoopLong 3).since) 100000)) = true)
    ∧ ((refNext vRun 3 (ofRat 1 (drvPwm vRun 3 * 100))).2 = false ∧ flt (drvF vRun 3 6) (fabs 0x41300000) = true
        ∧ drvPump vRun 3 = false ∧ flt (drvF vRun 3 6) (fabs 0x41200000) = false)
    ∧ ((drive vStop 3).st = .run ∧ vStop.prot.frozen = false ∧ (refNext vStop 3 (ofRat 1 (drvPwm vStop 3 * 100))).2 = true) := by
  decide +kernel


/-- The fields of a format R instruction in every lane, of destination d and X as given. -/
def fr (d : Fin 32) (x : Fin 128) : FmtR := { pred := 0, pinv := false, d := d, a := 1, b := 2, x := x }
/-- The same in the lanes with p7, LIVE: lane 7 alone where `one7` holds. -/
def f7 : FmtR := { fr 0 0 with pred := 7 }
def fm (imm : Fin 1024) : FmtM := { pred := 0, pinv := false, d := 3, imm := imm, x := 0 }
def eng (g : Engine) : Block := { md := { mode := .form }, eng := [(271, g)] }

/-- A law of id 1 whose section is the whole program of `n` words. -/
def law1 (n : Nat) : Law :=
  { id := 1, modes := 0xFF, fromMask := 0, start := 0, len := n, cycles := 1, integMask := 1, outMask := 1, bind := [0], bindEn := 1 }

/-- Engine 271 in its window at the last word `w` of a program of two words; section `x`. -/
def at1 (x : Section) (w : W32) (g : Engine) : Block :=
  eng { g with running := true, sect := x, law := some 1, shadowLaw := some 1, pos := 1, cyc := 479
               bankA := { valid := true, words := Tbl.setRange 0 [] 0 [0, w], laws := [law1 2] } }
def e271 : Fin 272 := 271

theorem test_witness_CarveArithmetic :
    ((fr 0 0).x.val % 32 = 0 ∧ 0 < (fr 0 31).x.val % 32)
    ∧ (∀ f ∈ [fr 0 0, fr 31 127, f7], ∀ oc ∈ [(0x01, Instr.cvFadd e271 f), (0x02, .cvFsub e271 f), (0x03, .cvFmul e271 f), (0x04, .cvFma e271 f),
          (0x05, .cvFmin e271 f), (0x06, .cvFmax e271 f), (0x07, .cvFabs e271 f), (0x08, .cvFneg e271 f), (0x09, .cvFrcp e271 f),
          (0x0A, .cvFsqrt e271 f), (0x10, .cvIadd e271 f), (0x11, .cvIsub e271 f), (0x12, .cvIaddw e271 f), (0x13, .cvIsubw e271 f),
          (0x14, .cvImulq e271 f), (0x15, .cvIshl e271 f), (0x16, .cvIshr e271 f), (0x17, .cvAnd e271 f), (0x18, .cvOr e271 f),
          (0x19, .cvXor e271 f), (0x20, .cvFtoi e271 f), (0x21, .cvItof e271 f)],
        nextInsn (at1 .active (wordR oc.1 f) {}) e271 = some oc.2)
    ∧ nextInsn (eng {}) e271 ≠ some (.cvFadd e271 f7) := by decide +kernel

theorem test_witness_CarvePredicates :
    ((∀ c : Fin 6, (fr 0 ⟨c.val, by omega⟩).x.val % 8 = c.val) ∧ 6 ≤ (fr 0 6).x.val % 8 ∧ 6 ≤ (fr 0 7).x.val % 8)
    ∧ (∀ c : Fin 8, ∀ oc ∈ [(0x0B, Instr.cvFcmp e271 (fr 1 ⟨c.val, by omega⟩)), (0x1A, .cvIcmp e271 (fr 1 ⟨c.val, by omega⟩)),
          (0x1B, .cvUcmp e271 (fr 1 ⟨c.val, by omega⟩)), (0x28, .cvSel e271 (fr 1 ⟨c.val, by omega⟩)),
          (0x29, .cvPand e271 (fr 1 ⟨c.val, by omega⟩)), (0x2A, .cvPor e271 (fr 1 ⟨c.val, by omega⟩)), (0x2B, .cvPnot e271 (fr 1 ⟨c.val, by omega⟩))],
        nextInsn (at1 .active (wordR oc.1 (fr 1 ⟨c.val, by omega⟩)) {}) e271 = some oc.2)
    ∧ nextInsn (at1 .active (wordM 0x35 (fm 1023)) {}) e271 = some (.cvXok e271 (fm 1023)) := by decide +kernel

theorem test_witness_CarveMemory :
    (lanesOf ({} : Engine) 0 false = [0, 1, 2, 3, 4, 5, 6, 7] ∧ lanesOf ({} : Engine) 0 true = [] ∧ (fm 255).imm.val < 256 ∧ (fr 30 0).d.val < 31)
    ∧ (∀ f ∈ [fr 30 0, { fr 0 7 with pinv := true }], ∀ oc ∈ [(0x00, Instr.cvNop e271 f), (0x2C, .cvLsum e271 f), (0x2D, .cvLmax e271 f),
          (0x2E, .cvLmin e271 f), (0x2F, .cvLget e271 f), (0x22, .cvSincos e271 f), (0x23, .cvAtan2 e271 f)],
        nextInsn (at1 .active (wordR oc.1 f) {}) e271 = some oc.2)
    ∧ (∀ x ∈ [Section.active, .shadow], ∀ f ∈ [fm 0, fm 23, fm 255], ∀ oc ∈ [(0x31, Instr.cvLd e271 f), (0x32, .cvSt e271 f), (0x33, .cvLdc e271 f),
          (0x34, .cvXld e271 f), (0x36, .cvXldl e271 f), (0x3C, .cvPost e271 f)],
        nextInsn (at1 x (wordM oc.1 f) {}) e271 = some oc.2 ∧ (engine (at1 x (wordM oc.1 f) {}) 271).sect = x) := by decide +kernel

/-- Engine 271 at the instruction `op` of lane 7, which alone is LIVE: v1 of it is `a`, phase and section as given, output 0
of saturation `dir`. The instruction names integrator `k`, to which output 0 is bound for k = 0, output 0 and pair output 2. -/
def fk (k : Fin 32) : FmtR := { f7 with d := k }
def ctl (op : Nat) (k : Fin 32) (a : W32) (ph : Nat) (x : Section) (dir : W32) : Block :=
  at1 x (wordR op (fk k)) { mem := if dir = 0 then [(256 * 7 + 36, 0x200)] else [(256 * 7 + 36, 0x200), (256 * 7 + 152, dir)]
                            regs := [(32 * 7 + 1, a)], hoPhase := ph }
def ctlE (op : Nat) (k : Fin 32) (a : W32) (ph : Nat) (x : Section) (dir : W32) : Engine := engine (ctl op k a ph x dir) 271

theorem test_witness_CarveControl :
    (∀ k ∈ [(0 : Fin 32), 31], ∀ oc ∈ [(0x38, Instr.cvIntg e271 (fk k)), (0x39, .cvLim e271 (fk k)), (0x3A, .cvBump e271 (fk k)),
          (0x3B, .cvBumpo e271 (fk k))], ∀ x ∈ [Section.active, .shadow],
        nextInsn (ctl oc.1 k 0x3F800000 2 x 0) e271 = some oc.2 ∧ lanesOf (ctlE oc.1 k 0x3F800000 2 x 0) f7.pred.val f7.pinv = [7])
    ∧ (fIsNaN ((ctlE 0x38 0 0x7FC00000 0 .active 0).vget 7 1) = true ∧ fIsNaN ((ctlE 0x38 0 0x3F800000 0 .active 0).vget 7 1) = false)
    ∧ ((ctlE 0x38 0 0x3F800000 0 .active 0x4000).bound 0 = some 0 ∧ bits ((ctlE 0x38 0 0x3F800000 0 .active 0x4000).mget 7 152) 15 14 = 1
        ∧ flt 0 ((ctlE 0x38 0 0x3F800000 0 .active 0x4000).vget 7 1) = true)
    ∧ ((ctlE 0x38 0 0xBF800000 0 .active 0xC000).bound 0 = some 0 ∧ bits ((ctlE 0x38 0 0xBF800000 0 .active 0xC000).mget 7 152) 15 14 = 3
        ∧ flt ((ctlE 0x38 0 0xBF800000 0 .active 0xC000).vget 7 1) 0 = true)
    ∧ ((ctlE 0x3A 0 0x3F800000 0 .active 0).phase = 0 ∧ (ctlE 0x3A 0 0x3F800000 2 .shadow 0).phase = 1 ∧ (ctlE 0x3A 0 0x3F800000 2 .active 0).phase = 2)
    ∧ (∀ x ∈ [Section.active, .shadow], fIsNaN (fsub ((ctlE 0x3A 0 0x3F800000 2 x 0).mget 7 88) ((ctlE 0x3A 0 0x3F800000 2 x 0).vget 7 1)) = false
        ∧ fIsNaN (fsub ((ctlE 0x3A 0 0x7FC00000 2 x 0).mget 7 88) ((ctlE 0x3A 0 0x7FC00000 2 x 0).vget 7 1)) = true)
    ∧ ((ctlE 0x3A 0 0x3F800000 2 .active 0).bound 0 = some 0 ∧ (ctlE 0x3A 31 0x3F800000 2 .active 0).bound 15 = none
        ∧ fIsNaN (fsub ((ctlE 0x3B 0 0x3F800000 2 .active 0).mget 7 (88 + 4 * 2)) ((ctlE 0x3B 0 0x3F800000 2 .active 0).mget 7 (91 + 4 * 2))) = false) := by
  decide +kernel

/-- Every engine of a window is failed but the last; every bank is loaded. -/
def allFailed (lo len : Nat) : Tbl Engine :=
  (List.range' lo len).map fun k => (k, { failed := k + 1 ≠ lo + len, bankA := { valid := true }, law := some 1 })
def wSummit : Block := { md := { mode := .form }, eng := allFailed 256 16 }
/-- A unit of no role in a pair does no work of the engines. -/
def wOff : Block := { pair := { role := 1 } }
def wSquad : Block := { md := { mode := .form }, eng := allFailed 0 256 }
def wRun : Block := eng { running := true, sect := .active, nanLanes := 1 }
/-- SYS out of lock. -/
def wStop : Block := { md := { mode := .form }, prot := { sysOut := true } }
/-- The bank of engine 271 is not valid. -/
def wBare : Block := eng {}
/-- At its end, in the active section and with a shadow law to come; after its tail's end; with a word to issue. -/
def wEnd : Block := eng { running := true, sect := .active, shadowLaw := some 1, regs := [(0, 1)], cyc := 1 }
def wTail : Block := eng { running := true, sect := .tail }
/-- Engine 271 subscribes mirror word 0 to variable 0x1000, written in stride 0. -/
def wSub : Block := { eng {} with
  cfg := [(cfgKey 0x09 271, List.replicate 17 0 ++ [0x10000001])]
  fab := { xvars := [(0x1000, { cur := { val := 5, at? := some 0 } })], turn := 3, left := 1 } }

theorem test_witness_EngineWindows :
    (∀ x, 256 ≤ x → x < 272 → (engine wSummit x).bank.valid = true) ∧ (∀ x < 256, (engine wSquad x).bank.valid = true)
    ∧ (engine wSummit 271).failed = false ∧ (engine wSquad 255).failed = false ∧ (engine wSquad 255).law.isSome = true
    ∧ computes wOff = false ∧ computes wSummit = true ∧ computes wSquad = true
    ∧ (sysRuns wSummit = true ∧ sysRuns wSquad = true ∧ sysRuns wStop = false ∧ (engine wBare 271).bank.valid = false
        ∧ (engine wSquad 255).law ≠ (lawFor (engine wSquad 255).bank wSquad.md.mode).map Law.id)
    ∧ ((engine wSub 271).running = false ∧ (engine wTail 271).sect = .tail ∧ (engine (at1 .active 0 {}) 271).codeWord.isSome = true)
    ∧ (∀ b ∈ [wEnd, eng { running := true }], (engine b 271).running = true ∧ (engine b 271).sect ≠ .tail ∧ (engine b 271).codeWord = none
        ∧ sysRuns b = true)
    ∧ (subEn wSub 271 0 = true ∧ (mirrorValue wSub (subId wSub 271 0)).at?.isSome = true) ∧ (∀ m, subEn wSub 271 (m + 1) = false)
    ∧ (({} : Block).fab.turn = 0 ∧ ({} : Block).fab.left ≠ 0 ∧ fabWeight ({ fab := { left := 0 } } : Block).fab 1 ≠ 0)
    ∧ (wSub.fab.turn = 3 ∧ wSub.fab.left ≠ 0 ∧ fabWeight wSub.fab 0 ≠ 0) := by
  have e : ∀ lo len x, lo ≤ x → x < lo + len → Tbl.get {} (allFailed lo len) x
      = { failed := x + 1 ≠ lo + len, bankA := { valid := true }, law := some 1 } := fun lo len x h1 h2 => get_range' _ _ len lo x h1 h2
  refine ⟨fun x h1 h2 => ?_, fun x h => ?_, ?_, ?_, ?_, rfl, rfl, rfl, by decide +kernel, by decide +kernel, by decide +kernel, by decide +kernel,
    fun m => ?_, by decide +kernel, by decide +kernel⟩
  · simp only [engine, wSummit, e 256 16 x h1 h2]; rfl
  · simp only [engine, wSquad, e 0 256 x (Nat.zero_le _) (by omega)]; rfl
  · simp only [engine, wSummit, e 256 16 271 (by omega) (by omega)]; rfl
  · simp only [engine, wSquad, e 0 256 255 (by omega) (by omega)]; rfl
  · simp only [engine, wSquad, e 0 256 255 (by omega) (by omega)]; rfl
  · have h : 17 + (m + 1) = m + 18 := by omega
    simp [subEn, cfgBit, cfgW, wSub, eng, Tbl.get, word, bit, h]

def wAgain : Block := { eng { running := true, missStride := some 99 } with time := { ns := 1000000 } }
def wTwice : Block := { eng { running := true, missStride := some 100 } with time := { ns := 1000000 } }
/-- Engine 271 at PUBLISH or COMMIT in stride 100; one in a hand-over, one that has missed this stride. -/
def wPub (op : Nat) (g : Engine) : Block := { at1 .active (wordR op f7) g with time := { ns := 1000000 } }
def wDeliv : Block := eng { running := true, delivered := true, undo := some { lastCycle := 7 } }

theorem test_witness_DeliveryAndMisses :
    (∀ oc ∈ [(0x3D, Instr.cvPublish e271 f7), (0x3E, .cvCommit e271 f7)],
        (∀ g ∈ [({} : Engine), { missStride := some 100 }, { missStride := some 99 }, { hoPhase := 2 }], nextInsn (wPub oc.1 g) e271 = some oc.2)
        ∧ nextInsn wRun e271 ≠ some oc.2 ∧ (engine (wPub oc.1 { missStride := some 100 }) 271).missStride = some (work (wPub oc.1 {}))
        ∧ (engine (wPub oc.1 { missStride := some 99 }) 271).missStride ≠ some (work (wPub oc.1 {}))
        ∧ (∀ o < 16, supCfg (wPub oc.1 {}) 271 o = 0) ∧ (engine (wPub oc.1 {}) 271).nanLanes = 0 ∧ (engine (wPub oc.1 {}) 271).hoPhase ≠ 2
        ∧ (∀ j < 8, ∀ o < 16, (engine (wPub oc.1 {}) 271).mget j (152 + o) = 0)
        ∧ (engine (wPub oc.1 { hoPhase := 2 }) 271).hoPhase = 2)
    ∧ ((engine (eng {}) 271).running = false ∧ (engine wDeliv 271).delivered = true ∧ (engine wDeliv 271).undo.isSome = true
        ∧ (engine wDeliv 271).missStride ≠ some (work wDeliv) ∧ (engine wTwice 271).missStride = some (work wTwice))
    ∧ ((engine wRun 271).running = true ∧ (engine wRun 271).delivered = false ∧ (engine wRun 271).missStride ≠ some (work wRun)
        ∧ (engine wRun 271).missStride ≠ some (m64 (work wRun + 2 ^ 64 - 1)))
    ∧ ((engine wAgain 271).running = true ∧ (engine wAgain 271).missStride = some (m64 (work wAgain + 2 ^ 64 - 1))
        ∧ (engine wAgain 271).missStride ≠ some (work wAgain))
    ∧ (engine wRun 271).activeB = false := by
  decide +kernel

/-- Engine 271 has delivered and hosts limb 47. -/
def wDone : Block := { eng { running := true, delivered := true } with cfg := [(cfgKey 0x25 47, 0xBFE00000 :: List.replicate 69 0)] }
def wPartner : Block := { adm with pair := { role := 3 } }

theorem test_witness_EngineOutputs :
    computes wOff = false ∧ sysRuns wStop = false ∧ sysRuns wDone = true ∧ computes wDone = true ∧ outputsStand (eng {}) 271 = false ∧ computes (eng {}) = true
    ∧ outputsStand wDone 271 = true ∧ (∀ j < 8, withdrawn wDone 271 j = false) ∧ (hosted wDone 271)[0]? = some 47 := by
  decide +kernel

def swapAct : Action := { boundary := 100, kind := .swap [271] true, op := 0x0802, h := h0 }
def bSwap (t : Nat) (v : Bool) : Block := { eng { bankB := { valid := v } } with time := { ns := t * 10000 }, host := { adm.host with actions := [swapAct] } }
def bIdle (v : Bool) : Block := { bSwap 100 v with host := adm.host }

theorem test_witness_CarveBanks :
    (∀ b ∈ [wPartner, adm, bSwap 100 true, bIdle true, bIdle false], ∀ op objs, Admitted b op objs)
    ∧ (isPartner wPartner = true ∧ isPartner adm = false ∧ [(271 : Fin 272)] ≠ [] ∧ [271].any (swapPending (bSwap 100 true)) = true
        ∧ [271].any (swapPending adm) = false)
    ∧ (checkBoundary (bIdle true) 199 = some .strideTooSoon ∧ checkBoundary (bIdle true) 200 = none
        ∧ checkBoundary (bIdle true) (8640000000 + 101) = some .strideTooFar)
    ∧ (swapRefused (bIdle false) [271] = some .imageBad ∧ swapRefused (bIdle true) [271] = none ∧ [271].any (swapPending (bIdle true)) = false)
    ∧ ((bSwap 99 true).host.actions = [swapAct] ∧ now (bSwap 99 true) < swapAct.boundary ∧ swapAct.boundary ≤ now (bSwap 100 true)
        ∧ swapRefused (bSwap 100 true) [271] = none ∧ [271].Nodup ∧ swapRefused (bSwap 100 false) [271] = some .imageBad) := by
  refine ⟨fun b hb op objs => ?_, by decide +kernel⟩
  simp only [List.mem_cons, List.not_mem_nil, or_false] at hb
  rcases hb with rfl | rfl | rfl | rfl | rfl <;> exact admits _ _ _ rfl rfl rfl

/-- A slot whose first copy passes verification gives its section; whether a signature verifies is no value of this model (log 4). -/
theorem test_witness_CarveBanks_slot (b : Block) (slot : Nat) (hf : b.trust.flashFailed = 0) (hv : verifyImage b 5 (stored b 5 slot 0).words = 0)
    (hs : (stored b 5 slot 0).valid = true) : slotSection b slot = .ok (stored b 5 slot 0) := by
  unfold slotSection
  generalize verifyImage b 5 = f at *
  simp [hv, hs, hf]

theorem test_witness_CarveBanks_empty : slotSection adm 31 = .error 1 := by
  unfold slotSection
  have h : ∀ d, stored adm 5 31 d = {} := fun _ => rfl
  simp only [h]
  generalize verifyImage adm 5 = f
  simp


/-- Cell 2047 of a kind with levels, ACTIVE in limb 47; its command asks for mode 3. -/
def slKind : List W32 := [0x00010100, 0, 0x00010003, 0, 0, 0, 0, 0, 0x30000, 0, 0, 1, 0, 0x44000000]
def slB (m : Mode) (cmd : W32) : Block :=
  { md := { mode := m }, cells := [(2047, { slot := .active, stale := false, recAt := some 0, info := some { desc := slKind } })]
    cfg := [(cfgKey 0x06 0, [0x00010100, 0x00010000, 0x00020000])], slal := { cmd := [(2047, [cmd])] } }
def slForm : Block := slB .form 0x30000000
def slSafe : Block := slB .safe 0x30000000
def slNone : Block := slB .form 0
def slLimbB : Block := { slForm with cfg := [(cfgKey 0x25 47, [0xBE000000, 0] ++ List.replicate 63 0 ++ [0x80000000, 0, 0, 0, 0])]
                                     time := { ns := 1000000 }, slal := { limb := [(47, { overrunAt := some 99 })] } }

theorem test_witness_SlalomBuild :
    (∀ b ∈ [slForm, slSafe, slNone], Tbl.wf {} b.cells = true ∧ (hub b 2047).info.isSome = true ∧ sysRuns b = true)
    ∧ (sysRuns wStop = false ∧ Tbl.wf {} wStop.cells = true)
    ∧ cellsOff slSafe = true ∧ bits (word (Tbl.get [] slNone.slal.cmd 2047) 0) 31 28 = 0
    ∧ ((hub slForm 2047).slot = .active ∧ bits (word (Tbl.get [] slForm.slal.cmd 2047) 0) 31 28 = 3 ∧ wantsNolist slForm 2047 3 = false)
    ∧ (47 ∈ limbs slLimbB ∧ limbCmd slLimbB 47 ≠ 0 ∧ (slLimb slLimbB 47).overrunAt.map (· + 1) = some (work slLimbB)
        ∧ (slLimb slForm 47).overrunAt.map (· + 1) ≠ some (work slForm)) := by
  decide +kernel

/-- A ledger of cell 2047, whose energy is predicted as that of 512.0 V. -/
def ledB : Block := { adm with time := { ns := 1000000 }, host := { adm.host with coachUp := true }
                               cells := [(2047, { info := some { serial := 9 } })], led := { cells := [(2047, { has := true })] } }
def ledAct : Block := { ledB with cells := [(2047, { slot := .active, info := some { serial := 9 } })] }
def ledPartner : Block := { ledB with pair := { role := 3 } }
def ledDip : Block := { ledB with sup := { ledB.sup with rails := [(0, { dipAt := some 0 })] } }
def ledOld : Block := { ledB with time := { sec := 10 } }
/-- A history period begun in stride 0 of 1 s at its last stride and over; begun after now; a periodic checkpoint due; a write in
progress. -/
def ledHist (t : Nat) (t0 : Nat) : Block := { ledB with time := { ns := t * 10000 }, led := { ledB.led with histAt := some t0 } }
def ledDue : Block := { ledB with time := { sec := 3600 }, led := { ledB.led with periodicAt := some 0 } }
def ledWr : Block := { ledDue with led := { ledDue.led with writing := some (ckptOf true ledDue) } }
def ledDueDip : Block := { ledDue with sup := ledDip.sup }
def ledStale : Block := { ledB with led := { loops := [(3, { stale := true })] } }

theorem test_witness_LedgerUnit :
    (∀ b ∈ [ledB, ledAct, ledPartner, ledDip, ledWr], ∀ op objs, Admitted b op objs)
    ∧ ((ledHist 99 100).led.histAt = some 100 ∧ now (ledHist 99 100) < 100 ∧ 100 ≤ now (ledHist 100 100)
        ∧ now (ledHist (99 + histLen ledB) 100) < 100 + histLen ledB ∧ 100 + histLen ledB ≤ now (ledHist (100 + histLen ledB) 100))
    ∧ (∀ b ∈ [ledDue, ledWr, ledDueDip], b.host.coachUp = true ∧ periodOver b.led.periodicAt (cfgN b 0x0E 0 0 29 19 * 6000000) (now b) = true)
    ∧ (flashHeld ledDueDip = true ∧ ledWr.led.writing.isSome = true ∧ flashHeld ledDue = false ∧ ledDue.led.writing = none)
    ∧ (∀ m ∈ ledCells ({} : Block), ePredCell ({} : Block) m ≠ 0) ∧ ledHeld ledB 2047 = false ∧ ledCells ledB = [2047]
    ∧ (ledgerWorks { ledB with pair := { role := 1 } } = false ∧ ledgerWorks ledB = true)
    ∧ ((Tbl.get {} ledB.led.loops 3).stale = false ∧ ((Tbl.get {} ledB.led.loops 3).lastAt.getD 0) + cfgN ledOld 0x0E 0 0 13 6 * 100000 = now ledOld
        ∧ now ledB < ((Tbl.get {} ledB.led.loops 3).lastAt.getD 0) + cfgN ledB 0x0E 0 0 13 6 * 100000
        ∧ (Tbl.get {} ledStale.led.loops 3).stale = true)
    ∧ (({} : Block).host.coachUp = false ∧ ledB.host.coachUp = true ∧ flashHeld ledDip = true ∧ flashHeld ledB = false ∧ ledB.led.writing = none)
    ∧ (isPartner ledPartner = true ∧ isPartner ledB = false ∧ (hub ledB 2047).slot = .blocked
        ∧ (hub ledB 2047).info.map EnumInfo.serial = some (9 : BitVec 64).toNat
        ∧ (hub ledB 2047).info.map EnumInfo.serial ≠ some (8 : BitVec 64).toNat
        ∧ (hub ledAct 2047).slot ≠ .blocked ∧ (hub ledAct 2047).slot ≠ .bypassed) := by
  refine ⟨fun b hb op objs => ?_, by decide +kernel⟩
  simp only [List.mem_cons, List.not_mem_nil, or_false] at hb
  rcases hb with rfl | rfl | rfl | rfl | rfl <;> exact admits _ _ _ rfl rfl rfl

/-- A powered cell in a ladder state: bib 5 heard, at position 63 with a layout of two blocks, its descriptor of two edges. -/
def cellT (l : Ladder) (m : Nat) : CellTerm :=
  { powered := true, ladder := l, m := m, stride := 100, own := 100, pos := some 63, layout := some (0, 2), bibs := [(100, 5)], dH := some 7, timingT := false
    desc := [0x00010100, 0x10040000, 0x00000003, 0, 0, 0, 0, 0, 0x30000, 0, 0, 0xFFFFFFFF, 0, 0x44000000] }
def tb (c : CellTerm) : Block := { terms := [(2047, c)] }
/-- A header of one edge word for position 63 in stride 100 with bib 5, and its edge word. -/
def edgeW : W32 := 0x00100000
def header (bib : Nat) (es : List W32) : W32 :=
  let low := pack [fld 63 15 10, fld es.length 9 5]
  low ||| fld (listCrc bib 100 low es) 31 16
def bibP (bib : Nat) : BitVec 56 := withCrc8 0x5A (bib * 2 ^ 32 + 100 * 2 ^ 18 + 2 * 2 ^ 8)

/-- A block field that a cell's descrambler, all zero, reads as this control block; a data block. -/
def wireCtl (o : Nat) (pl : BitVec 56) : BitVec 64 := (scrRun false 0 (ctlField o pl)).2
/-- Cell 2047 with its H port in the middle of an UPREC and its T port UP. -/
def fwB (c : CellTerm) (l : List RxFrame) : Block := { tb c with ports := [(4158, { st := .up, stack := l }), (4159, { st := .up })] }

theorem test_witness_CellTerminals_forward :
    (∀ oc ∈ [(0xF1, none), (0x99, some 0), (0xC3, some 2), (0x5A, some 3), (0x33, some 4), (0x66, some 5), (0xCC, some 6), (0xAA, some 7), (0x00, none)],
        (scrRun true 0 (wireCtl oc.1 0)).2 = ctlField oc.1 0 ∧ octetClass oc.1 = oc.2)
    ∧ isBlockOctet 0xF1 = true ∧ isBlockOctet 0xC3 = false ∧ payloadOk 0x99 0 0 = true ∧ payloadOk 0x33 0 0 = true ∧ payloadOk 0x66 0 0 = false
    ∧ ((fwB (cellT .run 0) []).terms.map Prod.snd).map CellTerm.powered = [true] ∧ (port (fwB (cellT .run 0) []) 4159).st = .up
    ∧ (port (fwB (cellT .run 0) [{ octet := 0x33, payload := 0, left := 6 }]) 4158).stack ≠ [] := by decide +kernel

theorem test_witness_CellTerminals_boundary :
    isBlockOctet 0xF1 = true ∧ isBlockOctet 0xF0 = true ∧ (cellT .run 0).ladder ≠ .blocked
    ∧ ((cellT .blocked 0).ladder = .blocked ∧ Tbl.wf {} (st (tb (cellT .blocked 0))).blk.terms = true)
    ∧ (cellT .run 0).powered = true ∧ (2047 : Fin 2048).val % 64 ≠ 0
    ∧ (∀ l ∈ [Ladder.run, .repeat, .hold, .blocked], (cellT l 2).lists.find? (fun x => x.boundary % 2 ^ 32 == 101) = none)
    ∧ ((cellT .repeat 2).m + 1 < (cellT .repeat 2).silenceL ∧ (cellT .hold 3).silenceL ≤ (cellT .hold 3).m + 1)
    ∧ (let x : CellList := { boundary := 101, bib := 5, port := 1, edges := [], params := [], integrate := false }
       [x].find? (fun x => x.boundary % 2 ^ 32 == 101) = some x ∧ x.integrate = false) := by
  decide +kernel

theorem test_witness_CellTerminals_list :
    crc8Ok 0x5A (bibP 5) = true ∧ crc8Ok 0x5A 0 = false ∧ crc8Ok 0x5A (bibP 4) = true ∧ pf (bibP 5) 55 32 = 5 ∧ pf (bibP 4) 55 32 = 4
    ∧ ((cellT .run 0).hear 5).highest = 5 ∧ 4 < ((cellT .run 0).hear 4).highest
    ∧ ([header 5 [edgeW], edgeW, 0, 0] : List W32).length = 2 * pf (bibP 5) 17 8 ∧ (cellT .run 0).layout = some (0, 2)
    ∧ (([header 5 [edgeW], edgeW, 0, 0] : List W32).drop (2 * 0)).take (2 * 2) = header 5 [edgeW] :: ([edgeW] ++ [] ++ [0, 0]) ∧ bits (header 5 [edgeW]) 9 5 = 1 ∧ bits (header 5 [edgeW]) 4 1 = 0
    ∧ bits (header 5 [edgeW]) 15 10 = 63 ∧ 100 % 2 ^ 14 = pf (bibP 5) 31 18
    ∧ listCrc 5 100 (w32 (bits (header 5 [edgeW]) 15 0)) ([edgeW] ++ []) = bits (header 5 [edgeW]) 31 16
    ∧ edgesOk (cellT .run 0).desc [edgeW] = true ∧ edgesOk (cellT .run 0).desc [edgeW, 0] = false
    ∧ (∀ l ∈ (cellT .run 0).lists, l.boundary ≠ 100 + 2)
    ∧ (∀ y ∈ [(4, []), (5, [edgeW]), (6, [])], let x : CellList := { boundary := 102, bib := y.1, port := 1, edges := y.2, params := [], integrate := false }
        ({ cellT .run 0 with lists := [x] }.lists.find? fun y => y.boundary == 100 + 2) = some x) := by
  decide +kernel

def strideP : BitVec 56 := withCrc5 0xC3 (101 * 2 ^ 24)
def measP (a b d : Nat) : BitVec 56 := withCrc8 0x69 (a * 2 ^ 49 + b * 2 ^ 34 + d * 2 ^ 10)
def enumP : BitVec 56 := withCrc8 0x66 (63 * 2 ^ 49 + 4 * 2 ^ 42)
def setP (k : Nat) : BitVec 56 := svcMake k 63 127 5 9
def snapP (bib : Nat) : BitVec 56 := withCrc8 0xA5 (bib * 2 ^ 32 + 200 * 2 ^ 8)

theorem test_witness_CellTerminals_blocks :
    (crc5Ok 0xC3 strideP = true ∧ pf strideP 5 5 = 0 ∧ (cellT .run 0).timingT = false ∧ (cellT .run 0).dH = some 7)
    ∧ ((80 - 10 * 7 + 10 * 0 : Int).natAbs ≤ 4000 ∧ 4000 < (4071 - 10 * 7 + 10 * 0 : Int).natAbs
        ∧ (cellT .run 0).errRun < 15 ∧ 15 ≤ { cellT .run 0 with errRun := 15 }.errRun)
    ∧ (crc8Ok 0x69 (measP 0 63 9) = true ∧ pf (measP 0 63 9) 39 34 = 63 ∧ pf (measP 0 63 9) 33 10 ≠ 0xFFFFFF ∧ pf (measP 0 63 9) 55 49 ≠ 63)
    ∧ (crc8Ok 0x69 (measP 63 0 0) = true ∧ pf (measP 63 0 0) 39 34 ≠ 63 ∧ pf (measP 63 0 0) 55 49 = 63)
    ∧ crc8Ok 0x66 enumP = true
    ∧ (svcOk (setP 0) 9 = true ∧ svcOk (setP 1) 9 = true ∧ ((cellT .run 0).hear (pf (setP 0) 39 16)).highest ≤ pf (setP 0) 39 16
        ∧ pf (setP 0) 52 47 = 63 ∧ pf (setP 0) 55 53 = 0 ∧ pf (setP 1) 55 53 = 1 ∧ pf (setP 1) 52 47 = 63
        ∧ ((cellT .run 0).hear (pf (setP 1) 39 16)).highest ≤ pf (setP 1) 39 16)
    ∧ (crc8Ok 0xA5 (snapP 5) = true ∧ crc8Ok 0xA5 (snapP 4) = true ∧ pf (snapP 4) 55 32 < ((cellT .run 0).hear (pf (snapP 4) 55 32)).highest)
    ∧ (0 < { cellT .run 0 with enumLeft := 3 }.enumLeft ∧ (cellT .run 0).enumLeft = 0
        ∧ { cellT .run 0 with snapLatch := some [1] }.snapLatch = some [1]
        ∧ { cellT .run 0 with enumLeft := 3, enumAt := 99 }.enumAt < (cellT .run 0).own ∧ (cellT .run 0).own ≤ { cellT .run 0 with enumAt := 100 }.enumAt
        ∧ (cellT .run 0).segAt ≠ some (cellT .run 0).own ∧ (cellT .run 0).snapFrom < (cellT .run 0).own ∧ (cellT .run 0).snapSent < 16
        ∧ { cellT .run 0 with segAt := some 100 }.segAt = some (cellT .run 0).own
        ∧ { cellT .run 0 with snapAt := [99, 100] }.snapAt.contains ((cellT .run 0).stride % 2 ^ 24) = true
        ∧ (cellT .run 0).snapAt.contains ((cellT .run 0).stride % 2 ^ 24) = false) := by
  decide +kernel

def pt (q : Port) : Block := { adm with cfg := [(cfgKey 0x17 0, [0x80000000])], ports := [(31, q)] }
def pTrain : Port := { st := .train, timer := true }
def pHello (n : Nat) : Port := { st := .hello, rxLock := true, timer := true, helloRun := n, kickRun := 3, wrongEnd := true }
def pUp (srch : Bool) : Port := { st := .up, rxLock := true, searching := srch, helloRun := 3, burst := 32, rxIdle := true }
def pLine : Block := { prot := { copyA := { line := true } } }
/-- 16 invalid headers; 64 valid ones, and 63. -/
def hBad : List (BitVec 2) := List.replicate 16 0
def hGood (n : Nat) : List (BitVec 2) := List.replicate n 1
/-- A lane that is UP with an ECHO waiting, its HELLO 1,022 slots ago; one in idle, one in the burst of its exit. -/
def pSend : Port := { st := .up, txIdle := false, rxLock := true, sinceHello := 1022, tx := [ctlFrame 0x96 0 []] }
def pIdle : Port := { pSend with txIdle := true }
def pExit : Port := { pSend with exit := 1 }
/-- The block of a unit in lock, whose port 31 is used; a line stands or does not. -/
def pDrive (line : Bool) (q : Port) : Block := { pt q with prot := { copyA := { line := line } }, cfg := [(cfgKey 0x01 31, [0x01010000])], synth := [(2, { locked := true })] }
def helloP (role prot : Nat) : BitVec 56 := withCrc8 0x3C (role * 2 ^ 54 + prot * 2 ^ 46)

theorem test_witness_PortTraining :
    Admitted (pt pTrain) 0x0204 [] ∧ (portKey (.unit 31) = 31 ∧ ¬ portKey (.lane 3) < 32 ∧ portKey (.lane 3) < 36 ∧ 36 ≤ portKey (.cellT 2047))
    ∧ (∀ q ∈ [pTrain, pHello 3, pUp false, { st := .dark }], port (pt q) 31 = q ∧ portUnused (pt q) 31 = false)
    ∧ (pTrain.st = .train ∧ pTrain.timer = true ∧ (pHello 3).st = .hello ∧ (pHello 3).timer = true ∧ (pHello 3).rxLock = true
        ∧ (pHello 3).wrongEnd = true ∧ (pHello 3).burst = 0 ∧ 3 ≤ (pHello 3).kickRun ∧ (pHello 2).helloRun < 3 ∧ 3 ≤ (pHello 3).helloRun
        ∧ (pUp true).searching = true ∧ (pUp false).searching = false ∧ (pUp false).rxIdle = true ∧ 0 < (pUp false).burst
        ∧ ({ st := .up } : Port).rxIdle = false)
    ∧ (crc8Ok 0x0F (withCrc8 0x0F 0) = true ∧ crc8Ok 0x3C 0 = false)
    ∧ (∀ r ∈ [1, 2], crc8Ok 0x3C (helloP r 1) = true ∧ pf (helloP r 1) 31 8 = 0 ∧ pf (helloP r 1) 53 46 = 1 ∧ pf (helloP r 1) 55 54 = r)
    ∧ (helloRoleOk (pt (pHello 3)) 31 1 = true ∧ helloRoleOk (pt (pHello 3)) 31 2 = false ∧ helloRoleOk (pt (pUp true)) 31 1 = true)
    ∧ cfgBit (pt (pUp false)) 0x17 0 0 31 = true
    ∧ (pLine.prot.copyA.line = true ∧ adm.prot.copyA.line = false ∧ adm.prot.copyB.line = false) :=
  ⟨admits _ _ _ rfl rfl rfl, by decide +kernel⟩


theorem test_witness_PortTraining_lanes :
    ((∀ q ∈ [pHello 3, pUp false], (q.headers hBad).2 = true ∧ q.rxLock = true) ∧ ((pHello 3).headers (hBad.drop 1)).2 = false
        ∧ (pUp false).rxIdle = true ∧ (pSend.headers hBad).2 = true ∧ pSend.searching = false)
    ∧ (((hGood 64).foldl Port.header pTrain).allGood 64 = true ∧ ((hGood 63).foldl Port.header pTrain).allGood 64 = false
        ∧ ((hGood 16).foldl Port.header { pUp false with rxLock := false }).allGood 16 = true
        ∧ ((hGood 64).foldl Port.header { pUp true with rxLock := false, rxIdle := false }).allGood 64 = true
        ∧ ((hGood 63).foldl Port.header pTrain).rxLock = false ∧ ((hGood 1).foldl Port.header pSend).rxLock = true)
    ∧ ((pHello 3).helloSeen = false ∧ { pHello 3 with helloSeen := true }.helloSeen = true ∧ pf (helloP 1 0) 53 46 ≠ 1 ∧ crc8Ok 0x3C (helloP 1 0) = true)
    ∧ (isBlockOctet 0xF1 = true ∧ octetClass 0 = none ∧ payloadOk 0x99 0 0 = true ∧ payloadOk 0x99 1 0 = false)
    ∧ (∀ q ∈ [pSend, pIdle, pExit], ∀ l ∈ [false, true], port (pDrive l q) 31 = q ∧ (laneCtx (pDrive l q) 31).silent = false
        ∧ (laneCtx (pDrive l q) 31).mute = false ∧ (laneCtx (pDrive l q) 31).base3 = false ∧ (pDrive l q).prot.copyA.line = l)
    ∧ (pIdle.txIdle = true ∧ 0 < pExit.exit ∧ pSend.exit = 0 ∧ pSend.eidle = 0 ∧ pSend.blockSlots = 0 ∧ pSend.sinceHello + 1 < 1024 ∧ pSend.tx ≠ []) := by
  decide +kernel

/-- R270 and the worked example of chapter 7: a full cycle at LOG2_NF = 33.0 and a half cycle at 24.5. -/
theorem test_life_units : pow2Units 48 (ofRat 33 1) = 32768 ∧ pow2Units 47 (ofRat 49 2) = 5931642 := by decide +kernel

/-- The worked stack of chapter 7, in 1/64 °C. -/
theorem test_rainflow_stack :
    ([60, 90, 70, 85, 75, 95, 65].foldl (fun (st : List Int) x => (rainPush {} 0 0 (64 * x) st).st) []).map (· / 64)
      = [90, 70, 95, 65] := by decide +kernel

/-- A unit of a pair of rank 5 with the auto-feed of its word and a half of chain 31. -/
def pCfg : Tbl (List W32) := [(cfgKey 0x01 31, [0x01800000]), (cfgKey 0x81 0, [0x82800000, 0x80000000])]
def pB (r : Nat) (up : Bool) : Block :=
  { adm with cfg := pCfg, time := { ns := 20000 }, sup := { stage := 2 }, pair := { role := r, up := up, lanes := 4 } }
def pLane (r : Nat) : Tbl Port := [(35, { st := .up, partnerRank := r })]
def pRank (r : Nat) : Block := { pB 1 false with ports := pLane r }
def pLate : Block := { pB 1 true with time := { ns := 10000000 } }
def pRun (good bad : Nat) : Block := { pB 4 true with time := {}, pair := { role := 4, up := true, lanes := 4, alignRun := good, alignBad := bad } }
def pFail : Block := { pB 3 true with pair := { role := 3, up := true, failed := [(3, 9, 0)], resent := [(7, 9, 0)] } }
def pJoin : Block := { pB 4 true with pair := { role := 4, up := true, joining := some 300, ledAt := some 9 } }
def pFeed : Block := { pB 4 true with pair := { role := 4, up := true, feeding := 0x80000000 }, ports := [(31, { st := .up })], synth := [(2, { locked := true })] }
def stepOf (role e : Nat) : List W32 := [1, 0, w32 (role * 2 ^ 29 + e), 0, 0, 0, 0, 0]
def timeP : BitVec 56 := withCrc5 0xC3 0

theorem bv_ne_succ (x : W32) : x ≠ x + 1 := by bv_omega
theorem dataOk_crc (l : List W32) : dataOk l (crc32 (bytesOf l)) = true := by simp [dataOk]
theorem dataOk_off (l : List W32) : dataOk l (crc32 (bytesOf l) + 1) = false := by
  simp only [dataOk, beq_eq_false_iff_ne, ne_eq]; exact bv_ne_succ _

theorem test_witness_PairLink :
    (∀ l : List W32, (∃ c, dataOk l c = true) ∧ ∃ c, dataOk l c = false)
    ∧ (pairEn (pB 1 false) = true ∧ 0 < (pB 1 false).pair.lanes ∧ (pB 1 false).pair.held = false ∧ (pB 1 true).pair.up = true)
    ∧ (lanePeer (pB 1 false) = 0 ∧ lanePeer (pRank 5) ≠ 0 ∧ lanePeer (pRank 5) = rank (pRank 5) ∧ lanePeer (pRank 6) ≠ rank (pRank 6))
    ∧ (now pLate % 1000 = 0 ∧ now (pB 1 true) % 1000 ≠ 0)
    ∧ (sends (pRun 0 0) = false ∧ crc5Ok 0xC3 timeP = true ∧ crc5Ok 0xC3 (timeP + 1) = false ∧ pf timeP 55 24 = 0 ∧ pf timeP 23 6 = 0
        ∧ near32 (now (pRun 0 0)) 0 = 0 ∧ (10000000 - (9999000 - 0 + 0 * 80) : Int).natAbs ≤ 1000 ∧ 2000 < (10000000 - (9997999 - 0 + 0 * 80) : Int).natAbs
        ∧ 99 ≤ (pRun 99 0).pair.alignRun ∧ 15 ≤ (pRun 0 15).pair.alignBad ∧ (pRun 98 0).pair.alignRun < 99)
    ∧ (isLead (pB 5 true) = true ∧ chainEnd (pB 5 true) (31 : Fin 32).val ≠ 0 ∧ 2 ≤ (pB 5 true).sup.stage ∧ pairEn (pB 5 true) = true
        ∧ isPartner (pB 3 true) = true ∧ pairEn (pB 3 true) = true)
    ∧ (linkCarries (pB 3 false) = false ∧ linkCarries (pB 3 true) = true ∧ lagging (pB 3 true) = true ∧ (List.replicate 128 (0 : W32)).length = 128
        ∧ (List.replicate 778 (0 : W32)).length = 778 ∧ (pB 3 true).pair.failed.contains (3, 9, 0) = false ∧ pFail.pair.failed.contains (3, 9, 0) = true
        ∧ linkCarries pFail = true ∧ lagging pFail = true)
    ∧ ((0xEFFF : Nat) < 0xF000 ∧ linkCarries (pB 4 true) = true)
    ∧ (linkRuns pFeed 31 = true ∧ linkCarries pFeed = true ∧ pFeed.pair.feeding.testBit (31 : Fin 32).val = true ∧ (port pFeed 31).st = .up)
    ∧ ((stepOf 5 255).length = 8 ∧ bits (word (stepOf 2 255) 2) 31 29 = 2 ∧ bits (word (stepOf 5 255) 2) 31 29 = 5
        ∧ sends (pB 4 true) = false ∧ sends (pB 5 true) = true ∧ linkCarries (pB 5 true) = true
        ∧ bib (pB 5 true) < bits (word (stepOf 5 6) 2) 23 0 ∧ bits (word (stepOf 5 5) 2) 23 0 ≤ bib (pB 5 true))
    ∧ ((pB 3 true).pair.resent.contains (7, 9, 0) = false ∧ pFail.pair.resent.contains (7, 9, 0) = true)
    ∧ (linkCarries pJoin = true ∧ pJoin.pair.joining.isSome = true ∧ pJoin.pair.syncWait = [] ∧ pJoin.pair.ledAt = some 9 ∧ (9 : Nat) < 10
        ∧ pJoin.pair.role = 4 ∧ (pB 5 true).pair.role ≠ 4 ∧ (pB 4 true).pair.joining = none) := by
  refine ⟨fun l => ⟨⟨_, dataOk_crc l⟩, _, dataOk_off l⟩, ?_⟩
  decide +kernel

theorem test_witness_PairLink_roles :
    ((pB 4 true).pair.role = 4 ∧ (0x0703 : Nat) < 0xF000 ∧ (pB 1 true).pair.up = true ∧ (pB 0 true).sup.stage = 2 ∧ pairEn { pB 3 true with sup := {} } = true
        ∧ ({ pB 3 true with sup := {} } : Block).sup.stage < 2 ∧ isLead (pB 4 true) = false ∧ isPartner (pB 4 true) = false) := by
  decide +kernel

def rEpoch : Block := { pB 1 true with pair := { role := 1, up := true, stored := 65534, peerAt := some 1, peerStep := stepOf 1 0 } }
def rDue : Block := { pB 1 true with pair := { storeDue := true } }
def rPeer (role pr : Nat) : Block := { pB role true with pair := { role := role, up := true, lanes := 4, peerAt := some 1, peerStep := stepOf pr 0 } }
def rFollow : Block := { rPeer 5 4 with md := { mode := .follow } }
def rMeas : Tbl (List W32) := []
/-- A partner in stride 2, whose work is of stride 1: the input is complete (m) or not, the lead's STEP has this content. -/
def rPart (m : Bool) (w : List W32) (at? : Option Nat) (lf : Bool) : Block :=
  { adm with cfg := [(cfgKey 0x81 0, [0x82800000, 0])], time := { ns := 20000 }, sup := { stage := 2 }
             pair := { role := 3, up := true, peerAt := some 2, peerStep := w, meas := if m then [(1, [])] else [], workAt := at?
                       localFault := lf, matchRun := 15 } }
def stepDig (a o : Nat) : List W32 := [1, 0, 0x40000000, 0, w32 a, w32 (a / 2 ^ 32), w32 o, w32 (o / 2 ^ 32)]
def rStruck : Block := { rPart true [] none false with pair := { role := 3, struckAt := some 1, strikes := 2, inStep := true } }
def rDip : Block := { rPart true [] none false with sup := { rails := [(0, { dipAt := some 0 })] } }
def rStrike : Block :=
  { cfg := [(cfgKey 0x25 47, [0xBE000000, 0] ++ List.replicate 63 0 ++ [0x80000000, 0, 0, 0, 0])], ports := [(31, { st := .up })]
    time := { ns := 20000 }, pair := { role := 3, inStep := true, strikes := 1 } }
def rGave : Block := { rPart true [1, 0, 0x48000000, 0, 0, 0, 0, 0] none false with pair.inStep := true }
def rCov (lf : Bool) : Block := { pair := { role := 5, localFault := lf }, synth := [(1, { locked := true }), (2, { locked := true })] }
/-- A relay that is asked to feed three chains; a partner is asked to feed three too. -/
def rFeed (role : Nat) (x : Option Nat) (l : Bool) : Block :=
  { cfg := [(cfgKey 0x01 0, [0x01800000]), (cfgKey 0x01 1, [0x01800000]), (cfgKey 0x01 31, [0x01800000])]
    pair := { role := role, feedAsk := if l then 0x80000003 else 0x80000001, feedLimitAt := x } }
def rCold (me peer pr : Nat) : Block :=
  { cfg := [(cfgKey 0x81 0, [w32 (0x80000000 + me * 2 ^ 23 + 2 ^ 22)])], sup := { stage := 2 }
    pair := { role := 1, up := true, peerAt := some 0, peerRank := peer, peerStep := stepOf pr 0 } }
def rJoin (n : Nat) (role : Nat) : Block :=
  { time := { ns := n }, pair := { role := role, up := true, joining := some 2, installed := (List.range' 0 2048).map fun k => (k, true) } }

def rLeadJoin : Block := { rJoin 20000 2 with pair := { role := 2, up := true, joining := some 2, peerAt := some 1, peerStep := stepOf 4 0, syncNext := 2048 } }

theorem xor_lt64 (l : List Bool) : ∀ r, r < 2 ^ 64 → crcMsb 64 0x42F0E1EBA9EA3693 r l < 2 ^ 64 := by
  induction l with
  | nil => intro r h; exact h
  | cons x l ih =>
    intro r h
    refine ih _ (Nat.xor_lt_two_pow (Nat.mod_lt _ (by decide)) ?_)
    split <;> decide

theorem join_w64 (n : Nat) (h : n < 2 ^ 64) : join64 (w32 n) (w32 (n / 2 ^ 32)) = n := by
  simp only [join64, w32, BitVec.toNat_ofNat]; omega

def other64 (n : Nat) : Nat := if n = 0 then 1 else 0
theorem other64_spec (n : Nat) : other64 n < 2 ^ 64 ∧ other64 n ≠ n := by unfold other64; split <;> omega

theorem inputs_out (w : List W32) (a : Option Nat) (l : Bool) : digestOut (rPart true w a l) = digestOut (rPart true [] none false) := rfl

theorem test_witness_PairRoles_digests :
    let X := work (rPart true [] none false)
    let d := digestIn [] [] []
    (∀ m w a l, isPartner (rPart m w a l) = true ∧ (rPart m w a l).pair.roleDue = none ∧ (rPart m w a l).pair.joinedAt ≤ X ∧ X = 1
        ∧ (rPart m w a l).pair.cmpAt ≠ some X ∧ flashHeld (rPart m w a l) = false ∧ 15 ≤ (rPart m w a l).pair.matchRun ∧ work (rPart m w a l) = X)
    ∧ (∀ w a l, inputComplete (rPart true w a l) X = true ∧ inputComplete (rPart false w a l) X = false
        ∧ (measOfStride (rPart true w a l) X).getD [] = [] ∧ usedChains (rPart true w a l) = [] ∧ cmdsOf (rPart true w a l) X = [])
    ∧ (∀ i o l a, leadStep (rPart true (stepDig i o) a l) X = true ∧ leadStep (rPart true [] a l) X = false
        ∧ bit (word (stepDig i o) 2) 26 = false ∧ (rPart true (stepDig i o) a l).pair.localFault = l)
    ∧ (∃ i, join64 (word (stepDig i 0) 4) (word (stepDig i 0) 5) = d) ∧ (∃ i, join64 (word (stepDig i 0) 4) (word (stepDig i 0) 5) ≠ d)
    ∧ (∃ o, join64 (word (stepDig 0 o) 6) (word (stepDig 0 o) 7) = digestOut (rPart true (stepDig 0 o) (some 1) true))
    ∧ (∃ o, join64 (word (stepDig 0 o) 6) (word (stepDig 0 o) 7) ≠ digestOut (rPart true (stepDig 0 o) (some 1) true))
    ∧ (rStruck.pair.struckAt = some X ∧ work rStruck = X ∧ flashHeld rDip = true ∧ isPartner rDip = true) := by
  have hd : ∀ l : List W32, crc64 l < 2 ^ 64 := fun l => xor_lt64 _ _ (by decide)
  refine ⟨?_, ?_, ?_, ⟨digestIn [] [] [], join_w64 _ (hd _)⟩, ⟨other64 (digestIn [] [] []), ?_⟩, ⟨digestOut (rPart true [] none false), ?_⟩, ⟨other64 (digestOut (rPart true [] none false)), ?_⟩, by decide +kernel⟩
  · intro m w a l
    exact ⟨rfl, rfl, Nat.zero_le _, by decide +kernel, fun h => (nomatch h), rfl, Nat.le_refl 15, rfl⟩
  · intro w a l
    have h : work (rPart true [] none false) = 1 := by decide +kernel
    have hu : ∀ m, usedChains (rPart m w a l) = [] := fun m =>
      (show usedChains (rPart m w a l) = usedChains (rPart true [] none false) from rfl).trans (by decide +kernel)
    refine ⟨?_, ?_, rfl, hu true, rfl⟩ <;> unfold inputComplete <;> rw [hu, h] <;> rfl
  · intro i o l a
    have h : work (rPart true [] none false) = 1 := by decide +kernel
    rw [h]
    exact ⟨by simp [leadStep, peerStride, peerRole, rPart, stepDig, word]; decide, by simp [leadStep, peerStride, peerRole, rPart, word]; decide,
      by simp [stepDig, word]; decide, rfl⟩
  · have h := other64_spec (digestIn [] [] [])
    show join64 (w32 _) (w32 _) ≠ _
    rw [join_w64 _ h.1]; exact h.2
  · rw [inputs_out]; exact join_w64 _ (hd _)
  · have h := other64_spec (digestOut (rPart true [] none false))
    rw [inputs_out]; show join64 (w32 _) (w32 _) ≠ _
    rw [join_w64 _ h.1]; exact h.2

theorem test_witness_PairRoles :
    (∀ b ∈ [pB 0 true, pB 1 false, pB 5 true, rEpoch, pB 4 true, pB 3 true, rFollow, rPeer 5 4, rPeer 1 2, rPeer 1 1], ∀ op objs, Admitted b op objs)
    ∧ ((pB 0 true).pair.role = 0 ∧ (pB 1 true).pair.role ≠ 0 ∧ (pB 3 true).pair.role ≠ 1 ∧ peerLeads (rPeer 1 2) = true
        ∧ (rPeer 1 2).pair.role = 1 ∧ peerLeads rEpoch = false ∧ rEpoch.pair.aliveAt = none ∧ rEpoch.pair.role = 1
        ∧ greatestEpoch rEpoch = 65534)
    ∧ (isLead (pB 1 true) = false ∧ isLead (pB 5 true) = true ∧ (pB 5 true).pair.joining = none ∧ rEpoch.pair.lanes ≠ 4
        ∧ isLead (rPeer 5 4) = true ∧ (rPeer 5 4).pair.joining = none ∧ atRest (rPeer 5 4) = true ∧ (rPeer 5 4).pair.up = true
        ∧ peerRole (rPeer 5 4) = 4 ∧ (rPeer 5 4).pair.lanes = 4 ∧ checkBoundary (rPeer 5 4) 102 = none ∧ checkBoundary (rPeer 5 4) 8640000002 = none)
    ∧ (isLead rFollow = true ∧ atRest rFollow = false)
    ∧ ((pB 1 true).pair.role ≠ 5 ∧ (rPeer 5 4).pair.role = 5 ∧ (∀ a ∈ (rPeer 5 4).host.actions, a.kind ≠ .handover))
    ∧ ((pB 1 false).pair.role ≠ 0 ∧ (pB 1 false).pair.up = false ∧ peerRole (rPeer 1 2) ≠ 1 ∧ (rPeer 1 1).pair.role = 1 ∧ (rPeer 1 1).pair.up = true
        ∧ (rPeer 1 1).pair.peerAt.isSome = true ∧ peerRole (rPeer 1 1) = 1 ∧ quiet (rPeer 1 1) (rPeer 1 1).pair.cmdAt = true ∧ quiet (rPeer 1 1) (rPeer 1 1).pair.peerCmdAt = true
        ∧ quiet (rPeer 1 1) (some (now (rPeer 1 1))) = false) := by
  refine ⟨fun b hb op objs => ?_, by decide +kernel⟩
  simp only [List.mem_cons, List.not_mem_nil, or_false] at hb
  rcases hb with rfl | rfl | rfl | rfl | rfl | rfl | rfl | rfl | rfl | rfl <;> exact admits _ _ _ rfl rfl rfl

theorem test_witness_PairRoles_rows :
    (isPartner rStrike = true ∧ rStrike.pair.inStep = true ∧ leadStep rStrike (work rStrike) = false ∧ evidencePorts rStrike = [31]
        ∧ [31].length ≤ 2 * ([31].filter fun q => !(0x7FFFFFFF : BitVec 32).getLsbD q).length
        ∧ 2 * ([31].filter fun q => !(0x80000000 : BitVec 32).getLsbD q).length < [31].length ∧ rStrike.pair.struckAt ≠ some (work rStrike)
        ∧ rStrike.pair.strikes < 2 ∧ leadGaveUp rStrike = false ∧ 2 ≤ rStruck.pair.strikes ∧ isPartner rStruck = true ∧ rStruck.pair.inStep = true
        ∧ greatestEpoch rStruck < 65535 ∧ leadGaveUp rGave = true ∧ isPartner rGave = true ∧ rGave.pair.inStep = true ∧ greatestEpoch rGave < 65535
        ∧ leadStep rGave (work rGave) = true)
    ∧ (covered (rCov true) = true ∧ relinquishCause (rCov true) = true ∧ covered (pB 3 true) = false ∧ relinquishCause (rCov false) = false)
    ∧ ((rFeed 1 none true).pair.role ≠ 3 ∧ (rFeed 1 none true).pair.role ≠ 4
        ∧ feedWish 0 (rFeed 3 none true) = [0, 1, 31] ∧ isPartner (rFeed 3 none true) = true ∧ [0, 1, 31].length ≠ ([0, 1, 31].take 2).length
        ∧ feedWish 0xFFFFFFFF (rFeed 4 none false) = [0, 31] ∧ feedFit (rFeed 4 none false) [0, 31] 12000 = [0, 31] ∧ (rFeed 3 none true).pair.feedLimitAt = none)
    ∧ (∀ b ∈ [rCold 5 6 2, rCold 5 4 1, rCold 5 6 1], b.pair.role = 1 ∧ b.pair.left = false ∧ b.pair.up = true ∧ b.pair.peerAt.isSome = true ∧ b.pair.peerSolo = false
          ∧ b.pair.peerRank ≠ rank b ∧ 2 ≤ b.sup.stage ∧ greatestEpoch b < 65535 ∧ cfgBit b 0x81 0 0 22 = true)
    ∧ (peerRole (rCold 5 4 1) = 1 ∧ peerRole (rCold 5 6 1) = 1)
    ∧ (peerLeads (rCold 5 6 2) = true ∧ (rCold 5 4 1).pair.peerRank < rank (rCold 5 4 1) ∧ rank (rCold 5 6 1) < (rCold 5 6 1).pair.peerRank)
    ∧ ((rJoin 10000 2).pair.joining = some 2 ∧ now (rJoin 10000 2) + 1 = 2 ∧ 2 ≤ now (rJoin 20000 2) ∧ joinHolds (rJoin 20000 2) = false ∧ isLead (rJoin 20000 4) = false
        ∧ isLead (rJoin 20000 2) = true ∧ joinHolds rLeadJoin = true ∧ isLead rLeadJoin = true ∧ rLeadJoin.pair.joining = some 2)
    ∧ (flashHeld rDip = true ∧ flashHeld rEpoch = false ∧ rEpoch.pair.storeDue = false ∧ rDue.pair.storeDue = true ∧ flashHeld rDue = false) := by
  decide +kernel

theorem test_witness_PairRoles_join : joinHolds (rJoin 20000 4) = true := by
  have hi : (rJoin 20000 4).pair.installed = (List.range' 0 2048).map fun k => (k, true) := rfl
  have h : (List.range 2048).all (fun n => Tbl.get false (rJoin 20000 4).pair.installed n) = true := by
    rw [hi]
    exact List.all_eq_true.mpr fun n hn => get_range' false (fun _ => true) 2048 0 n (Nat.zero_le _) (by simpa using List.mem_range.mp hn)
  have l : limbs (rJoin 20000 4) = [] := by decide +kernel
  unfold joinHolds; rw [h, l]; rfl

/-- In this mode at stride 100, at Base-station, the Coach running; cell 2047 rests in limb 47 of no side, ready to rejoin. -/
def gCell : HubCell := { info := some { desc := [0, 0x40000, 0, 0, 0, 0, 0, 0, 0x30000, 0, 0, 0xFFFFFFFF, 0, 0x44000000] }
                         stale := false, recAt := some 100, prevAt := some 99
                         record := [0x03000000, 0, 0x43800000] ++ List.replicate 9 0, prev := 0x03000000 :: List.replicate 11 0 }
def gB (x : Modes) : Block :=
  { adm with time := { ns := 1000000 }, sup := { stage := 2 }, host := { adm.host with coachUp := true }, md := x
             chains := [(31, { st := .ready, admitted := true, rttPs := 3000000, measured := true })], cells := [(2047, gCell)]
             cfg := [(cfgKey 0x25 47, [0xBE000000, 0] ++ List.replicate 63 0 ++ [0x80000000, 0, 0, 0, 0])] }
/-- A unit with no limbs. -/
def gN (x : Modes) : Block := { adm with time := { ns := 1000000 }, sup := { stage := 2 }, host := { adm.host with coachUp := true }, md := x }
def gAct (k : ActKind) : Action := { boundary := 100, kind := k, op := 0x0201, h := h0 }
def gPend (lost : Bool) : Block :=
  { gN {} with host := { adm.host with coachUp := true, actions := [gAct (.mode .charge false)] }, prot := { patrolLost := lost } }
def gRole (r : Nat) : Block := { gN { mode := .follow } with pair := { role := r } }
def gLost : Block := { gN {} with prot := { patrolLost := true } }
def gOff : Block := { gN {} with host := adm.host }
def gTrip : Block := { gN { mode := .charge, phase := 3 } with prot := { copyA := { line := true } } }
def mLate (x : Modes) : Block := { gN x with time := { sec := 2000 } }
/-- One free-running side at an offset to its source. -/
def gBack (o : W32) (c : Bool) : Modes := { mode := .coast, classifyAt := some 100, sides := [(0, { free := true, src := o, correcting := c })] }
def gCorr (c : Int) : Modes := { sides := [(0, { correcting := true, corr := c, corrAt := 99 })] }
/-- Every opcode word of Table 8-1's modes but the asked ones. -/
def ask (m : Mode) : W32 := w32 (m.code * 2 ^ 29)

theorem test_witness_ModeManager :
    (∀ b ∈ [gN {}, gRole 3, gRole 4, gOff, gLost, gN { mode := .follow }, gN { mode := .discharge }], ∀ op objs, Admitted b op objs)
    ∧ (bits (1 : W32) 27 0 ≠ 0 ∧ ∀ m ∈ [Mode.safe, .charge, .follow, .coast, .plough], bits (ask m) 27 0 = 0 ∧ Mode.ofCode (bits (ask m) 31 29) = m)
    ∧ ((gRole 3).pair.role = 3 ∧ (gRole 4).pair.role = 4 ∧ (gN {}).pair.role ≠ 3 ∧ (gN {}).pair.role ≠ 4 ∧ gOff.host.coachUp = false ∧ gOff.pair.role = 0)
    ∧ ((gN {}).host.coachUp = true ∧ (gN {}).md.mode = .safe ∧ (gN {}).md.stop = false)
    ∧ (gLost.md.mode = .safe ∧ gLost.md.stop = false ∧ heldOff gLost .charge = false ∧ gLost.prot.patrolLost = true ∧ gLost.host.coachUp = true)
    ∧ (modeFails (gN { mode := .follow }) .safe (bit (ask .safe) 28) = none ∧ checkBoundary (gN { mode := .follow }) 199 ≠ none
        ∧ checkBoundary (gN { mode := .follow }) 200 = none ∧ checkBoundary (gN { mode := .follow }) 8640000100 = none
        ∧ checkBoundary (gN { mode := .follow }) 8640000101 ≠ none ∧ (gN { mode := .follow }).host.actions = [])
    ∧ isPartner (gRole 3) = true ∧ isPartner (gN {}) = false := by
  refine ⟨fun b hb op objs => ?_, by decide +kernel⟩
  simp only [List.mem_cons, List.not_mem_nil, or_false] at hb
  rcases hb with rfl | rfl | rfl | rfl | rfl | rfl | rfl <;> exact admits _ _ _ rfl rfl rfl

def gImm : Block := gN { mode := .follow, imm := some 3, immAt := 99 }
def gEnd : Block := gN { mode := .follow, stop := true, stopCause := 5 }
def gDis (p : Nat) : Block := mLate { mode := .discharge, phase := p, enteredAt := 20000000 }
def gCoast (n : Nat) : Block := gN { mode := .coast, coastStrides := n }

theorem test_witness_ModeManager_rows :
    (gImm.md.imm = some 3 ∧ gImm.md.immAt < now gImm ∧ gImm.md.stop = false ∧ gImm.host.actions = [])
    ∧ ((gPend false).host.actions = [gAct (.mode .charge false)] ∧ (gAct .join).boundary ≤ now (gPend false)
        ∧ modeFails (gPend false) .charge false = none ∧ modeFails (gPend true) .charge false = some 1
        ∧ (gPend false).md.imm = none ∧ (gPend false).md.stop = false ∧ (gPend false).md.mode = .safe ∧ isPartner (gPend true) = false)
    ∧ ((gN {}).md.imm = none ∧ (gN {}).sup.stopBy = none)
    ∧ (gTrip.md.mode = .charge ∧ gTrip.md.phase = 3 ∧ gTrip.md.imm = none ∧ gTrip.md.orderly = none ∧ gTrip.md.stop = false
        ∧ gTrip.md.coastDue = [] ∧ gTrip.safe.degr = 0 ∧ gTrip.prot.copyA.line = true)
    ∧ (gEnd.md.stop = true ∧ gEnd.md.stopLeft = 0 ∧ gEnd.md.mode ≠ .safe ∧ gEnd.md.imm = none)
    ∧ (140000000 + cfgN (mLate {}) 0x11 0 7 31 16 * 100000 = now (mLate {}) ∧ 20000000 + cfgN (mLate {}) 0x11 0 7 15 0 * 100000 = now (mLate {})
        ∧ (gDis 1).md.phase = 1 ∧ (gDis 2).md.phase = 2 ∧ (gDis 1).md.mode = .discharge ∧ (gDis 1).md.mode ≠ .charge)
    ∧ (cfgN (gCoast 300000) 0x11 0 1 31 16 * 100 = (gCoast 300000).md.coastStrides
        ∧ (gCoast 299999).md.coastStrides < cfgN (gCoast 299999) 0x11 0 1 31 16 * 100 ∧ (gN {}).md.stop = false ∧ (gN {}).md.mode ≠ .coast
        ∧ (gCoast 300000).md.orderly = none)
    ∧ (∀ b ∈ [gN (gBack 357913941 false), gN (gBack 357913942 false), gN (gBack 1073741825 false)],
        b.md.mode = .coast ∧ b.md.classifyAt = some (now b) ∧ (side b 0).free = true ∧ (side b 1).free = false)
    ∧ (jumpClass (side (gN (gBack 357913941 false)) 0).offset = 1 ∧ jumpClass (side (gN (gBack 357913942 false)) 0).offset = 2
        ∧ jumpClass (side (gN (gBack 1073741825 false)) 0).offset = 3)
    ∧ (∀ b ∈ [gN (gCorr 1491308), gN (gCorr 1491309)], isPartner b = false ∧ (side b 0).correcting = true ∧ (side b 0).corrAt < now b
        ∧ (side b 1).correcting = false ∧ Tbl.wf {} b.md.sides = true)
    ∧ (corrNext (side (gN (gCorr 1491308)) 0).corr (jumpStep (gN (gCorr 1491308))) = 0 ∧ corrNext (side (gN (gCorr 1491309)) 0).corr (jumpStep (gN (gCorr 1491309))) ≠ 0)
    ∧ ((gN {}).md.jumpAt = none ∧ now (gB {}) = 99 + 1 ∧ (gB { jumpAt := some 94 }).md.jumpAt = some 94 ∧ 94 + 6 ≤ now (gB {}) ∧ now (gB {}) < 95 + 6
        ∧ now (gB {}) ≠ 98 ∧ now (gB {}) ≠ 98 + 1) := by
  decide +kernel

theorem test_witness_ModeManager_jump :
    (gB { jumpAt := some 99, mode := .form }).md.jumpAt = some 99 ∧ 47 ∈ limbs (gB { jumpAt := some 99, mode := .form })
    ∧ limbCells (gB { jumpAt := some 99, mode := .form }) 47 = [2047] ∧ canRejoin (gB { jumpAt := some 99, mode := .form }) 2047 = true
    ∧ lvShut (gB { jumpAt := some 99, mode := .form }) 2047 = false := by
  decide +kernel

/-- SRC = 1 on both sides with F_NOM 50.0 Hz and a live fraction of 0.2; one station engine. -/
def syB (x : Side) (m : Mode) (t : Option Nat) : Block :=
  { adm with time := { sec := 30 }, md := { mode := m, syncAt := t, sides := [(0, { x with live := false }), (1, x)] }
             cfg := [(cfgKey 0x12 0, [0x60000000, 0x42480000, 0, 0, 0x3E4CCCCD, 0]), (cfgKey 0x12 1, [0x60000000, 0x42480000, 0, 0, 0x3E4CCCCD, 0]), (cfgKey 0x26 0, [1])] }
def syOff : Block := { adm with cfg := [(cfgKey 0x12 0, [0x40000000]), (cfgKey 0x12 1, [0])] }
def sPart : Block := { adm with pair := { role := 3 } }
def sGap (r : Nat) (o : W32) : Block := syB { live := true, srcState := 2, syncRun := r, src := o } .follow (some 5)
def sLive : Side := { live := true, srcState := 2, liveRun := 100 }
def sDying : Side := { live := true, srcState := 2, deadRun := 1000 }
def sAcq : Side := { srcState := 1, live := true, okRun := 1000 }

theorem test_witness_GridSides :
    (∀ b ∈ [sPart, adm, syB sLive .follow none, syB sLive .safe none], ∀ op objs, Admitted b op objs)
    ∧ (∀ b ∈ [syB sLive .follow none, syB {} .follow none, syB sDying .follow none, syB sAcq .follow none], gSrc b 0 ≠ 0 ∧ gSrc b 1 ≠ 0 ∧ gSrc b 1 = 1)
    ∧ (100 ≤ sLive.liveRun ∧ sLive.srcState = 2 ∧ sLive.badRun < 100 ∧ 1000 ≤ sDying.deadRun ∧ sDying.liveRun < 100 ∧ sDying.srcState = 2
        ∧ sAcq.srcState = 1 ∧ 1000 ≤ sAcq.okRun ∧ ({} : Side).srcState = 0 ∧ { sLive with badRun := 100 }.badRun = 100
        ∧ { sLive with srcState := 3 }.srcState = 3)
    ∧ (loopSettled (syB sLive .follow none) 1 0x42480000 11930464 = true ∧ loopSettled (syB sLive .follow none) 1 0x42480000 11930465 = false
        ∧ loopSettled (syB { sAcq with acqAt := 2994000 } .follow none) 1 0x42480000 (2 ^ 31 - 1) = true
        ∧ loopSettled (syB { sAcq with acqAt := 2994001 } .follow none) 1 0x42480000 0 = false)
    ∧ (gSrc adm 0 = 0 ∧ gSrc adm 1 = 0 ∧ isPartner adm = false ∧ adm.md.mode = .safe)
    ∧ (cfgBit (syB sLive .follow none) 0x12 1 0 29 = true ∧ cfgBit syOff 0x12 0 0 29 = false ∧ gSrc syOff 0 = 1 ∧ gSrc syOff 1 ≠ 1)
    ∧ (isPartner sPart = true ∧ (side (syB {} .follow none) 1).srcState ≠ 2 ∧ (side (syB sLive .follow none) 0).live = false)
    ∧ ((syB sLive .follow none).md.mode = .follow ∧ (side (syB sLive .follow none) 1).live = true ∧ (side (syB sLive .follow none) 1).srcState = 2
        ∧ lvConnected (syB sLive .follow none) = false ∧ (syB sLive .follow none).md.stop = false ∧ (syB sLive .follow none).md.imm = none)
    ∧ (∀ b ∈ [sGap 498 0, sGap 499 0, sGap 499 0x40000000], isPartner b = false ∧ lvConnected b = false ∧ (side b 1).live = true
        ∧ (side b 1).srcState = 2 ∧ b.md.syncAt.isSome = true)
    ∧ (syncPasses (sGap 498 0) = true ∧ (side (sGap 498 0) 1).syncRun + 1 < cfgN (sGap 498 0) 0x13 0 0 24 12
        ∧ syncPasses (sGap 499 0) = true ∧ (side (sGap 499 0) 1).syncRun + 1 = cfgN (sGap 499 0) 0x13 0 0 24 12
        ∧ syncPasses (sGap 499 0x40000000) = false ∧ 0 < cfgN (sGap 499 0x40000000) 0x13 0 0 24 12)
    ∧ (adm.md.syncAt = none ∧ (syB sLive .follow (some 0)).md.syncAt = some 0
        ∧ 0 + cfgN (syB sLive .follow (some 0)) 0x13 0 0 11 4 * 100000 = now (syB sLive .follow (some 0))
        ∧ now (syB sLive .follow (some 1)) < 1 + cfgN (syB sLive .follow (some 1)) 0x13 0 0 11 4 * 100000) := by
  refine ⟨fun b hb op objs => ?_, by decide +kernel⟩
  simp only [List.mem_cons, List.not_mem_nil, or_false] at hb
  rcases hb with rfl | rfl | rfl | rfl <;> exact admits _ _ _ rfl rfl rfl

/-- TIME_CFG and SYNC_CFG with every input and output on, the SYNCI deviation limit 20; the time state as given. -/
def tB (t : TimeS) : Block :=
  { adm with time := { t with ns := 10000 }
             cfg := [(cfgKey 0x08 0, [0x80011400]), (cfgKey 0x21 0, [0xE4783200, 0x00012C00, 37, 0, 0x80000000]), (cfgKey 0x22 0, [1])] }
def tSync (m : Nat) (t : TimeS) : Block := { tB t with cfg := [(cfgKey 0x08 0, [w32 (0x1400 + m * 2 ^ 16)])] }
def tSrc (k : Nat) (x : TimeSrc) : Tbl TimeSrc := [(k, x)]
def tFollow : Block := { tB {} with md := { mode := .follow } }
def tAct (b : Block) : Block := { b with host := { adm.host with actions := [{ boundary := 1, kind := .timeStep (some 5), op := 0x0601, h := h0 }] } }
def tHeld (r f : Nat) (s : Int) : Block := { tB {} with pair := { role := r, feeding := f, steer := s } }
def tLift : Block := tB { src := 1, srcs := tSrc 1 { offset := 1000001 } }
def tRuns : Block := { tB { state := 1 } with cells := [(2047, { slot := .integrating })] }
def tReset : Block := { tB {} with prot := { summitReset := true } }
def tHold (n : Nat) : Block := { tB { state := 3 } with time := { sec := n, holdAt := some 0, state := 3 } }
def tMark : TimeS := { srcs := tSrc 2 { lastMark := some 0, good := 2 } }
def tGm : TimeS := { gm := some { port := 3, id := 7, dataset := [] } }
def tSynci (told : Bool) (n : Nat) : Block := { tSync 1 {} with time := { ns := n, synciAt := some 0, synciTold := told } }
def tSynced : Block := tB { state := 2 }
def tNoEdge : Block := tSync 0 { state := 2 }
def irigL (y : Option Nat) : IrigLabel := { second := 0, year := y, leap := 0, localOffset := 0, quality := 0 }

theorem test_witness_TimeKeeping :
    (∀ b ∈ [tFollow, tB {}, tB { src := 3 }], ∀ op objs, Admitted b op objs)
    ∧ (tFollow.md.mode ≠ .safe ∧ (tB {}).md.mode = .safe ∧ checkBoundary (tB {}) 100 = some .strideTooSoon ∧ checkBoundary (tB {}) 101 = none
        ∧ (tB {}).time.src = 0 ∧ (tB { src := 3 }).time.src ≠ 0)
    ∧ ((tAct (tB { state := 1 })).host.actions.length = 1 ∧ 1 ≤ now (tAct (tB { state := 1 })) ∧ (tAct (tB { state := 1 })).time.state ≠ 0
        ∧ (tAct tFollow).md.mode ≠ .safe ∧ stepAllowed (tAct tRuns) = false ∧ stepAllowed (tAct (tB { state := 1 })) = true ∧ (tAct tRuns).md.mode = .safe)
    ∧ (tLift.time.state = 0 ∧ tLift.time.liftStep = true ∧ tLift.time.src ≠ 0 ∧ 1000000 < (timeSrc tLift tLift.time.src).offset ∧ stepAllowed tLift = true)
    ∧ ((tHeld 4 0 5000000).pair.role = 4 ∧ (tHeld 4 0 5000000).pair.feeding = 0 ∧ ((5000000 : Int) + 5000000) / 10000000 ≠ 0 ∧ (tHeld 4 1 0).pair.feeding ≠ 0)
    ∧ (∀ t ∈ [({ src := 3, state := 1, okRun := 7, srcs := tSrc 3 { fresh := true, offset := 50000 } } : TimeS),
          { src := 3, state := 1, okRun := 6, srcs := tSrc 3 { fresh := true, offset := -50000 } }, { src := 3, state := 1, srcs := tSrc 3 { fresh := true, offset := 50001 } }],
        t.src ≠ 0 ∧ (timeSrc (tB t) t.src).fresh = true ∧ t.state = 1)
    ∧ (cfgBit (tB {}) 0x21 0 0 (19 + (3 : Fin 4).val) = true ∧ cfgBit tNoEdge 0x21 0 0 (19 + (3 : Fin 4).val) = false
        ∧ (0 : BitVec 8).toNat = cfgN (tB {}) 0x21 0 1 31 24 ∧ fromGm (tB tGm) 3 (7 : BitVec 64).toNat = true ∧ fromGm (tB tGm) 2 7 = false
        ∧ (tB {}).time.gm = none ∧ gmOk (tB {}) [0, 6] 100 = true ∧ gmOk (tB {}) [0, 7] 0 = true)
    ∧ ((timeSrc (tB tMark) 2).lastMark = some 0 ∧ 2 ≤ (timeSrc (tB tMark) 2).good ∧ (999999000000 : Int) ≤ 999999000000 - 0 ∧ 2 ≤ ({ bad := 2 } : TimeSrc).bad)
    ∧ (cfgBit (tB {}) 0x21 0 0 18 = false ∧ (irigL (some 26)).year = some 26) := by
  refine ⟨fun b hb op objs => ?_, by decide +kernel⟩
  simp only [List.mem_cons, List.not_mem_nil, or_false] at hb
  rcases hb with rfl | rfl | rfl <;> exact admits _ _ _ rfl rfl rfl

/-- A unit in CHARGE at Lift's end; the last of its synthesizers in lock, or all of them. -/
def tLock (l : List Nat) (m : Mode) : Block := { tB {} with synth := l.map fun k => (k, { locked := true }), md := { mode := m } }
def tOut (n4 : Bool) (w : W32) : Block :=
  { tB {} with cfg := [(cfgKey 0x22 0, [0x48435000]), (cfgKey 0x23 3, [w])], synth := if n4 then [] else [(4, { holding := false })], sup := { good := true }, time := { refOk := true } }

theorem test_witness_TimeKeeping_clocks :
    ((tB { incrAt := some 1 }).time.incrAt = some (now (tB {})) ∧ (tB {}).time.incrAt ≠ some (now (tB {})) ∧ (tB { state := 2, src := 1 }).time.left = 0)
    ∧ (leapDue (tB {}) = false ∧ (tB { leap := 1 }).time.src ≠ 1
        ∧ utcSec (tB { leap := 1, sec := 86401 + 37 }) % 86400 = 1 ∧ utcSec (tB { leap := 2, sec := 86399 + 37 }) % 86400 = 86399)
    ∧ ((tB { refOk := true }).time.refOk = true ∧ (tB { refOk := false }).time.refOk = false)
    ∧ (srcMissing (tB { state := 2, src := 3, srcs := tSrc 3 { qualified := true, at? := some 1, bad := 3 } }) 3 = true ∧ srcMissing (tB {}) 3 = false)
    ∧ ((synth (tLock [1] .charge) 1).locked = true ∧ (synth (tB {}) 0).locked = false ∧ Tbl.wf {} (tLock [0, 1, 2, 3, 4] .charge).synth = true
        ∧ Tbl.wf {} (tLock [0, 1] .charge).ports = true ∧ (∀ j : Fin 5, j ≠ 1 → (synth (tLock [1] .charge) j.val).locked = false)
        ∧ (∃ j : Fin 5, j ≠ 1 ∧ (synth (tLock [0, 1] .charge) j.val).locked = true))
    ∧ ((let b := { tLock [1] .charge with sup := { stage := 2 } }; relockBarred b 1 = true ∧ b.md.mode = .charge ∧ 2 ≤ b.sup.stage)
        ∧ (let b := { tLock [0, 1] .charge with prot := { summitReset := true } }; relockBarred b 4 = false ∧ b.prot.summitReset = true))
    ∧ (cfgBit (tOut true 0x88028000) 0x23 3 0 31 = true ∧ cfgBit (tB {}) 0x23 3 0 31 = false ∧ cfgBit (tOut true 0x8402C000) 0x23 3 0 26 = true
        ∧ cfgBit (tOut true 0x8802C000) 0x23 3 0 26 = false ∧ (synth (tOut true 0) 4).holding = true ∧ (tOut true 0).sup.good = true
        ∧ (tOut true 0).prot.summitReset = false ∧ (tOut true 0).time.refOk = true)
    ∧ ((tB {}).time.ns < 10000 + 1 ∧ (tB { state := 2 }).time.ns = 10000 ∧ ({ tB {} with time := { ns := 999990000 } } : Block).time.ns = 999990000
        ∧ cfgN (tB {}) 0x21 0 4 20 11 = 0) := by
  decide +kernel

theorem test_witness_TimeKeeping_lost :
    ((3 : Fin 4) ≠ 0 ∧ (tB { state := 2, src := 3, srcs := tSrc 3 { qualified := true, at? := some 1, bad := 3 } }).time.src = (3 : Fin 4).val
        ∧ Tbl.wf {} (tB { state := 2, src := 3, srcs := tSrc 3 { qualified := true, at? := some 1, bad := 3 } }).time.srcs = true
        ∧ srcUsable (tB { state := 2, src := 3, srcs := tSrc 3 { qualified := true, at? := some 1, bad := 3 } }) 1 = false
        ∧ srcUsable (tB { state := 2, src := 3, srcs := tSrc 3 { qualified := true, at? := some 1, bad := 3 } }) 2 = false)
    ∧ ((tHold 300).time.holdAt = some 0 ∧ (tHold 300).time.state = 3 ∧ 0 + 100000 * cfgN (tHold 300) 0x21 0 1 23 8 = now (tHold 300)
        ∧ now (tHold 299) < 0 + 100000 * cfgN (tHold 299) 0x21 0 1 23 8)
    ∧ ((tB {}).time.src ≠ 1 ∧ tReset.prot.summitReset = true ∧ (tB {}).prot.summitReset = false)
    ∧ (cfgN (tSync 0 {}) 0x08 0 0 17 16 = 0 ∧ cfgN (tSync 2 {}) 0x08 0 0 17 16 ≠ 0 ∧ cfgN (tSync 1 {}) 0x08 0 0 17 16 = 1
        ∧ cfgN (tSync 1 {}) 0x08 0 0 15 8 = 20 ∧ (tSync 1 { synciRun := 15 }).time.synciRun = 15 ∧ (tSync 1 {}).time.synciRun ≠ 15)
    ∧ ((tSynci false 20000).time.synciAt = some 0 ∧ (tSynci false 20000).time.synciTold = false ∧ (tSynci true 20000).time.synciTold = true
        ∧ 0 + 2 * 2 ^ cfgN (tSynci false 20000) 0x08 0 0 30 28 = now (tSynci false 20000))
    ∧ (acquired (tB {}) = false ∧ acquired tSynced = true ∧ cfgBit tSynced 0x08 0 0 31 = true ∧ cfgN tSynced 0x08 0 0 27 18 = 0
        ∧ now tSynced % 2 ^ cfgN tSynced 0x08 0 0 30 28 = 0 ∧ cfgBit tSynced 0x21 0 4 31 = true)
    ∧ (Tbl.wf {} (tB {}).synth = true ∧ Tbl.wf {} (tB {}).ports = true ∧ (synth tNoEdge 4).setting = cfgW tNoEdge 0x22 0 0
        ∧ (synth (tB {}) 4).setting ≠ cfgW (tB {}) 0x22 0 0) := by
  decide +kernel

/-- Line 3 on channels 0 to 2 with remote identity 5, of unit length and velocity, threshold 1.0, gains of 1.0. -/
def lineCfg : List W32 := [0x2012C000, 0x3F800000, 0x3F800000, 0x3F800000, 0, 0x00640005, 0, 0]
def chan : List W32 := [0, 0x3F800000, 0, 0]
def qB : Block :=
  { adm with time := { ns := 1000000, state := 2 }, host := { adm.host with coachUp := true }
             cfg := [(cfgKey 0x1C 16, chan), (cfgKey 0x1C 17, chan), (cfgKey 0x1C 18, chan), (cfgKey 0x1E 1, [0x99000800, 0x00090000, 0, 0x00010001, 0]),
                     (cfgKey 0x1F 3, lineCfg), (cfgKey 0x20 0, [0x190C8470, 0x42C80000, 0x42C80000, 0, 0x3F800000])] }
def qTw (t : Tw) : Block := { qB with tw := t }
def qLost (x : Bool) (g : Option Nat) (r : Nat) (m : Mode) : Block :=
  { qB with sense := { lost := x, gotAt := g }, pair := { role := r }, md := { mode := m }, sup := { senseReset := x } }
def qRec (r : Recorder) : Block := { qB with recd := r }
/-- The trigger of kind 3 alone is on and its condition holds: 0.0 Hz lies 50 Hz from F_NOM, FREQ_DEV is 1.0. -/
def qEdge : Block := { qB with cfg := [(cfgKey 0x20 0, [0x190C8080, 0x3F800000, 0x42C80000, 0, 0x3F800000])] }
def qPmuOff : Block := { qB with time := {} }
/-- Samples of channel 0 that step by 1,000 codes after the peak. -/
def stepCodes : List (BitVec 16 × BitVec 16 × BitVec 16) := (List.range 128).map fun i => (if i < 65 then 0 else 1000, 0, 0)
def evOf (c : Nat) (done : Bool) : TwEvent :=
  { id := 8, line := 3, cfg := lineCfg, closeAt := c, closed := true, done := done, arrivals := [{ time := 100, mode := 0, peak := 0, samples := [] }] }
def tagW : List W32 :=
  let w : List W32 := [0x01000500, 0, 0, 0, 0x19000000, 0, 0]
  w ++ [crc32 (bytesOf w)]
def tagBad : List W32 := [0x01000500, 0, 0, 0, 0xFA000000, 0, 0, 0]
def qPmu (t : Nat) : Block := { qB with cfg := [(cfgKey 0x1E 1, [w32 (0x99000800 + t * 2 ^ 16), 0x00090000, 0, 0x00010001, 0])] }
def qTag : Block := { qB with time := { sec := 1 } }
/-- UTC second 40; the stream's last frame is of the second given. -/
def qRep (n : Nat) : Block :=
  { qB with time := { sec := 77, state := 2 }
            pmu := if n = 0 then [] else [(1, { frame := some { idcode := 9, soc := n, fracsec := 0, quality := 0, stat := 0, phasors := [], freq := 0, dfreq := 0
                                                                analogs := [], digital := 0 } })] }
def rec9 : RecordR := { id := 9, start := 5, stop := 100 }

theorem test_witness_SenseAndRecords :
    (∀ b ∈ [qB, qRec { store := [rec9] }, qTw { events := [evOf 0 true] }, qTw { events := [evOf 0 false] }, qLost true none 0 .safe],
        (∀ op objs, Admitted b op objs) ∧ feature b 9 = true)
    ∧ ((qLost true none 0 .safe).sup.senseReset = true ∧ qB.sup.senseReset = false ∧ isPartner qB = false ∧ isPartner (qLost false none 3 .safe) = true)
    ∧ ((qLost false (some 99) 0 .safe).sense.gotAt = some 99 ∧ now (qLost false (some 99) 0 .safe) < 99 + 2
        ∧ (qLost false (some 100) 0 .safe).sense.gotAt = some (now qB) ∧ (qLost false (some 99) 0 .safe).sense.gotAt ≠ some (now qB) ∧ qB.sense.lost = false
        ∧ qB.sense.gotAt = none ∧ qB.md.mode = .safe ∧ (qLost false none 0 .follow).md.mode ≠ .safe ∧ (qLost false none 0 .follow).md.imm = none)
    ∧ (pmuSends qPmuOff 1 = false ∧ pmuSends (qRep 0) 1 = true ∧ 0 < streamRate (qRep 0) 1
        ∧ (((40 : W32).toNat + taiUtc (qRep 0)) * 100000).toNat + 0 * 100000 / streamRate (qRep 0) 1 = now (qRep 0)
        ∧ now (qRep 0) < (((40 : W32).toNat + taiUtc (qRep 0)) * 100000).toNat + 1 * 100000 / streamRate (qRep 0) 1
        ∧ (qRep 40).pmu ≠ [])
    ∧ (pmuEn (qPmu 2) 1 = true ∧ (qPmu 2).host.coachUp = true ∧ (9 : BitVec 16).toNat = cfgN (qPmu 2) 0x1E 1 1 31 16
        ∧ (8 : BitVec 16).toNat ≠ cfgN (qPmu 2) 0x1E 1 1 31 16 ∧ pmuTransport (qPmu 2) 1 ≠ 0)
    ∧ (twWatched qB 0 = false ∧ twWatched qB 3 = true ∧ stepCodes.length = 128
        ∧ Tbl.get none qB.tw.peaks 3 = none ∧ Tbl.get none qB.tw.lines 3 = none ∧ Tbl.get none qB.tw.holdoff 3 = none)
    ∧ (Tbl.get none (qTw { lines := [(3, some (evOf 100999 false))] }).tw.lines 3 = some (evOf 100999 false)
        ∧ (evOf 100999 false).closeAt ≤ now qB * 1000 + 999 ∧ now qB * 1000 + 999 < (evOf 101000 false).closeAt ∧ (evOf 100999 false).de = true)
    ∧ (Tbl.get none (qTw { holdoff := [(3, some 100)] }).tw.holdoff 3 = some 100 ∧ 100 ≤ now (qTw { holdoff := [(3, some 100)] })
        ∧ now (qTw { holdoff := [(3, some 101)] }) < 101)
    ∧ (tagWhole [] = false ∧ tagWhole tagW = true ∧ (evOf 0 false).waits 3 (bits (word tagW 0) 23 8) (now qB) = true ∧ (evOf 0 false).waits 3 (bits (word tagW 0) 23 8) 100001 = false ∧ (evOf 0 false).closed = true
        ∧ (qTw { events := [evOf 0 false] }).tw.events = [evOf 0 false] ∧ (evOf 0 false).within (join64 (word tagW 2) (word tagW 3) * 1000 + bits (word tagW 4) 31 22) = true)
    ∧ ((evOf 0 false).line = 3 ∧ (evOf 0 false).done = false ∧ (evOf 99 false).closeAt / 1000 + 100000 = now qTag ∧ (evOf 0 true).done = true) := by
  refine ⟨fun b hb => ⟨fun op objs => ?_, ?_⟩, by decide +kernel⟩ <;> simp only [List.mem_cons, List.not_mem_nil, or_false] at hb
  · rcases hb with rfl | rfl | rfl | rfl | rfl <;> exact admits _ _ _ rfl rfl rfl
  · rcases hb with rfl | rfl | rfl | rfl | rfl <;> decide +kernel

theorem test_witness_SenseAndRecords_rows :
    ([0].length ≠ 8 ∧ tagW.length = 8 ∧ bits (word (List.replicate 8 (0 : W32)) 0) 31 24 ≠ 1 ∧ bits (word tagW 0) 31 24 = 1
        ∧ tagBad.length = 8 ∧ bits (word tagBad 0) 31 24 = 1 ∧ 999 < bits (word tagBad 4) 31 22 ∧ bits (word tagBad 1) 26 0 = 0
        ∧ bits (word tagW 0) 7 0 = 0 ∧ bits (word tagW 1) 26 0 = 0 ∧ bits (word tagW 4) 31 22 ≤ 999 ∧ bits (word tagW 4) 21 0 = 0 ∧ word tagW 6 = 0
        ∧ crc32 (bytesOf (tagW.take 7)) = word tagW 7 ∧ bits (word (tagW.set 0 0x01000501) 0) 7 0 ≠ 0 ∧ bits (word (tagW.set 1 1) 1) 26 0 ≠ 0
        ∧ bits (word (tagW.set 4 1) 4) 21 0 ≠ 0 ∧ word (tagW.set 6 1) 6 ≠ 0 ∧ crc32 (bytesOf ((tagW.set 2 1).take 7)) ≠ word (tagW.set 2 1) 7
        ∧ ∀ j < 4, (cfgWritten qB 0x1F j && cfgBit qB 0x1F j 0 29 && cfgN qB 0x1F j 5 15 0 == bits (word tagW 0) 23 8) = decide (j = 3))
    ∧ ((∀ e ∈ qB.tw.events, e.id ≠ (8 : W32).toNat) ∧ (qTw { events := [evOf 0 true] }).tw.events.find? (fun x => x.id == (8 : W32).toNat) = some (evOf 0 true))
    ∧ ((qLost true none 0 .safe).sense.lost = true ∧ (qRec { notes := [(6, 0)] }).recd.notes = [(6, 0)]
        ∧ trigEnabled qB 6 = true ∧ trigEnabled qEdge 6 = false)
    ∧ (∀ b ∈ [qRec { notes := [(6, 0)] }, qRec { notes := [(6, 0)], openRecs := [rec9] }], b.sense.lost = false ∧ trigEnabled b 6 = true
        ∧ trigCond b 3 = false ∧ trigCond b 4 = false ∧ trigCond b 5 = false)
    ∧ now (qRec { openRecs := [rec9] }) ≤ rec9.stop
    ∧ (qEdge.sense.lost = false ∧ qEdge.recd.notes = [] ∧ qEdge.recd.openRecs = [] ∧ Tbl.get 0 qEdge.recd.quiet 3 = 0 ∧ trigEnabled qEdge 3 = true
        ∧ trigCond qEdge 3 = true ∧ trigCond qEdge 4 = false ∧ trigCond qEdge 5 = false)
    ∧ (qB.recd.closing = [] ∧ (qRec { closing := [rec9] }).recd.closing = rec9 :: [])
    ∧ ((qB.recd.store.flatMap RecordR.header).length ≤ 1020 ∧ (∀ x ∈ qB.recd.store, x.id ≠ (9 : W32).toNat)
        ∧ (qRec { store := [rec9] }).recd.store.find? (fun y => y.id == (9 : W32).toNat) = some rec9
        ∧ 1 < (2 : W32).toNat ∧ hsHeld (qRec { store := [rec9] }) rec9.start = false
        ∧ hsHeld ({ qRec { store := [rec9] } with sense := { hsRing := [(5, (5, [0]))] } } : Block) rec9.start = true) := by
  decide +kernel

theorem test_witness_SenseAndRecords_arrival :
    detected (stepCodes.map fun x => (primary qB (16 + (twChannels lineCfg).getD 0 0) x.1.toInt, primary qB (16 + (twChannels lineCfg).getD 1 0) x.2.1.toInt,
      primary qB (16 + (twChannels lineCfg).getD 2 0) x.2.2.toInt)) (word lineCfg 3) 0 0 = true
    ∧ rearmed [] (word lineCfg 3) 0 (some 0) = false := by
  decide +kernel

/-- Stride 100; chain 31 READY; cell 2047 maps its endpoints 96 to 127. -/
def xB : Block :=
  { adm with time := { ns := 1000000 }, chains := [(31, { st := .ready })]
             cells := [(2047, { info := some { desc := [0, 0x40000, 0, 0, 0, 0, 0, 0, 0x30000, 0, 0, 0xFFFFFFFF, 0, 0x44000000] } })] }
def xSnap (x : Snap) : Block := { xB with snaps := { list := [x], nextId := 1 } }
def snap0 : Snap := { id := 0, boundary := 240, chains := 0x80000000, parts := 7, chainState := [(31, 1)] }
def snapUp : Snap := { snap0 with st := 1, boundary := 99 }
def snapNo : Snap := { snapUp with parts := 2 }
def snapEnd : Snap := { snap0 with st := 2 }
def xRole : Block := { xB with pair := { role := 1 } }
def xLatch (B : Nat) : Block := { xSnap { snap0 with chains := 0 } with host := { adm.host with actions := [{ boundary := B, kind := .snapshot 0, op := 0x0401, h := h0 }] } }
def xGot : Block := xSnap { snapUp with segs := [(8 * 2047 + 7, some [])] }
/-- The first and the last endpoint that cell 2047 maps. -/
def xEnds : List W32 := [w32 (2047 * 128 + 96), w32 (2047 * 128 + 127)]

theorem test_witness_SnapshotsAndReads :
    (∀ b ∈ [xB, xRole, xSnap snap0, xSnap snapUp, xSnap snapEnd, xSnap { snap0 with chains := 0 }], (∀ op objs, Admitted b op objs) ∧ feature b 9 = true)
    ∧ (7 < (8 : W32).toNat ∧ (7 : W32).toNat ≤ 7 ∧ xRole.pair.role ≠ 0 ∧ isLead xRole = false ∧ xB.pair.role = 0)
    ∧ (checkBoundary xB (join64 199 0) = some .strideTooSoon ∧ checkBoundary xB (join64 200 0) = none ∧ (∃ q ∈ bitList 32 1, (chain xB q).st ≠ .ready)
        ∧ ∀ q ∈ bitList 32 (0x80000000 : W32).toNat, (chain xB q).st = .ready)
    ∧ (snap0.st < 2 ∧ near40 snap0.boundary (join64 201 0) = true ∧ near40 snap0.boundary (join64 279 0) = true ∧ near40 snap0.boundary (join64 280 0) = false
        ∧ ∃ q ∈ bitList 32 (0x80000000 : W32).toNat, snapChain snap0 q = true)
    ∧ (xB.snaps.list = [] ∧ findSnap xB (0 : W32).toNat = none ∧ findSnap (xSnap snapEnd) (0 : W32).toNat = some snapEnd ∧ snapEnd.st = 2
        ∧ findSnap (xSnap { snap0 with chains := 0 }) (0 : W32).toNat = some { snap0 with chains := 0 } ∧ (xSnap { snap0 with chains := 0 }).host.actions = [])
    ∧ ((xLatch 101).host.actions.map Action.boundary = [101] ∧ now (xLatch 101) < 101 ∧ 100 ≤ now (xLatch 100))
    ∧ (uploading xB 31 = none ∧ uploading (xSnap snapUp) 31 = some snapUp ∧ Tbl.get none snapUp.segs (8 * 2047 + 7) = none
        ∧ (uploading xGot 31).map (fun x => (Tbl.get none x.segs (8 * 2047 + 7)).isSome) = some true) := by
  refine ⟨fun b hb => ⟨fun op objs => ?_, ?_⟩, by decide +kernel⟩ <;> simp only [List.mem_cons, List.not_mem_nil, or_false] at hb
  · rcases hb with rfl | rfl | rfl | rfl | rfl | rfl <;> exact admits _ _ _ rfl rfl rfl
  · rcases hb with rfl | rfl | rfl | rfl | rfl | rfl <;> decide +kernel

/-- Port 31 in lock; a segment of cell 2047 of zeros and its header, and one of another position. -/
def xHear (b : Block) : Block := { b with ports := [(31, { st := .up, rxLock := true })] }
def segW : List W32 := List.replicate 16 0
def segH (pos : Nat) : BitVec 56 := segPayload pos 1 7 0 false segW

theorem test_witness_SnapshotsAndReads_segments :
    hears (port xB 31) = false ∧ hears (port (xHear xB) 31) = true
    ∧ (rxFrame 31 0xCC (segH 63) 0 (segW.take 15) (xHear xB)).2 = none ∧ (rxFrame 31 0xCC (segH 63) 0 segW (xHear xB)).2 = some segW
    ∧ segOk 2047 1 7 (segH 63) segW = true ∧ segOk 2047 1 7 (segH 62) segW = false ∧ pf (segH 63) 47 44 = 7
    ∧ uploading (xHear (xSnap snapUp)) 31 = some snapUp := by
  decide +kernel

theorem test_witness_SnapshotsAndReads_rows :
    (findSnap (xSnap snapUp) (0 : W32).toNat = some snapUp ∧ snapUp.st = 1 ∧ snapChain snapUp 31 = true ∧ snapUp.closed.testBit 31 = false
        ∧ snapUp.boundary + 2 * ((List.range 64).map fun c => snapUp.segCount (64 * 31 + c)).foldl Nat.max 0 + 1 = now (xSnap snapUp)
        ∧ snapChain snapUp 30 = false ∧ snap0.st ≠ 1 ∧ snapNo.st = 1 ∧ snapCells snapNo = false ∧ findSnap (xSnap snapNo) 0 = some snapNo)
    ∧ (((xSnap snapEnd).snaps.list.filter fun x => 0 < x.st).flatMap Snap.header).length ≤ 1020
    ∧ (2 % 4 ≠ 0 ∧ 0x3B1000 ≤ 0x3B1000 ∧ 0x3B0FFC % 4 = 0 ∧ 0x3B0FFC < 0x3B1000 ∧ 0x3B1000 < 0x3B0FFC + 8 ∧ 0x3B0FFC + 4 ≤ 0x3B1000)
    ∧ (2048 < 2048 + 1 ∧ 2047 + 1 ≤ 2048 ∧ xB.ev.log.length < 1048576)
    ∧ (bits (0 : W32) 11 0 = 0 ∧ telemCount (bits (0x01020001 : W32) 31 24) < bits (0x01020001 : W32) 23 12 + bits (0x01020001 : W32) 11 0
        ∧ 0 < bits (0x0101F001 : W32) 11 0 ∧ bits (0x0101F001 : W32) 23 12 + bits (0x0101F001 : W32) 11 0 = telemCount (bits (0x0101F001 : W32) 31 24))
    ∧ (∀ k < xEnds.length, (endpointBad xB (word xEnds k) k).isNone = true)
    ∧ ((0x1DBFFFFFF : BitVec 33).toNat < 0x1DC000000 ∧ (0xFFFFFFFF : BitVec 33).toNat < 0x100000000 ∧ 0x100000000 ≤ (0x17FFFFFFF : BitVec 33).toNat
        ∧ (0x17FFFFFFF : BitVec 33).toNat < 0x180000000 ∧ 0x1C4000000 ≤ (0x1CBFFFFFF : BitVec 33).toNat ∧ (0x1CBFFFFFF : BitVec 33).toNat < 0x1CC000000) := by
  decide +kernel

/-- Stride 100 of a block whose supply state is as given. -/
def yB (u : Supply) : Block := { adm with time := { ns := 1000000, refOk := true }, sup := u }
def yRail (r : Nat) (q : Rail) : Block := yB { rails := [(r, q)] }
def yReset : Block := { yB {} with prot := { summitReset := true } }
def yRole (r : Nat) (m : Mode) : Block := { yRail 11 { dipAt := some 0 } with time := { ns := 2000000 }, pair := { role := r }, md := { mode := m } }
/-- Ten chains in use at 115 °C: 30,240 mW that cannot be shed. -/
def yHot (n : Nat) : Block := { yB { temp := 7360, n := n } with cfg := (List.range 10).map fun p => (cfgKey 0x01 p, [0x01000000]) }
def yBase : Block :=
  { yB { good := true } with synth := [(0, { locked := true }), (1, { locked := true }), (2, { locked := true })]
                             cfg := [(cfgKey 0x81 0, [0x80000000])] }

theorem test_witness_SupplyAndLift :
    (∀ op objs, Admitted (yB {}) op objs)
    ∧ ((rail (yRail 11 { dipAt := some 0 }) 11).dipAt.isSome = true ∧ (rail (yB {}) 11).dipAt = none ∧ (rail (yB {}) 11).lastEnd = none
        ∧ (rail (yRail 11 { lastEnd := some 0 }) 11).lastEnd = some 0 ∧ (rail (yRail 11 { lastEnd := some 0 }) 11).dipAt = none
        ∧ micros (yRail 11 { lastEnd := some 0 }) (9 : Fin 10).val ≤ 0 + 10000)
    ∧ ((yRail 11 { dipAt := some 0 }).led.heldCkpt = none ∧ (yB {}).prot.summitReset = false ∧ yReset.prot.summitReset = true)
    ∧ ((rail (yRole 0 .follow) 11).dipAt = some 0 ∧ (rail (yRole 0 .follow) 11).long = false ∧ (rail (yRole 0 .follow) 11).crossed = false
        ∧ 0 + 2000 = micros (yRole 0 .follow) (0 : Fin 10).val ∧ (yRole 0 .follow).pair.role = 0 ∧ (yRole 0 .follow).md.mode = .follow
        ∧ (yRole 0 .follow).md.stop = false ∧ (yRole 0 .follow).md.orderly = none ∧ (yRole 0 .follow).md.imm = none
        ∧ isPartner (yRole 3 .follow) = true ∧ (yRole 3 .follow).pair.roleDue = none ∧ covered (yRole 5 .follow) = true)
    ∧ (rail (yRail 11 { dipAt := some 0, long := true }) 11).long = true
    ∧ ((-3521 : BitVec 16).toInt < -3520 ∧ 9600 < (9601 : BitVec 16).toInt ∧ 2 ≤ (yB { badRun := 2 }).sup.badRun ∧ (yB { badRun := 1 }).sup.badRun < 2
        ∧ (yB {}).sup.diodeFault = false ∧ (yB {}).md.mode = .safe)
    ∧ (-3520 ≤ (-3520 : BitVec 16).toInt ∧ (9600 : BitVec 16).toInt ≤ 9600 ∧ Nat.min 100 ((yB { diodeFault := true, okRun := 98 }).sup.okRun + 1) < 100
        ∧ Nat.min 100 ((yB { diodeFault := true, okRun := 99 }).sup.okRun + 1) = 100)
    ∧ (meanTemp [6720] = 6720 ∧ meanTemp [7359, 7359, 7359, 7359] < 7360 ∧ meanTemp [6399] < 6400 ∧ meanTemp [6400] = 6400 ∧ meanTemp [6719] < 6720
        ∧ meanTemp [7679] < 7680 ∧ 8000 ≤ meanTemp [8000] ∧ 8320 ≤ meanTemp [8320]) := by
  exact ⟨fun _ _ => admits _ _ _ rfl rfl rfl, by decide +kernel⟩

/-- The Summit in reset for `n` µs, REFCLK there; a Summit rail below its threshold or none. -/
def yHeld (n : Nat) (low : Bool) : Block :=
  { yB { fail := 0, rails := if low then [(8, { crossed := true, dipAt := some 0 })] else [] } with prot := { summitReset := true, heldFor := n } }

theorem test_witness_SupplyAndLift_levels :
    (∀ r < 12, railLow r (railSpec r).1 = false ∧ railLow r ((railSpec r).1 - 1) = true ∧ railBack r ((railSpec r).1 + (railSpec r).2.2) = false
        ∧ railBack r ((railSpec r).1 + (railSpec r).2.2 + 1) = true ∧ railFails r (railSpec r).2.1 = false ∧ ((railSpec r).2.1 = 0 ∨ railFails r ((railSpec r).2.1 - 1) = true))
    ∧ ((yHeld 99 false).prot.heldFor < 100 ∧ 100 ≤ (yHeld 100 false).prot.heldFor ∧ summitRailLow (yHeld 100 true) = true ∧ summitRailLow (yHeld 100 false) = false
        ∧ (yHeld 100 false).time.refOk = true ∧ (yHeld 100 false).sup.fail ≠ 2 ∧ (yHeld 100 false).prot.summitReset = true)
    ∧ (now (yB { thermAt := some 1 }) < 1 + 100 ∧ 0 + 100 ≤ now (yB { thermAt := some 0 }) ∧ (yB {}).sup.thermAt = none)
    ∧ ((yB { temp := 7359 }).sup.evalAt = none ∧ (yB { temp := 7360 }).sup.evalAt = none
        ∧ now ({ yB {} with time := { ns := 989990000 } } : Block) < 0 + 99000 ∧ 0 + 99000 ≤ now ({ yB {} with time := { ns := 990000000 } } : Block))
    ∧ (now (yB { senseResetAt := 1 }) * 10 < 1 + 1000 ∧ (yB { senseResetAt := 0 }).sup.senseResetAt + 1000 ≤ now (yB {}) * 10)
    ∧ ((yB { good := true, stage := 1 }).sup.stage = 1 ∧ (yB { good := true, stage := 2 }).sup.stage = 2 ∧ cfgWritten (yB { good := true }) 0x81 0 = false
        ∧ (yB { warn := true }).sup.warn = true)
    ∧ (yB {}).prot.summitReset = false ∧ (4 * (yB {}).time.incr ≤ strideLen → True) ∧ 0 < yReset.time.incr := by
  decide +kernel

theorem test_witness_SupplyAndLift_rows :
    ((yB { shutdown := true }).sup.shutdown = true ∧ 7040 ≤ (yB { temp := 7040 }).sup.temp ∧ (yB { temp := 7359 }).sup.temp < 7360
        ∧ capTenths (yHot 16) = 3 ∧ capTenths (yHot 15) ≠ 3 ∧ (yHot 16).sup.temp = 7360 ∧ (yB { temp := 7039, n := 1 }).sup.temp < 7040)
    ∧ (({} : Block).time.refOk = false ∧ (yB { fail := 2 }).sup.fail = 2 ∧ yReset.sup.fail ≠ 2 ∧ yReset.time.refOk = true)
    ∧ ((yB { good := true }).sup.good = true ∧ (yB {}).sup.good = false ∧ (yB {}).trust.auth = none ∧ (yB {}).trust.trial = 0)
    ∧ (yBase.sup.good = true ∧ yBase.sup.stage = 0 ∧ yBase.sup.fail ≠ 2 ∧ yBase.prot.summitReset = false ∧ coreLocked yBase = true
        ∧ cfgWritten yBase 0x81 0 = true ∧ coreLocked (yB { good := true }) = false ∧ ∀ j < 36, portUnused yBase j = false)
    ∧ ((yB { stage := 1 }).sup.stage = 1 ∧ (yB { stage := 1 }).sup.fail = 0 ∧ (yB { stage := 1 }).trust.store = [] ∧ (yB { stage := 1 }).host.held = []
        ∧ (yB { stage := 1, fail := 4 }).sup.fail = 4 ∧ (yB {}).sup.stage ≠ 1)
    ∧ ((5 : Fin 6) ≠ 0 ∧ (5 : Fin 6) ≠ 1 ∧ (3 : Fin 6) = 3 ∧ (4 : Fin 6) = 4 ∧ (2 : Fin 6) = 2)
    ∧ ((1 : Fin 12).val ≤ 1 ∧ 2 ≤ (2 : Fin 12).val ∧ (8 : Fin 12).val ≤ 8 ∧ (9 : Fin 12).val = 9 ∧ (10 : Fin 12).val = 10 ∧ (11 : Fin 12).val = 11
        ∧ Tbl.wf {} (yB {}).safe.out = true)
    ∧ (yReset.time.ns < 1000000000 ∧ yReset.time.sub < 2 ^ 32 ∧ 0 < yReset.time.incr ∧ yReset.time.incr ≤ strideLen ∧ yReset.time.sec + 1 < 2 ^ 64 / 100000
        ∧ (yB {}).prot.sysOut = false) := by
  decide +kernel

/-- An image of no sections with security version 64. -/
def svn64 : Image := { valid := true, words := [0, 0, 0, 0x40000000] }
def svn0 : Image := { valid := true }
def store6 (i : Image) : Tbl Image := [(128, i), (129, i), (256, i), (257, i), (512, i), (513, i)]
def zB (t : Trust) : Block := { adm with time := { ns := 10000 }, trust := t }
def zUp (t : Trust) (c : Bool) : Block := { zB t with host := { adm.host with coachUp := true }, sup := { coachBank := c } }
def zFollow (t : Trust) : Block := { zB t with md := { mode := .follow } }
def zDip (t : Trust) : Block := { zB t with sup := { rails := [(0, { dipAt := some 0 })] } }
def zWait (d : List W32) (r : Tbl Rail) (sec : Nat) : Block :=
  { zB {} with time := { sec := sec }, sup := { rails := r }, host := { adm.host with waiting := [{ h := h0, op := 0x0803, objs := [.flash], data := d, since := 5 }] } }
def zTrial (sec : Nat) : Block := { zB { trial := 3 } with time := { sec := sec } }
def zFail : Block := { zB {} with sup := { fail := 4 } }
def zPatrol : Block := { zB {} with prot := { restartAt := some 0 } }
/-- No form of an image: refused as such, whatever the opaque signature check says. -/
theorem bad_image : verifyImage (zB {}) 1 [] = 1 ∧ verifyImage (zB {}) 8 [] = 1 ∧ verifyImage zFail 1 [] = 1 := by decide +kernel

theorem test_witness_TrustAndChange :
    (∀ b ∈ [zB {}, zFollow {}, zB { store := store6 svn64 }, zFollow { store := store6 svn64 }, zB { svnOtp := 1, store := store6 svn0 }, zUp { trial := 1 } false,
        zDip { store := store6 svn64 }, zB { auth := some ⟨7, 0⟩ }], (∀ op objs, Admitted b op objs) ∧ feature b 9 = true ∧ b.trust.flashFailed = 0)
    ∧ ((1 : BitVec 8) ≠ 0 ∧ atRest (zFollow {}) = false)
    ∧ (let l : List W32 := [7]
       ∃ w, (zWait (w32 1 :: w32 0 :: l) [] 0).host.waiting = [w] ∧ w.op = 0x0803 ∧ w.data = w32 1 :: w32 0 :: l ∧ w.objs = [.flash]
          ∧ flashHeld (zWait (w32 1 :: w32 0 :: l) [] 0) = false)
    ∧ (zB {}).host.waiting = []
    ∧ ((stored (zB {}) 4 0 (true).toNat).valid = false ∧ (stored (zB { store := store6 svn64 }) 4 0 (true).toNat).valid = true
        ∧ versionOk (zB { store := store6 svn64 }) 4 svn64.words = true ∧ atRest (zB { store := store6 svn64 }) = true
        ∧ versionOk (zB { svnOtp := 1, store := store6 svn0 }) 4 svn0.words = false ∧ (stored (zB { svnOtp := 1, store := store6 svn0 }) 4 0 1) = svn0
        ∧ (stored (zB { store := store6 svn64 }) 1 0 1).valid = true ∧ versionOk (zB { store := store6 svn64 }) 1 svn64.words = true)
    ∧ (trialOf (zB {}) 1 = false ∧ trialOf (zUp { trial := 1 } false) 1 = true ∧ (zUp { trial := 1 } false).host.coachUp = true
        ∧ (zUp { trial := 1 } false).sup.coachBank = (activeBank (zUp { trial := 1 } false) 1 == 1))
    ∧ ((0 : BitVec 7).toNat ≤ (zB {}).trust.svnOtp ∧ 64 < (65 : BitVec 7).toNat ∧ (zB {}).trust.svnOtp < (64 : BitVec 7).toNat ∧ (64 : BitVec 7).toNat ≤ 64
        ∧ flashHeld (zDip { store := store6 svn64 }) = true
        ∧ ([1, 2, 4].all fun k => [0, 1].all fun d => (stored (zB {}) k 0 d).valid && decide (64 ≤ iSvn (stored (zB {}) k 0 d).words)) = false
        ∧ ([1, 2, 4].all fun k => [0, 1].all fun d => (stored (zB { store := store6 svn64 }) k 0 d).valid
            && decide ((64 : BitVec 7).toNat ≤ iSvn (stored (zB { store := store6 svn64 }) k 0 d).words)) = true)
    ∧ (verifyImage (zB {}) 1 [] ≠ 0 ∧ verifyImage (zB {}) 8 [] ≠ 0 ∧ verifyImage zFail 1 [] ≠ 0 ∧ zFail.sup.fail = 4 ∧ (zB {}).sup.fail ≠ 4) := by
  refine ⟨fun b hb => ⟨fun op objs => ?_, ?_, ?_⟩, by decide, ⟨_, rfl, rfl, rfl, rfl, rfl⟩, rfl, by decide +kernel, by decide +kernel,
    by decide +kernel, by rw [bad_image.1, bad_image.2.1, bad_image.2.2]; decide +kernel⟩ <;> simp only [List.mem_cons, List.not_mem_nil, or_false] at hb
  · rcases hb with rfl | rfl | rfl | rfl | rfl | rfl | rfl | rfl <;> exact admits _ _ _ rfl rfl rfl
  · rcases hb with rfl | rfl | rfl | rfl | rfl | rfl | rfl | rfl <;> decide +kernel
  · rcases hb with rfl | rfl | rfl | rfl | rfl | rfl | rfl | rfl <;> rfl

theorem test_witness_TrustAndChange_rows :
    ((List.replicate 15 (0 : W32)).length ≠ 16 ∧ (List.replicate 16 (0 : W32)).length = 16 ∧ 2 < (3 : W32).toNat ∧ (2 : W32).toNat ≤ 2)
    ∧ ((zB {}).trust.auth = none ∧ (zB { auth := some ⟨7, 1⟩ }).trust.auth = some ⟨7, 1⟩ ∧ (⟨7, 1⟩ : DebugAuth).endAt ≤ now (zB { auth := some ⟨7, 1⟩ })
        ∧ now (zB { auth := some ⟨7, 2⟩ }) < (⟨7, 2⟩ : DebugAuth).endAt)
    ∧ ((zB {}).host.coachUp = false ∧ (zUp {} false).host.coachUp = true ∧ trialOf (zUp { trial := 1 } false) 1 = true ∧ (zB {}).host.held = [])
    ∧ (flashHeld (zB {}) = false ∧ flashHeld (zWait [] [(0, { dipAt := some 60 })] 1) = true
        ∧ Nat.max 5 (dipStride (zWait [] [(0, { dipAt := some 0 })] 1)) + 100000 > now (zWait [] [(0, { dipAt := some 0 })] 1)
        ∧ Nat.max 5 (dipStride (zWait [] [(0, { dipAt := some 60 })] 2)) + 100000 ≤ now (zWait [] [(0, { dipAt := some 60 })] 2))
    ∧ (trialOf (zB {}) 2 = false ∧ trialOf (zTrial 600) 1 = true ∧ Tbl.get 0 (zTrial 600).trust.trialAt 1 + 60000000 = now (zTrial 600)
        ∧ now (zTrial 599) < Tbl.get 0 (zTrial 599).trust.trialAt 2 + 60000000)
    ∧ ((zB {}).prot.restartAt = none ∧ zPatrol.prot.restartAt.isSome = true)
    ∧ ((1 : BitVec 14) ≠ 0 ∧ (zB { flashFailed := 2 }).trust.flashFailed.getLsbD (1 - activeBank (zB { flashFailed := 2 }) 1) = true
        ∧ feature (zB { flashFailed := 2 }) 9 = true ∧ (zB {}).sup.stage = 0 ∧ (st (zB {})).pending = [] ∧ (zB {}).md.mode ≠ .service) := by
  decide +kernel

/-- A state with cells and a mailbox of each kind: its tables are canonical, and with nothing waiting its step idles. -/
def canon : State := st { cells := [(0, { slot := .active }), (2047, { stale := false })], terms := [(2047, { m := 1 })], host := { busy := 1, done := 0xFE } }
theorem test_witness_StepKeepsForm : Canonical canon ∧ MailboxesApart canon ∧ step canon = .next canon :=
  ⟨⟨by decide +kernel, by decide +kernel⟩, (by decide : canon.blk.host.busy &&& canon.blk.host.done = 0), rfl⟩

theorem test_witness_BlockWhateverTheBib :
    isBlockOctet 0xF1 = true ∧ (term (st { terms := [(2047, { ladder := .run, powered := true })] }).blk 2047).ladder ≠ .blocked := by
  decide +kernel

/-- A keyring image whose KEYS section starts with LOCK_CAL. -/
def keyImage : Image :=
  { valid := true, words := [0, 0x100, 0, 0, 0, 0, 0, 0, 0, 0, 0, 0, 0, 0, 0, 0, 0x05000000, 144, 4, 0] ++ List.replicate 16 0 ++ [0x08000000] }
def lockedB : Block := { adm with trust := { store := [(512, keyImage)] } }
def calW : W32 := 0x1C000F00
theorem test_witness_LockCalRefusesCalibration :
    (0x1C : Nat) ∈ [0x0B, 0x0C, 0x0D, 0x0E, 0x1C, 0x1D] ∧ bits calW 31 24 = 0x1C ∧ bits calW 23 8 = 15 ∧ Admitted lockedB 0x0101 [.cfg 0x1C 15]
      ∧ lockCal lockedB = true ∧ bits calW 7 0 = 0 ∧ 15 < cfgCount 0x1C ∧ (List.replicate 4 (0 : W32)).length = cfgWords 0x1C
      ∧ lockedB.pair.role ≠ 3 ∧ join64 0 0 = 0 ∧ checkBoundary lockedB (join64 100 0) = none := by
  exact ⟨by decide, by decide, by decide, admits _ _ _ rfl rfl rfl, by decide +kernel, by decide, by decide, by decide, by decide, by decide, by decide⟩

/-! ### Ill-formed operands, one for each check of WellFormed -/

theorem test_wf_doorbell_count : (Instr.mbxDoorbell 1 (List.replicate 7 [])).wf = false := by decide
theorem test_wf_doorbell_request : (Instr.mbxDoorbell 1 (List.replicate 1025 0 :: List.replicate 7 [])).wf = false := by decide +kernel
theorem test_wf_args (l : List W32) (n : l.length = 262145) :
    ∀ i ∈ [Instr.indirectArgsFetched 0 l, .sessionOpen h0 l, .sessionAccept h0 l, .cfgWrite h0 l, .cfgRead h0 l, .pmuNames h0 0 l, .modeRequest h0 l,
      .telemRead h0 l, .endpointRead h0 l, .snapshotRequest h0 l, .twRemote h0 l, .imageWrite h0 1 0 l, .attestReport h0 l, .debugAuthorize h0 l,
      .safeCfgWrite h0 l, .recoveryImageWrite h0 l], i.wf = false := by
  have h : wfArgs l = false := by simp [wfArgs, n]
  intro i hi
  simp only [List.mem_cons, List.not_mem_nil, or_false] at hi
  rcases hi with rfl | rfl | rfl | rfl | rfl | rfl | rfl | rfl | rfl | rfl | rfl | rfl | rfl | rfl | rfl | rfl <;> exact h
theorem test_wf_vars (l : List (W32 × W32)) (n : l.length = 131073) : (Instr.hostVarWrite h0 l).wf = false := by
  show decide (2 * l.length ≤ 262144) = false
  simp [n]
theorem test_wf_32 :
    [Instr.safetyArmStep (2 ^ 32), .ringRead h0 0 (2 ^ 32) 0 1, .ringRead h0 0 0 (2 ^ 32) 1, .ringRead h0 0 0 0 (2 ^ 32), .logRead h0 0 (2 ^ 32),
      .snapshotRead h0 0 (2 ^ 32) 4, .snapshotRead h0 0 0 (2 ^ 32), .safeLogRead h0 0 (2 ^ 32), .engineScrub 0 (2 ^ 32) none,
      .soTestCheck true (2 ^ 32)].all (fun i => !i.wf) = true := by decide
theorem test_wf_64 :
    [Instr.ringRead h0 (2 ^ 64) 0 0 1, .timeStep h0 (2 ^ 64) none, .pairJoin h0 (2 ^ 64) true (List.replicate 48 0), .pairHandover h0 (2 ^ 64),
      .carveSwap h0 (2 ^ 64) [] true, .imageActivate h0 1 true 0 (2 ^ 64), .measureSend 0 (2 ^ 64), .echoReceived 0 0 (2 ^ 64),
      .inputFrame 0 (2 ^ 64) (List.replicate 778 0) 0, .measFrame (2 ^ 64) (List.replicate 128 0) 0, .cmdFrame (2 ^ 64) 0 [] 0,
      .syncFrame (2 ^ 64) (.slot 0 (List.replicate 64 0)) true, .nakFrame 0 (2 ^ 64) 0].all (fun i => !i.wf) = true := by decide +kernel
theorem test_wf_nodup :
    [Instr.carveLoad h0 0 [271, 271], .carveSwap h0 0 [0, 0] true, .compSelftest h0 [(47, none), (47, none)]].all (fun i => !i.wf) = true := by decide +kernel
theorem test_wf_password :
    [Instr.safeCfgSetpw h0 (List.replicate 11 0), .safeCfgPw h0 (List.replicate 65 0), .safeCfgOpen h0 (List.replicate 12 0) [0, 0, 0],
      .safeCfgOpen h0 (List.replicate 11 0) [0, 0, 0, 0]].all (fun i => !i.wf) = true := by decide
theorem test_wf_sizes :
    [Instr.pairJoin h0 0 true [], .ledgerRestore h0 0 0 [1, 2, 3], .localLegFrameSend (List.replicate 65 0) [0, 0, 0, 0] [none, none],
      .localLegFrameSend [] [0, 0, 0] [none, none], .localLegFrameSend [] [0, 0, 0, 0] [none], .uplinkRecord 0 0 0 (List.replicate 11 0) 0,
      .uplinkRecord 0 0 0 (List.replicate 12 0) 6400, .enumSegment 0 0 0 [], .snapshotSegment 0 0 0 (List.replicate 17 0),
      .stepFrame (List.replicate 7 0) 0, .inputFrame 0 0 (List.replicate 777 0) 0,
      .measFrame 0 (List.replicate 127 0) 0, .cmdFrame 0 65536 [] 0, .syncFrame 0 (.slot 0 []) true,
      .twArrival 0 0 0 0 0 [],
      .twTag 0 []].all (fun i => !i.wf) = true := by decide +kernel
theorem test_wf_downlink (l : List W32) (n : l.length = 2047) : (Instr.cellDownlinkFrame 0 true 0 l true).wf = false := by
  simp [Instr.wf, n]
theorem test_wf_samples :
    [Instr.senseSamples (List.replicate 15 (List.replicate 10 0)) (List.replicate 12 (List.replicate 200 0)),
      .senseSamples (List.replicate 16 (List.replicate 9 0)) (List.replicate 12 (List.replicate 200 0)),
      .senseSamples (List.replicate 16 (List.replicate 10 0)) (List.replicate 12 (List.replicate 199 0))].all (fun i => !i.wf) = true := by decide +kernel
theorem test_wf_accepts :
    [Instr.mbxDoorbell 1 (List.replicate 8 (List.replicate 1024 0)), .safeCfgOpen h0 (List.replicate 64 0) [0, 0, 0, 0], .carveLoad h0 0 [0, 271],
      .uplinkRecord 2047 0 0 (List.replicate 12 0) 6399, .syncFrame 0 (.slot 0 (List.replicate 64 0)) true].all Instr.wf = true := by decide +kernel

/-! ### Single steps and named operations, with results that the spec gives -/

/-- The check value of CRC-32 (IEEE 802.3, R130) over "123456789". -/
theorem test_crc32 : crc32 [0x31, 0x32, 0x33, 0x34, 0x35, 0x36, 0x37, 0x38, 0x39] = 0xCBF43926 := by decide +kernel
/-- The check value of the polynomial of R405 over "123456789", most significant bit first. -/
theorem test_crc64 : crcMsb 64 0x42F0E1EBA9EA3693 0 ([0x31, 0x32, 0x33, 0x34, 0x35, 0x36, 0x37, 0x38, 0x39].flatMap (msbBits 8)) = 0x6C40DF5F0B497347 := by
  decide +kernel

/-- Table 8-12: JUMP_RATE 0.125° is 1,491,308 units; Δ = 357,913,941 is class 1 and c falls to 356,422,633. -/
theorem test_jump_rate : jumpStep {} = 1491308 := by decide +kernel
theorem test_jump_class : jumpClass 357913941 = 1 ∧ jumpClass 357913942 = 2 ∧ jumpClass (-1073741825) = 3 := by decide
def jump30 : Block := { md := { mode := .coast, sides := [(0, { correcting := true, corr := 357913941, src := 0x40000000 })] }, time := { ns := 10000 } }
theorem test_jump_correction : (side (run .jumpCorrection jump30) 0).corr = 356422633 := by decide +kernel
theorem test_jump_correction_angle : (side (run .jumpCorrection jump30) 0).ctrl = 0x40000000 - 356422633 := by decide +kernel

/-- The unit of Table 15-10: 72,840 mW, of which 67,820 cannot be shed. -/
def costly (n : Nat) : Block :=
  { cfg := (List.range 32).map (fun p => (cfgKey 0x01 p, [0x01000000])) ++ [(cfgKey 0x1E 0, [0x8C800800]), (cfgKey 0x1F 0, [0x20120000]),
      (cfgKey 0x1F 1, [0x23450000]), (cfgKey 0x21 0, [0xE4980000, 0, 0, 0, 0]), (cfgKey 0x81 0, [0x80000000, 0])]
    eng := (List.range 268).map fun e => (e, { bankA := { valid := true } }), sup := { n := n } }
theorem test_cost : costFixed (costly 0) = 67820 ∧ (List.range 15).map (costAt (costly 0)) =
    [72840, 71880, 71112, 70920, 70120, 70070, 70040, 70040, 70040, 70040, 70040, 70040, 70040, 69620, 67820] := by decide +kernel
theorem test_cap_factor : capTenths (costly 2) = 10 ∧ capTenths (costly 3) = 9 := by decide +kernel

/-- R203 and Table 6-6: IADD saturates, IADDW wraps, FADD is binary32, ISHR keeps the sign. -/
def d3 (op : Nat) (i : Fin 272 → FmtR → Instr) (x : Fin 128) (a b : W32) : W32 :=
  Tbl.get 0 (engine (run (i 271 (fr 3 x)) (at1 .active (wordR op (fr 3 x)) { regs := [(1, a), (2, b)] })) 271).regs 3
theorem test_iadd : d3 0x10 .cvIadd 0 0x7FFFFFFF 1 = 0x7FFFFFFF := by decide +kernel
theorem test_iadd_low : d3 0x10 .cvIadd 0 0x80000000 0xFFFFFFFF = 0x80000000 := by decide +kernel
theorem test_iaddw : d3 0x12 .cvIaddw 0 0x7FFFFFFF 1 = 0x80000000 := by decide +kernel
theorem test_isub : d3 0x11 .cvIsub 0 5 7 = 0xFFFFFFFE := by decide +kernel
theorem test_ishl : d3 0x15 .cvIshl 31 1 0 = 0x7FFFFFFF := by decide +kernel
theorem test_ishr : d3 0x16 .cvIshr 4 0x80000000 0 = 0xF8000000 := by decide +kernel
theorem test_imulq : d3 0x14 .cvImulq 1 3 5 = 8 := by decide +kernel
theorem test_fadd : d3 0x01 .cvFadd 0 0x3F800000 0x40000000 = 0x40400000 := by decide +kernel
theorem test_fsub_order : d3 0x02 .cvFsub 0 0x3F800000 0x40000000 = 0xBF800000 := by decide +kernel
theorem test_fmul_flush : d3 0x03 .cvFmul 0 0x00800000 0x3F000000 = 0 := by decide +kernel
theorem test_fmax_nan : d3 0x06 .cvFmax 0 0x7FC00000 0x40000000 = 0x40000000 := by decide +kernel
theorem test_and : d3 0x17 .cvAnd 0 0xF0F0 0xFF00 = 0xF000 := by decide +kernel
theorem test_fneg : d3 0x08 .cvFneg 0 0x3F800000 0 = 0xBF800000 := by decide +kernel

/-- Table 3-7: a lower bib is not heard again while the higher stands in the window; BLOCK needs no bib. -/
def heardBoth : CellTerm := { powered := true, ladder := .run, stride := 100, bibs := [(100, 0x1302)] }
theorem test_bib_window : (heardBoth.hear 0x1201).highest = 0x1302 := by decide +kernel
theorem test_cell_block : (term (run (.cellBlock 2047 0xF1) { terms := [(2047, heardBoth)] }) 2047).blockCause = 1 := by decide +kernel

/-- R50 to R52 and Table 16-15: a boundary at most 99 strides ahead is too soon, one more than 24 h ahead too far. -/
theorem test_boundary_soon : checkBoundary {} 99 = some .strideTooSoon ∧ checkBoundary {} 100 = none := by decide
theorem test_boundary_far : checkBoundary {} 8640000001 = some .strideTooFar ∧ checkBoundary {} 8640000000 = none := by decide
theorem test_host_block : (run (.hostBlockSet 0xB10C) {}).host.req = true ∧ (run (.hostBlockSet 0xB10D) {}).host.badKey = 1 := by decide +kernel
theorem test_thermal_warn : (run (.thermalReading 6720) {}).sup.warn = true ∧ (run (.thermalReading 6719) {}).sup.warn = false := by decide +kernel

end Sys2Proof.Tests
end

section
/-! R97: a cell obeys BLOCK whatever the bib, and also when no bib has been heard. -/

namespace Sys2Proof.Machine

/-! ### A cell terminal that differs from an unlisted one -/

/-- A change of a cell terminal to anything but what an unlisted one holds reads back in any table, canonical or not. -/
theorem term_onTerm_of_ne_default (n : Nat) (f : CellTerm → CellTerm) (b : Block) (h : f (term b n) ≠ {}) :
    term (onTerm n f b) n = f (term b n) := Tbl.get_set_self _ _ _ _ h

/-- An unlisted terminal is BLOCKED. -/
theorem CellTerm.ne_default_of_ladder {c : CellTerm} (h : c.ladder ≠ .blocked) : c ≠ {} :=
  fun e => h (congrArg CellTerm.ladder e)

/-- An unlisted terminal is BLOCKED with cause 5. -/
theorem CellTerm.ne_default_of_blockCause {c : CellTerm} (h : c.blockCause ≠ 5) : c ≠ {} :=
  fun e => h (congrArg CellTerm.blockCause e)

/-! ### BLOCK at a cell -/

/-- The cell after BLOCK: all off, BLOCKED with cause 1, no list held or to be repeated (R97, R105). -/
def CellTerm.obeyBlock (c : CellTerm) : CellTerm := { c.block 1 with last := none }

/-- A cell that is not BLOCKED obeys BLOCK; nothing else of it is asked. -/
theorem exec_cellBlock_obeys {n : Fin 2048} {octet : BitVec 8} {s : State} (ho : isBlockOctet octet = true)
    (hl : (term s.blk n.val).ladder ≠ .blocked) :
    exec (.cellBlock n octet) s = s.act (onTerm n.val CellTerm.obeyBlock) := by
  have hobeys : (isBlockOctet octet && (term s.blk n.val).ladder != .blocked) = true := by simp [ho, hl]
  have hterm : (if isBlockOctet octet && (term s.blk n.val).ladder != .blocked
      then (term s.blk n.val).obeyBlock else term s.blk n.val) = (term s.blk n.val).obeyBlock := if_pos hobeys
  exact congrArg (fun c => s.act (onTerm n.val fun _ => c)) hterm

/-- The cell that obeyed BLOCK reads back in any table: an unlisted one has another cause. -/
theorem term_onTerm_obeyBlock (n : Nat) (b : Block) :
    term (onTerm n CellTerm.obeyBlock b) n = (term b n).obeyBlock :=
  term_onTerm_of_ne_default _ _ _ (CellTerm.ne_default_of_blockCause (show (1 : Nat) ≠ 5 by decide))

end Sys2Proof.Machine

namespace Sys2Proof

open Machine

/-- Settles O59: the cell with the bibs `heard` is still not BLOCKED, so it obeys, and BLOCK leaves its bibs as they were. -/
theorem blockWhateverTheBib : Obligations.BlockWhateverTheBib := by
  intro n octet heard s ho hl
  have hheard : term (onTerm n.val (fun c => { c with bibs := heard }) s.blk) n.val = { term s.blk n.val with bibs := heard } :=
    term_onTerm_of_ne_default _ _ _ (CellTerm.ne_default_of_ladder hl)
  refine completes_act (exec_cellBlock_obeys ho (by rw [hheard]; exact hl)) ?_
  rw [term_onTerm_obeyBlock, hheard]
  exact ⟨rfl, rfl, rfl, rfl, rfl, rfl⟩

end Sys2Proof
end

section
/-! R565: while LOCK_CAL is set, CFG_WRITE of calibration data is refused. -/

namespace Sys2Proof.Machine

variable {b : Block} {h : Hdr} {w lo hi : W32} {l : List W32}

/-- The structures that LOCK_CAL covers are the calibration data; a CFG_WRITE may reach each and name a boundary for it. -/
theorem cfgCalib_cfgTimed_of_mem {st : Nat} (hst : st ∈ [0x0B, 0x0C, 0x0D, 0x0E, 0x1C, 0x1D]) :
    cfgCalib st = true ∧ cfgTimed st = true ∧ st < 0x80 ∧ cfgWords st ≠ 0 := by
  revert st; decide

/-- A boundary that is refused is refused with a status other than ST_OK (R50). -/
theorem checkBoundary_ne_ok {B : Nat} {x : Status} (hx : checkBoundary b B = some x) : x ≠ .ok := by
  unfold checkBoundary at hx
  split at hx
  · cases hx
    decide
  · split at hx
    · cases hx
      decide
    · cases hx

/-- A CFG_WRITE that is admitted and that its rule refuses answers the refusal and changes nothing else. -/
theorem completes_cfgWrite_fail {args : List W32} {s : State} {x : Status} {d : Nat}
    (ha : Admitted s.blk 0x0101 [.cfg (bits (word args 0) 31 24) (bits (word args 0) 23 8)])
    (hx : cfgWrite h args s.blk = .fail x d) :
    Completes (.cfgWrite h args) s (fun b => Answers h x d [] s.blk b) := by
  refine completes_act rfl ?_
  rw [runCmd_admitted _ _ _ _ _ ha, hx]
  exact finish_fail ..

/-! ### The checks of CFG_WRITE in their order (R549), when its first three words are there -/

/-- Word 0 of a CFG_WRITE names no entry that it may write. -/
abbrev CfgHeadBad (w : W32) : Prop :=
  bits w 7 0 ≠ 0 ∨ 0x80 ≤ bits w 31 24 ∨ cfgWords (bits w 31 24) = 0 ∨ cfgCount (bits w 31 24) ≤ bits w 23 8

/-- The three words of the header are there. -/
theorem cfgArgs_not_short : ¬ (w :: lo :: hi :: l).length < 3 := by simp

theorem cfgWrite_headBad (hhead : CfgHeadBad w) : cfgWrite h (w :: lo :: hi :: l) b = .fail .badArg 0 := by
  unfold cfgWrite
  rw [if_neg cfgArgs_not_short]
  exact if_pos hhead

section
variable (hhead : ¬ CfgHeadBad w)
include hhead

theorem cfgWrite_badLength (hlen : l.length ≠ cfgWords (bits w 31 24)) :
    cfgWrite h (w :: lo :: hi :: l) b = .fail .badArg noDetail := by
  unfold cfgWrite
  rw [if_neg cfgArgs_not_short]
  exact (if_neg hhead).trans (if_pos hlen)

variable (hlen : l.length = cfgWords (bits w 31 24))
include hlen

theorem cfgWrite_pairRole (hrole : isPartner b ∧ mirrored (bits w 31 24) = true) :
    cfgWrite h (w :: lo :: hi :: l) b = .fail .pairRole noDetail := by
  unfold cfgWrite
  rw [if_neg cfgArgs_not_short]
  exact (if_neg hhead).trans <| (if_neg (not_not_intro hlen)).trans (if_pos hrole)

/-- Under LOCK_CAL a CFG_WRITE of calibration data that comes to the check of its boundary ends there or with ST_NOT_READY. -/
theorem cfgWrite_calib_locked_eq (hrole : ¬ (isPartner b ∧ mirrored (bits w 31 24) = true))
    (htimed : cfgTimed (bits w 31 24) = true) (hc : cfgCalib (bits w 31 24) = true) (hl : lockCal b = true) :
    cfgWrite h (w :: lo :: hi :: l) b
      = (if join64 lo hi = 0 then none else checkBoundary b (join64 lo hi)).elim (.fail .notReady noDetail) (.fail · 1) := by
  have huntimed : ¬ (join64 lo hi ≠ 0 ∧ cfgTimed (bits w 31 24) = false) := by simp [htimed]
  unfold cfgWrite
  rw [if_neg cfgArgs_not_short]
  refine (if_neg hhead).trans <| (if_neg (not_not_intro hlen)).trans <|
    (if_neg hrole).trans <| (if_neg huntimed).trans ?_
  change (match (if join64 lo hi = 0 then none else checkBoundary b (join64 lo hi)) with | some _ => _ | none => _) = _
  rcases (if join64 lo hi = 0 then none else checkBoundary b (join64 lo hi)) with _ | x
  · exact if_pos ⟨hc, hl⟩
  · rfl

end

/-- Under LOCK_CAL no CFG_WRITE of calibration data is accepted, in order or not. -/
theorem cfgWrite_calib_locked_fails (htimed : cfgTimed (bits w 31 24) = true) (hc : cfgCalib (bits w 31 24) = true)
    (hl : lockCal b = true) : ∃ x d, x ≠ Status.ok ∧ cfgWrite h (w :: lo :: hi :: l) b = .fail x d := by
  by_cases hhead : CfgHeadBad w
  · exact ⟨_, _, by decide, cfgWrite_headBad hhead⟩
  by_cases hlen : l.length = cfgWords (bits w 31 24)
  case neg => exact ⟨_, _, by decide, cfgWrite_badLength hhead hlen⟩
  by_cases hrole : isPartner b ∧ mirrored (bits w 31 24) = true
  · exact ⟨_, _, by decide, cfgWrite_pairRole hhead hlen hrole⟩
  rw [cfgWrite_calib_locked_eq hhead hlen hrole htimed hc hl]
  rcases hB : (if join64 lo hi = 0 then none else checkBoundary b (join64 lo hi)) with _ | x
  · exact ⟨_, _, by decide, rfl⟩
  · have hcheck : checkBoundary b (join64 lo hi) = some x := by
      by_cases h0 : join64 lo hi = 0
      · rw [if_pos h0] at hB
        cases hB
      · rwa [if_neg h0] at hB
    exact ⟨x, 1, checkBoundary_ne_ok hcheck, rfl⟩

end Sys2Proof.Machine

namespace Sys2Proof

open Machine

/-- Settles O60: LOCK_CAL's check stands behind those of form, role and boundary, and every one of them refuses. -/
theorem lockCalRefusesCalibration : Obligations.LockCalRefusesCalibration := by
  intro h st ix w lo hi l s hst hw hix ha hl
  subst hw hix
  obtain ⟨hc, htimed, hbelow, hwords⟩ := cfgCalib_cfgTimed_of_mem hst
  refine ⟨fun hrsv hcount hlen hrole hB => ?_, ?_⟩
  · have hhead : ¬ CfgHeadBad w := by
      rintro (hbad | hbad | hbad | hbad) <;> omega
    have hnoPartner : ¬ (isPartner s.blk ∧ mirrored (bits w 31 24) = true) := fun hp => hrole (eq_of_beq hp.1)
    have hboundary : (if join64 lo hi = 0 then none else checkBoundary s.blk (join64 lo hi)) = none := by
      rcases hB with h0 | h0
      · exact if_pos h0
      · rw [h0, ite_self]
    refine completes_cfgWrite_fail ha ?_
    rw [cfgWrite_calib_locked_eq hhead hlen hnoPartner htimed hc hl, hboundary, Option.elim_none]
  · obtain ⟨x, d, hne, hx⟩ := cfgWrite_calib_locked_fails (h := h) (lo := lo) (hi := hi) (l := l) htimed hc hl
    exact ⟨x, d, hne, completes_cfgWrite_fail ha hx⟩

end Sys2Proof
end
